-- ==== Sys2Proof/Syntax.lean ====
section
/-! DEFINITION. The instruction and event syntax of Zillamon 3.2 on the KZ4800-M: one constructor for each
row of the opcode table. `w` is the W marker (R22, R59). The field names are those of the formats of R59:
`d`, `a` and `b` name registers, `m` a mask register, `i` an immediate, `o` an order or an offset, `s` a size, shift
or slice, `k` a step count, as the rows of the table name them. The rows after `wakepAgent` are steps of the
device's agents and of its surroundings; they have no encoding. -/
namespace Sys2Proof

/-- The steps of the machine. Each docstring gives the table's mnemonic and the rule that governs the row. -/
inductive Instr where
  /-- ADD (R86). -/
  | add (w : Bool) (d a b : BitVec 5)
  /-- SUB (R86). -/
  | sub (w : Bool) (d a b : BitVec 5)
  /-- AND (R86). -/
  | and (w : Bool) (d a b : BitVec 5)
  /-- OR (R86). -/
  | or (w : Bool) (d a b : BitVec 5)
  /-- XOR (R86). -/
  | xor (w : Bool) (d a b : BitVec 5)
  /-- SLL (R86). -/
  | sll (w : Bool) (d a b : BitVec 5)
  /-- SRL (R86). -/
  | srl (w : Bool) (d a b : BitVec 5)
  /-- SRA (R86). -/
  | sra (w : Bool) (d a b : BitVec 5)
  /-- SLT (R86). -/
  | slt (w : Bool) (d a b : BitVec 5)
  /-- SLTN (R86). -/
  | sltn (w : Bool) (d a b : BitVec 5)
  /-- MIN (R86). -/
  | min (w : Bool) (d a b : BitVec 5)
  /-- MAX (R86). -/
  | max (w : Bool) (d a b : BitVec 5)
  /-- MINN (R86). -/
  | minn (w : Bool) (d a b : BitVec 5)
  /-- MAXN (R86). -/
  | maxn (w : Bool) (d a b : BitVec 5)
  /-- ADDW (R86). -/
  | addw (w : Bool) (d a b : BitVec 5)
  /-- SUBW (R86). -/
  | subw (w : Bool) (d a b : BitVec 5)
  /-- SLLW (R86). -/
  | sllw (w : Bool) (d a b : BitVec 5)
  /-- SRLW (R86). -/
  | srlw (w : Bool) (d a b : BitVec 5)
  /-- SRAW (R86). -/
  | sraw (w : Bool) (d a b : BitVec 5)
  /-- ALU_H (R87). -/
  | aluH (w : Bool) (d a b : BitVec 5) (p : BitVec 8)
  /-- ADDI_H (R87). -/
  | addiH (w : Bool) (d a : BitVec 5) (i : BitVec 11)
  /-- ANDI_H (R87). -/
  | andiH (w : Bool) (d a : BitVec 5) (i : BitVec 11)
  /-- ORI_H (R87). -/
  | oriH (w : Bool) (d a : BitVec 5) (i : BitVec 11)
  /-- XORI_H (R87). -/
  | xoriH (w : Bool) (d a : BitVec 5) (i : BitVec 11)
  /-- ADDI (R89). -/
  | addi (w : Bool) (d a : BitVec 5) (i : BitVec 15)
  /-- ANDI (R89). -/
  | andi (w : Bool) (d a : BitVec 5) (i : BitVec 15)
  /-- ORI (R89). -/
  | ori (w : Bool) (d a : BitVec 5) (i : BitVec 15)
  /-- XORI (R89). -/
  | xori (w : Bool) (d a : BitVec 5) (i : BitVec 15)
  /-- SLTI (R89). -/
  | slti (w : Bool) (d a : BitVec 5) (i : BitVec 15)
  /-- SLTNI (R89). -/
  | sltni (w : Bool) (d a : BitVec 5) (i : BitVec 15)
  /-- ADDI_L (R89). -/
  | addiL (w : Bool) (d a : BitVec 5) (i : BitVec 32)
  /-- SLLI (R90). -/
  | slli (w : Bool) (d a : BitVec 5) (s : BitVec 6)
  /-- SRLI (R90). -/
  | srli (w : Bool) (d a : BitVec 5) (s : BitVec 6)
  /-- SRAI (R90). -/
  | srai (w : Bool) (d a : BitVec 5) (s : BitVec 6)
  /-- SLLIW (R90). -/
  | slliw (w : Bool) (d a s : BitVec 5)
  /-- SRLIW (R90). -/
  | srliw (w : Bool) (d a s : BitVec 5)
  /-- SRAIW (R90). -/
  | sraiw (w : Bool) (d a s : BitVec 5)
  /-- RORI (R90). -/
  | rori (w : Bool) (d a : BitVec 5) (s : BitVec 6)
  /-- LUI (R91). -/
  | lui (w : Bool) (d : BitVec 5) (i : BitVec 20)
  /-- ADDPC (R91). -/
  | addpc (w : Bool) (d : BitVec 5) (i : BitVec 20)
  /-- ADDPC_L (R91). -/
  | addpcL (w : Bool) (d : BitVec 5) (i : BitVec 32)
  /-- MUL (R92). -/
  | mul (w : Bool) (d a b : BitVec 5)
  /-- MULH (R92). -/
  | mulh (w : Bool) (d a b : BitVec 5)
  /-- MULHN (R92). -/
  | mulhn (w : Bool) (d a b : BitVec 5)
  /-- MULHSN (R92). -/
  | mulhsn (w : Bool) (d a b : BitVec 5)
  /-- DIV (R92). -/
  | div (w : Bool) (d a b : BitVec 5)
  /-- DIVN (R92). -/
  | divn (w : Bool) (d a b : BitVec 5)
  /-- REM (R92). -/
  | rem (w : Bool) (d a b : BitVec 5)
  /-- REMN (R92). -/
  | remn (w : Bool) (d a b : BitVec 5)
  /-- MULW (R92). -/
  | mulw (w : Bool) (d a b : BitVec 5)
  /-- DIVW (R92). -/
  | divw (w : Bool) (d a b : BitVec 5)
  /-- DIVNW (R92). -/
  | divnw (w : Bool) (d a b : BitVec 5)
  /-- REMW (R92). -/
  | remw (w : Bool) (d a b : BitVec 5)
  /-- REMNW (R92). -/
  | remnw (w : Bool) (d a b : BitVec 5)
  /-- CLZ (R93). -/
  | clz (w : Bool) (d a : BitVec 5)
  /-- CTZ (R93). -/
  | ctz (w : Bool) (d a : BitVec 5)
  /-- POPC (R93). -/
  | popc (w : Bool) (d a : BitVec 5)
  /-- BREV (R93). -/
  | brev (w : Bool) (d a : BitVec 5)
  /-- BSWAP (R93). -/
  | bswap (w : Bool) (d a : BitVec 5)
  /-- ROL (R93). -/
  | rol (w : Bool) (d a b : BitVec 5)
  /-- ROR (R93). -/
  | ror (w : Bool) (d a b : BitVec 5)
  /-- SEXTB (R93). -/
  | sextb (w : Bool) (d a : BitVec 5)
  /-- SEXTH (R93). -/
  | sexth (w : Bool) (d a : BitVec 5)
  /-- SEXTW (R93). -/
  | sextw (w : Bool) (d a : BitVec 5)
  /-- ZEXTW (R93). -/
  | zextw (w : Bool) (d a : BitVec 5)
  /-- BEXT (R93). -/
  | bext (w : Bool) (d a b : BitVec 5)
  /-- BDEP (R93). -/
  | bdep (w : Bool) (d a b : BitVec 5)
  /-- CLZW (R93). -/
  | clzw (w : Bool) (d a : BitVec 5)
  /-- CTZW (R93). -/
  | ctzw (w : Bool) (d a : BitVec 5)
  /-- POPCW (R93). -/
  | popcw (w : Bool) (d a : BitVec 5)
  /-- TID (R94). -/
  | tid (w : Bool) (d : BitVec 5)
  /-- PLACE (R94). -/
  | place (w : Bool) (d : BitVec 5)
  /-- LSIZE (R94). -/
  | lsize (w : Bool) (d : BitVec 5)
  /-- LB (R95). -/
  | lb (w : Bool) (d a : BitVec 5) (o : BitVec 2) (i : BitVec 10)
  /-- LH (R95). -/
  | lh (w : Bool) (d a : BitVec 5) (o : BitVec 2) (i : BitVec 10)
  /-- LW (R95). -/
  | lw (w : Bool) (d a : BitVec 5) (o : BitVec 2) (i : BitVec 10)
  /-- LD (R95). -/
  | ld (w : Bool) (d a : BitVec 5) (o : BitVec 2) (i : BitVec 10)
  /-- LBN (R95). -/
  | lbn (w : Bool) (d a : BitVec 5) (o : BitVec 2) (i : BitVec 10)
  /-- LHN (R95). -/
  | lhn (w : Bool) (d a : BitVec 5) (o : BitVec 2) (i : BitVec 10)
  /-- LWN (R95). -/
  | lwn (w : Bool) (d a : BitVec 5) (o : BitVec 2) (i : BitVec 10)
  /-- SB (R95). -/
  | sb (w : Bool) (o : BitVec 2) (a b : BitVec 5) (i : BitVec 10)
  /-- SH (R95). -/
  | sh (w : Bool) (o : BitVec 2) (a b : BitVec 5) (i : BitVec 10)
  /-- SW (R95). -/
  | sw (w : Bool) (o : BitVec 2) (a b : BitVec 5) (i : BitVec 10)
  /-- SD (R95). -/
  | sd (w : Bool) (o : BitVec 2) (a b : BitVec 5) (i : BitVec 10)
  /-- LOAD_SCOPED (R96). -/
  | loadScoped (w : Bool) (d a : BitVec 5) (s : BitVec 3) (o : BitVec 5)
  /-- STORE_SCOPED (R96). -/
  | storeScoped (w : Bool) (a b : BitVec 5) (s : BitVec 2) (o : BitVec 5)
  /-- BEQ (R101). -/
  | beq (w : Bool) (o : BitVec 15) (a b : BitVec 5)
  /-- BNE (R101). -/
  | bne (w : Bool) (o : BitVec 15) (a b : BitVec 5)
  /-- BLT (R101). -/
  | blt (w : Bool) (o : BitVec 15) (a b : BitVec 5)
  /-- BGE (R101). -/
  | bge (w : Bool) (o : BitVec 15) (a b : BitVec 5)
  /-- BLTN (R101). -/
  | bltn (w : Bool) (o : BitVec 15) (a b : BitVec 5)
  /-- BGEN (R101). -/
  | bgen (w : Bool) (o : BitVec 15) (a b : BitVec 5)
  /-- CALL (R102). -/
  | call (w : Bool) (d : BitVec 5) (o : BitVec 20)
  /-- CALLR (R102). -/
  | callr (w : Bool) (d a : BitVec 5) (i : BitVec 15)
  /-- AMOADD (R162). -/
  | amoadd (w : Bool) (d a b : BitVec 5) (z : BitVec 1) (o : BitVec 5)
  /-- AMOAND (R162). -/
  | amoand (w : Bool) (d a b : BitVec 5) (z : BitVec 1) (o : BitVec 5)
  /-- AMOOR (R162). -/
  | amoor (w : Bool) (d a b : BitVec 5) (z : BitVec 1) (o : BitVec 5)
  /-- AMOXOR (R162). -/
  | amoxor (w : Bool) (d a b : BitVec 5) (z : BitVec 1) (o : BitVec 5)
  /-- AMOMIN (R162). -/
  | amomin (w : Bool) (d a b : BitVec 5) (z : BitVec 1) (o : BitVec 5)
  /-- AMOMAX (R162). -/
  | amomax (w : Bool) (d a b : BitVec 5) (z : BitVec 1) (o : BitVec 5)
  /-- AMOMINN (R162). -/
  | amominn (w : Bool) (d a b : BitVec 5) (z : BitVec 1) (o : BitVec 5)
  /-- AMOMAXN (R162). -/
  | amomaxn (w : Bool) (d a b : BitVec 5) (z : BitVec 1) (o : BitVec 5)
  /-- AMOSWAP (R162). -/
  | amoswap (w : Bool) (d a b : BitVec 5) (z : BitVec 1) (o : BitVec 5)
  /-- CAS (R162). -/
  | cas (w : Bool) (d a b : BitVec 5) (z : BitVec 1) (o : BitVec 5)
  /-- AMOFADD (R163). -/
  | amofadd (w : Bool) (d a b : BitVec 5) (z : BitVec 1) (o : BitVec 5)
  /-- CAS_Q (R162). -/
  | casQ (w : Bool) (d : BitVec 4) (a : BitVec 5) (b : BitVec 4) (o : BitVec 5)
  /-- LEASE (R167). -/
  | lease (w : Bool) (d a o : BitVec 5)
  /-- LEASE_N (R167). -/
  | leaseN (w : Bool) (d a b o : BitVec 5)
  /-- LEND (R171). -/
  | lend (w : Bool) (d o : BitVec 5)
  /-- FENCE (R184). -/
  | fence (w : Bool) (k : BitVec 4) (s : BitVec 3)
  /-- BAR (R185). -/
  | bar (w : Bool) (n : BitVec 4) (s : BitVec 3)
  /-- BARA (R185). -/
  | bara (w : Bool) (n : BitVec 4) (s : BitVec 3)
  /-- BARW (R185). -/
  | barw (w : Bool) (n : BitVec 4) (s : BitVec 3)
  /-- CLAIM (R187). -/
  | claim (w : Bool) (d a b : BitVec 5)
  /-- VWAIT (R180). -/
  | vwait (w : Bool) (d a b : BitVec 5) (m : BitVec 3) (c : BitVec 4)
  /-- VWAIT_T (R180). -/
  | vwaitT (w : Bool) (d a b : BitVec 5) (m : BitVec 3) (c : BitVec 4)
  /-- WFE (R183). -/
  | wfe (w : Bool)
  /-- WAKE (R183). -/
  | wake (w : Bool) (a : BitVec 5)
  /-- VCFG (R110). -/
  | vcfg (w : Bool) (d t : BitVec 5) (g : BitVec 2)
  /-- VGRANT (R111). -/
  | vgrant (w : Bool) (d a b : BitVec 5)
  /-- VMV (R112). -/
  | vmv (w : Bool) (d a : BitVec 5) (m : BitVec 3)
  /-- VSPLAT (R112). -/
  | vsplat (w : Bool) (d a : BitVec 5) (m : BitVec 3)
  /-- VGET (R113). -/
  | vget (w : Bool) (d a b : BitVec 5)
  /-- VPUT (R113). -/
  | vput (w : Bool) (d a b : BitVec 5)
  /-- VMOVR (R114). -/
  | vmovr (w : Bool) (d a k : BitVec 5)
  /-- VMOVW (R114). -/
  | vmovw (w : Bool) (d a k : BitVec 5)
  /-- VTAG (R115). -/
  | vtag (w : Bool) (d a : BitVec 5)
  /-- VADD (R116). -/
  | vadd (w : Bool) (d a b : BitVec 5) (m : BitVec 3)
  /-- VSUB (R116). -/
  | vsub (w : Bool) (d a b : BitVec 5) (m : BitVec 3)
  /-- VMUL (R116). -/
  | vmul (w : Bool) (d a b : BitVec 5) (m : BitVec 3)
  /-- VMULH (R116). -/
  | vmulh (w : Bool) (d a b : BitVec 5) (m : BitVec 3)
  /-- VMULHN (R116). -/
  | vmulhn (w : Bool) (d a b : BitVec 5) (m : BitVec 3)
  /-- VMADD (R116). -/
  | vmadd (w : Bool) (d a b : BitVec 5) (m : BitVec 3)
  /-- VDIV (R116). -/
  | vdiv (w : Bool) (d a b : BitVec 5) (m : BitVec 3)
  /-- VDIVN (R116). -/
  | vdivn (w : Bool) (d a b : BitVec 5) (m : BitVec 3)
  /-- VREM (R116). -/
  | vrem (w : Bool) (d a b : BitVec 5) (m : BitVec 3)
  /-- VREMN (R116). -/
  | vremn (w : Bool) (d a b : BitVec 5) (m : BitVec 3)
  /-- VAND (R116). -/
  | vand (w : Bool) (d a b : BitVec 5) (m : BitVec 3)
  /-- VOR (R116). -/
  | vor (w : Bool) (d a b : BitVec 5) (m : BitVec 3)
  /-- VXOR (R116). -/
  | vxor (w : Bool) (d a b : BitVec 5) (m : BitVec 3)
  /-- VSLL (R116). -/
  | vsll (w : Bool) (d a b : BitVec 5) (m : BitVec 3)
  /-- VSRL (R116). -/
  | vsrl (w : Bool) (d a b : BitVec 5) (m : BitVec 3)
  /-- VSRA (R116). -/
  | vsra (w : Bool) (d a b : BitVec 5) (m : BitVec 3)
  /-- VMIN (R116). -/
  | vmin (w : Bool) (d a b : BitVec 5) (m : BitVec 3)
  /-- VMAX (R116). -/
  | vmax (w : Bool) (d a b : BitVec 5) (m : BitVec 3)
  /-- VMINN (R116). -/
  | vminn (w : Bool) (d a b : BitVec 5) (m : BitVec 3)
  /-- VMAXN (R116). -/
  | vmaxn (w : Bool) (d a b : BitVec 5) (m : BitVec 3)
  /-- VSADD (R116). -/
  | vsadd (w : Bool) (d a b : BitVec 5) (m : BitVec 3)
  /-- VSADDN (R116). -/
  | vsaddn (w : Bool) (d a b : BitVec 5) (m : BitVec 3)
  /-- VSSUB (R116). -/
  | vssub (w : Bool) (d a b : BitVec 5) (m : BitVec 3)
  /-- VSSUBN (R116). -/
  | vssubn (w : Bool) (d a b : BitVec 5) (m : BitVec 3)
  /-- VABS (R116). -/
  | vabs (w : Bool) (d a : BitVec 5) (m : BitVec 3)
  /-- VCMPEQ (R117). -/
  | vcmpeq (w : Bool) (d : BitVec 3) (a b : BitVec 5) (m : BitVec 3)
  /-- VCMPNE (R117). -/
  | vcmpne (w : Bool) (d : BitVec 3) (a b : BitVec 5) (m : BitVec 3)
  /-- VCMPLT (R117). -/
  | vcmplt (w : Bool) (d : BitVec 3) (a b : BitVec 5) (m : BitVec 3)
  /-- VCMPGE (R117). -/
  | vcmpge (w : Bool) (d : BitVec 3) (a b : BitVec 5) (m : BitVec 3)
  /-- VCMPLTN (R117). -/
  | vcmpltn (w : Bool) (d : BitVec 3) (a b : BitVec 5) (m : BitVec 3)
  /-- VCMPGEN (R117). -/
  | vcmpgen (w : Bool) (d : BitVec 3) (a b : BitVec 5) (m : BitVec 3)
  /-- VWADD (R118). -/
  | vwadd (w : Bool) (d a b : BitVec 5) (m : BitVec 3)
  /-- VWMUL (R118). -/
  | vwmul (w : Bool) (d a b : BitVec 5) (m : BitVec 3)
  /-- VFADD (R119). -/
  | vfadd (w : Bool) (d a b : BitVec 5) (m : BitVec 3)
  /-- VFSUB (R119). -/
  | vfsub (w : Bool) (d a b : BitVec 5) (m : BitVec 3)
  /-- VFMUL (R119). -/
  | vfmul (w : Bool) (d a b : BitVec 5) (m : BitVec 3)
  /-- VFDIV (R119). -/
  | vfdiv (w : Bool) (d a b : BitVec 5) (m : BitVec 3)
  /-- VFMA (R119). -/
  | vfma (w : Bool) (d a b : BitVec 5) (m : BitVec 3)
  /-- VFMS (R119). -/
  | vfms (w : Bool) (d a b : BitVec 5) (m : BitVec 3)
  /-- VFNMA (R119). -/
  | vfnma (w : Bool) (d a b : BitVec 5) (m : BitVec 3)
  /-- VFMIN (R119). -/
  | vfmin (w : Bool) (d a b : BitVec 5) (m : BitVec 3)
  /-- VFMAX (R119). -/
  | vfmax (w : Bool) (d a b : BitVec 5) (m : BitVec 3)
  /-- VFSGNJ (R119). -/
  | vfsgnj (w : Bool) (d a b : BitVec 5) (m : BitVec 3)
  /-- VFSGNJN (R119). -/
  | vfsgnjn (w : Bool) (d a b : BitVec 5) (m : BitVec 3)
  /-- VFSQRT (R119). -/
  | vfsqrt (w : Bool) (d a : BitVec 5) (m : BitVec 3)
  /-- VFRCP (R119). -/
  | vfrcp (w : Bool) (d a : BitVec 5) (m : BitVec 3)
  /-- VFRSQRT (R119). -/
  | vfrsqrt (w : Bool) (d a : BitVec 5) (m : BitVec 3)
  /-- VFEXP2 (R119). -/
  | vfexp2 (w : Bool) (d a : BitVec 5) (m : BitVec 3)
  /-- VFLOG2 (R119). -/
  | vflog2 (w : Bool) (d a : BitVec 5) (m : BitVec 3)
  /-- VFABS (R119). -/
  | vfabs (w : Bool) (d a : BitVec 5) (m : BitVec 3)
  /-- VFNEG (R119). -/
  | vfneg (w : Bool) (d a : BitVec 5) (m : BitVec 3)
  /-- VFCLASS (R120). -/
  | vfclass (w : Bool) (d a : BitVec 5) (m : BitVec 3)
  /-- VFCMPEQ (R121). -/
  | vfcmpeq (w : Bool) (d : BitVec 3) (a b : BitVec 5) (m : BitVec 3)
  /-- VFCMPLT (R121). -/
  | vfcmplt (w : Bool) (d : BitVec 3) (a b : BitVec 5) (m : BitVec 3)
  /-- VFCMPLE (R121). -/
  | vfcmple (w : Bool) (d : BitVec 3) (a b : BitVec 5) (m : BitVec 3)
  /-- VFCMPUN (R121). -/
  | vfcmpun (w : Bool) (d : BitVec 3) (a b : BitVec 5) (m : BitVec 3)
  /-- VINT_G (R122). -/
  | vintG (w : Bool) (d a b : BitVec 5) (m : BitVec 3) (p : BitVec 6)
  /-- VFLOAT_G (R122). -/
  | vfloatG (w : Bool) (d a b : BitVec 5) (m : BitVec 3) (p : BitVec 6)
  /-- VCVT (R123). -/
  | vcvt (w : Bool) (d a : BitVec 5) (m r : BitVec 3)
  /-- VCVT_SAT (R123). -/
  | vcvtSat (w : Bool) (d a : BitVec 5) (m r : BitVec 3)
  /-- VCVT_SC (R124). -/
  | vcvtSc (w : Bool) (d a b : BitVec 5) (m r : BitVec 3)
  /-- VCVT_DS (R125). -/
  | vcvtDs (w : Bool) (d a b : BitVec 5) (r : BitVec 3)
  /-- VSHIFT (R126). -/
  | vshift (w : Bool) (d a b : BitVec 5) (m : BitVec 3)
  /-- VROT (R126). -/
  | vrot (w : Bool) (d a b : BitVec 5) (m : BitVec 3)
  /-- VFEEDLO (R126). -/
  | vfeedlo (w : Bool) (d a b : BitVec 5) (m : BitVec 3)
  /-- VFEEDHI (R126). -/
  | vfeedhi (w : Bool) (d a b : BitVec 5) (m : BitVec 3)
  /-- VPICK (R127). -/
  | vpick (w : Bool) (d a b : BitVec 5) (m : BitVec 3)
  /-- VPACK (R128). -/
  | vpack (w : Bool) (d a : BitVec 5) (m : BitVec 3)
  /-- VSPREAD (R128). -/
  | vspread (w : Bool) (d a : BitVec 5) (m : BitVec 3)
  /-- VSCANADD (R129). -/
  | vscanadd (w : Bool) (d a b : BitVec 5) (m : BitVec 3)
  /-- VSCANMIN (R129). -/
  | vscanmin (w : Bool) (d a b : BitVec 5) (m : BitVec 3)
  /-- VSCANMAX (R129). -/
  | vscanmax (w : Bool) (d a b : BitVec 5) (m : BitVec 3)
  /-- VFSCANADD (R129). -/
  | vfscanadd (w : Bool) (d a b : BitVec 5) (m : BitVec 3)
  /-- VREDSUM (R130). -/
  | vredsum (w : Bool) (d a b : BitVec 5) (m : BitVec 3)
  /-- VREDMIN (R130). -/
  | vredmin (w : Bool) (d a b : BitVec 5) (m : BitVec 3)
  /-- VREDMAX (R130). -/
  | vredmax (w : Bool) (d a b : BitVec 5) (m : BitVec 3)
  /-- VREDMINN (R130). -/
  | vredminn (w : Bool) (d a b : BitVec 5) (m : BitVec 3)
  /-- VREDMAXN (R130). -/
  | vredmaxn (w : Bool) (d a b : BitVec 5) (m : BitVec 3)
  /-- VREDAND (R130). -/
  | vredand (w : Bool) (d a b : BitVec 5) (m : BitVec 3)
  /-- VREDOR (R130). -/
  | vredor (w : Bool) (d a b : BitVec 5) (m : BitVec 3)
  /-- VREDXOR (R130). -/
  | vredxor (w : Bool) (d a b : BitVec 5) (m : BitVec 3)
  /-- VFREDSUM (R130). -/
  | vfredsum (w : Bool) (d a b : BitVec 5) (m : BitVec 3)
  /-- VFREDMIN (R130). -/
  | vfredmin (w : Bool) (d a b : BitVec 5) (m : BitVec 3)
  /-- VFREDMAX (R130). -/
  | vfredmax (w : Bool) (d a b : BitVec 5) (m : BitVec 3)
  /-- MBOUND (R131). -/
  | mbound (w : Bool) (d : BitVec 3) (a b : BitVec 5)
  /-- MAND (R131). -/
  | mand (w : Bool) (d a b : BitVec 3)
  /-- MOR (R131). -/
  | mor (w : Bool) (d a b : BitVec 3)
  /-- MXOR (R131). -/
  | mxor (w : Bool) (d a b : BitVec 3)
  /-- MANDN (R131). -/
  | mandn (w : Bool) (d a b : BitVec 3)
  /-- MNOT (R131). -/
  | mnot (w : Bool) (d a : BitVec 3)
  /-- MMV (R131). -/
  | mmv (w : Bool) (d a : BitVec 3)
  /-- MCNT (R131). -/
  | mcnt (w : Bool) (d : BitVec 5) (a : BitVec 3)
  /-- MFIRST (R131). -/
  | mfirst (w : Bool) (d : BitVec 5) (a : BitVec 3)
  /-- MFROMV (R131). -/
  | mfromv (w : Bool) (d : BitVec 3) (a : BitVec 5)
  /-- MTOV (R131). -/
  | mtov (w : Bool) (d : BitVec 5) (a : BitVec 3)
  /-- MPUSH (R132). -/
  | mpush (w : Bool) (a : BitVec 3)
  /-- MELSE (R132). -/
  | melse (w : Bool)
  /-- MPOP (R132). -/
  | mpop (w : Bool)
  /-- VLD (R133). -/
  | vld (w : Bool) (d a : BitVec 5) (m : BitVec 3)
  /-- VLDS (R133). -/
  | vlds (w : Bool) (d a b : BitVec 5) (m : BitVec 3)
  /-- VLDX (R133). -/
  | vldx (w : Bool) (d a b : BitVec 5) (m : BitVec 3)
  /-- VST (R133). -/
  | vst (w : Bool) (d a : BitVec 5) (m : BitVec 3)
  /-- VSTS (R133). -/
  | vsts (w : Bool) (d a b : BitVec 5) (m : BitVec 3)
  /-- VSTX (R133). -/
  | vstx (w : Bool) (d a b : BitVec 5) (m : BitVec 3)
  /-- GLD (R177). -/
  | gld (w : Bool) (d a b : BitVec 5) (m : BitVec 3)
  /-- SCS (R178). -/
  | scs (w : Bool) (d a b : BitVec 5) (m : BitVec 3)
  /-- VAMOADD (R179). -/
  | vamoadd (w : Bool) (d a b : BitVec 5) (m : BitVec 3)
  /-- VAMOAND (R179). -/
  | vamoand (w : Bool) (d a b : BitVec 5) (m : BitVec 3)
  /-- VAMOOR (R179). -/
  | vamoor (w : Bool) (d a b : BitVec 5) (m : BitVec 3)
  /-- VAMOXOR (R179). -/
  | vamoxor (w : Bool) (d a b : BitVec 5) (m : BitVec 3)
  /-- VAMOMIN (R179). -/
  | vamomin (w : Bool) (d a b : BitVec 5) (m : BitVec 3)
  /-- VAMOMAX (R179). -/
  | vamomax (w : Bool) (d a b : BitVec 5) (m : BitVec 3)
  /-- VAMOMINN (R179). -/
  | vamominn (w : Bool) (d a b : BitVec 5) (m : BitVec 3)
  /-- VAMOMAXN (R179). -/
  | vamomaxn (w : Bool) (d a b : BitVec 5) (m : BitVec 3)
  /-- VAMOFADD (R179). -/
  | vamofadd (w : Bool) (d a b : BitVec 5) (m : BitVec 3)
  /-- MGANG (R140). -/
  | mgang (w : Bool)
  /-- MMA_VREG (R147). -/
  | mmaVreg (w : Bool) (s : BitVec 1) (a b : BitVec 5) (k : BitVec 4)
  /-- MMA_SCRATCH (R147). -/
  | mmaScratch (w : Bool) (s : BitVec 1) (a b : BitVec 5) (k : BitVec 4)
  /-- MMA_DOWNCONV (R151). -/
  | mmaDownconv (w : Bool) (s t : BitVec 1) (b : BitVec 5) (k : BitVec 3)
  /-- MMA_SLIDE_VREG (R152). -/
  | mmaSlideVreg (w : Bool) (s : BitVec 1) (a b : BitVec 5) (k : BitVec 4)
  /-- MMA_SLIDE_SCRATCH (R152). -/
  | mmaSlideScratch (w : Bool) (s : BitVec 1) (a b : BitVec 5) (k : BitVec 4)
  /-- MST (R158). -/
  | mst (w : Bool) (s : BitVec 1) (a b : BitVec 5)
  /-- MWAIT (R159). -/
  | mwait (w : Bool)
  /-- MZERO (R156). -/
  | mzero (w : Bool) (s : BitVec 1)
  /-- MRD (R156). -/
  | mrd (w : Bool) (d : BitVec 5) (s : BitVec 1) (b : BitVec 5)
  /-- MWR (R156). -/
  | mwr (w : Bool) (s : BitVec 1) (a b : BitVec 5)
  /-- MCVT (R156). -/
  | mcvt (w : Bool) (d : BitVec 5) (s : BitVec 1) (b : BitVec 5)
  /-- SAMPLE_NEAR (R191). -/
  | sampleNear (w : Bool) (d a b : BitVec 5) (m : BitVec 3)
  /-- SAMPLE_BIL (R191). -/
  | sampleBil (w : Bool) (d a b : BitVec 5) (m : BitVec 3)
  /-- SAMPLE_TRI (R191). -/
  | sampleTri (w : Bool) (d a b : BitVec 5) (m : BitVec 3)
  /-- BOXTEST (R198). -/
  | boxtest (w : Bool) (d : BitVec 5) (a : BitVec 4) (b : BitVec 5) (m : BitVec 3)
  /-- TRITEST (R199). -/
  | tritest (w : Bool) (d : BitVec 5) (a : BitVec 4) (b : BitVec 5) (m : BitVec 3)
  /-- PARTITION (R200). -/
  | partition (w : Bool) (d : BitVec 5) (a : BitVec 4) (b : BitVec 5) (m : BitVec 3)
  /-- MARCH_RECORD (R203). -/
  | marchRecord (w : Bool) (d a b : BitVec 5) (m : BitVec 3)
  /-- MARCH_ACC (R203). -/
  | marchAcc (w : Bool) (d a b : BitVec 5) (m : BitVec 3)
  /-- MARCH_LOCATE (R203). -/
  | marchLocate (w : Bool) (d a b : BitVec 5) (m : BitVec 3)
  /-- QPUSH_TILE (R212). -/
  | qpushTile (w : Bool) (a b : BitVec 5) (n : BitVec 1)
  /-- QPUSH_BLEND (R212). -/
  | qpushBlend (w : Bool) (a b : BitVec 5) (n : BitVec 1)
  /-- QPUSH_MESH (R212). -/
  | qpushMesh (w : Bool) (a b : BitVec 5) (n : BitVec 1)
  /-- COPY (R217). -/
  | copy (w : Bool) (a : BitVec 5)
  /-- FILL (R217). -/
  | fill (w : Bool) (a : BitVec 5)
  /-- COLL (R218). -/
  | coll (w : Bool) (a : BitVec 5)
  /-- QFENCE (R220). -/
  | qfence (w : Bool) (s : BitVec 5)
  /-- QWAIT (R221). -/
  | qwait (w : Bool) (d : BitVec 5) (q : BitVec 3)
  /-- QSTAT (R221). -/
  | qstat (w : Bool) (d : BitVec 5) (q : BitVec 3)
  /-- MFS (R222). -/
  | mfs (w : Bool) (d : BitVec 5) (c : BitVec 12)
  /-- MTS (R222). -/
  | mts (w : Bool) (a : BitVec 5) (c : BitVec 12)
  /-- SVC (R223). -/
  | svc (w : Bool) (a : BitVec 5)
  /-- TRAP (R223). -/
  | trap (w : Bool) (a : BitVec 5)
  /-- BRK (R223). -/
  | brk (w : Bool)
  /-- YIELD (R224). -/
  | yield (w : Bool)
  /-- HALT (R225). -/
  | halt (w : Bool)
  /-- TIMEWAIT (R226). -/
  | timewait (w : Bool) (a : BitVec 5)
  /-- TRES (R232). -/
  | tres (w : Bool) (d a b : BitVec 5)
  /-- CTXSAVE (R236). -/
  | ctxsave (w : Bool) (d a b : BitVec 5)
  /-- CTXLOAD (R238). -/
  | ctxload (w : Bool) (d a b : BitVec 5)
  /-- TLBINV_PAGE (R234). -/
  | tlbinvPage (w : Bool) (a b : BitVec 5)
  /-- TLBINV_PARTITION (R234). -/
  | tlbinvPartition (w : Bool) (a b : BitVec 5)
  /-- SLOTCTL_HOLD (R235). -/
  | slotctlHold (w : Bool) (a b : BitVec 5)
  /-- SLOTCTL_RELEASE (R235). -/
  | slotctlRelease (w : Bool) (a b : BitVec 5)
  /-- SLOTCTL_KILL (R235). -/
  | slotctlKill (w : Bool) (a b : BitVec 5)
  /-- SLOTCTL_DEBUG (R235). -/
  | slotctlDebug (w : Bool) (a b : BitVec 5)
  /-- SLOTCTL_POOL (R261). -/
  | slotctlPool (w : Bool) (a b : BitVec 5)
  /-- WAKEP_THREAD (R233). -/
  | wakepThread (w : Bool) (a : BitVec 5)
  /-- WAKEP_AGENT (R233). -/
  | wakepAgent (w : Bool) (a : BitVec 5)
  /-- VECTOR_SEQUENCER_START (R345). -/
  | vectorSequencerStart (core : Nat)
  /-- LONG_LATENCY_RESULT_LAND (R21). -/
  | longLatencyResultLand (slot n : Nat)
  /-- TRAP_RECORD_DEFERRED_WRITE (R227). -/
  | trapRecordDeferredWrite (cluster : Nat)
  /-- SPRING_DISPATCH (R227). -/
  | springDispatch (cluster : Nat)
  /-- GANG_JOIN_RELEASE (R140). -/
  | gangJoinRelease (quad slot : Nat)
  /-- GANG_OP_START (R150). -/
  | gangOpStart (quad : Nat)
  /-- GANG_KSTEP_END (R147). -/
  | gangKstepEnd (quad : Nat)
  /-- GANG_OP_COMPLETE (R150). -/
  | gangOpComplete (quad : Nat)
  /-- MST_DRAIN_START (R158). -/
  | mstDrainStart (core : Nat)
  /-- MST_COMPLETE (R158). -/
  | mstComplete (core : Nat)
  /-- LEASE_HOME_RECORD (R169). -/
  | leaseHomeRecord (line : Nat)
  /-- LEASE_EXPIRE (R172). -/
  | leaseExpire (slot : Nat)
  /-- VWAIT_PASS (R181). -/
  | vwaitPass (slot : Nat)
  /-- VWAIT_TIMEOUT (R181). -/
  | vwaitTimeout (slot : Nat)
  /-- BARRIER_RELEASE (R186). -/
  | barrierRelease (bkey : Nat)
  /-- TIMEWAIT_END (R226). -/
  | timewaitEnd (slot : Nat)
  /-- SC_PERFORM (R249). -/
  | scPerform
  /-- COPY_ENGINE_ENTRY (R217). -/
  | copyEngineEntry (unit : Nat)
  /-- ENGINE_ENTRY_COMPLETE (R214). -/
  | engineEntryComplete (id : Nat)
  /-- COLL_MATCH (R218). -/
  | collMatch (key : BitVec 64)
  /-- MARCH_ENTRY_TAKE (R286). -/
  | marchEntryTake (cluster : Nat)
  /-- MARCH_STEP (R206). -/
  | marchStep (cluster id ray : Nat)
  /-- MARCH_ENTRY_COMPLETE (R286). -/
  | marchEntryComplete (cluster id : Nat)
  /-- MESH_TRI (R307). -/
  | meshTri (die q : Nat)
  /-- MESH_END (R306). -/
  | meshEnd (die q : Nat)
  /-- TILE_JOB (R314). -/
  | tileJob (cluster q : Nat)
  /-- TILE_MARK (R314). -/
  | tileMark (cluster q : Nat)
  /-- BIN_RENDER (R315). -/
  | binRender (cluster : Nat)
  /-- TILE_SPILL (R320). -/
  | tileSpill (cluster : Nat)
  /-- FRAGMENT_WRITE (R319). -/
  | fragmentWrite (cluster : Nat)
  /-- TILE_WRITEBACK (R322). -/
  | tileWriteback (cluster tile : Nat)
  /-- BLEND_ORDERED (R324). -/
  | blendOrdered (cluster q : Nat)
  /-- BLEND_APPLY (R326). -/
  | blendApply (cluster n : Nat)
  /-- BLEND_DIRECT (R325). -/
  | blendDirect (cluster q : Nat)
  /-- FRAME_DONE (R305). -/
  | frameDone (frame : Nat)
  /-- FRAME_UNBIND (R303). -/
  | frameUnbind (frame : Nat)
  /-- DOORBELL (R329). -/
  | doorbell (part q : Nat) (value : BitVec 64)
  /-- PACKET_NOP (R332). -/
  | packetNop (part q : Nat)
  /-- PACKET_LAUNCH (R339). -/
  | packetLaunch (part q : Nat)
  /-- PACKET_BARRIER (R334). -/
  | packetBarrier (part q : Nat)
  /-- PACKET_COPY (R332). -/
  | packetCopy (part q : Nat)
  /-- PACKET_SIGNAL (R331). -/
  | packetSignal (part q : Nat)
  /-- PACKET_FRAME (R303). -/
  | packetFrame (part q : Nat)
  /-- BARRIER_EVALUATE (R334). -/
  | barrierEvaluate (part q : Nat)
  /-- LAUNCH_DISPATCH (R344). -/
  | launchDispatch (part : Nat)
  /-- LAUNCH_COMPLETE (R332). -/
  | launchComplete (launch : Nat)
  /-- PREEMPTION (R346). -/
  | preemption (part : Nat)
  /-- QUEUE_RESET (R333). -/
  | queueReset (part q : Nat)
  /-- ENGINE_RESET (R363). -/
  | engineReset (part kind unit : Nat)
  /-- RESET_PARTITION (R363). -/
  | resetPartition (part : Nat)
  /-- RESET_DIE (R364). -/
  | resetDie (die : Nat)
  /-- DIE_RESET_RETURN (R364). -/
  | dieResetReturn (die : Nat)
  /-- RESET_FUNCTION (R363). -/
  | resetFunction (wipe : Bool)
  /-- RESET_DEVICE (R363). -/
  | resetDevice
  /-- POWER_UP (R361). -/
  | powerUp
  /-- SEAL (R365). -/
  | seal
  /-- SEAL_COMPLETE (R365). -/
  | sealComplete
  /-- RESTORE (R368). -/
  | restore
  /-- THERMAL_TRIP (R371). -/
  | thermalTrip
  /-- POWER_LIMIT_THROTTLE (R371). -/
  | powerLimitThrottle
  /-- MBOX_REPORT (R368). -/
  | mboxReport
  /-- MBOX_CERT (R367). -/
  | mboxCert
  /-- MBOX_LIFECYCLE (R366). -/
  | mboxLifecycle
  /-- MBOX_LOADSPRING (R367). -/
  | mboxLoadspring
  /-- MBOX_KEYXFER (R367). -/
  | mboxKeyxfer
  /-- MBOX_KEYRECV (R367). -/
  | mboxKeyrecv
  /-- CODE_LOAD (R350). -/
  | codeLoad (part handle : Nat)
  /-- CODE_UNLOAD (R350). -/
  | codeUnload (part handle : Nat)
  /-- CODE_UNLOAD_FORCE (R350). -/
  | codeUnloadForce (part handle : Nat)
  /-- REGISTER_WRITE (R354). -/
  | registerWrite (off n : Nat) (value : BitVec 64)
  /-- HOST_BAR2_ACCESS (R356). -/
  | hostBar2Access (fn off n : Nat) (data : Option (BitVec 64))
  /-- TARN_LANE_FAIL (R370). -/
  | tarnLaneFail (link : Nat)
  /-- POD_TIME_SYNC (R360). -/
  | podTimeSync (time : BitVec 64)
  /-- HOTNESS_EPOCH_END (R278). -/
  | hotnessEpochEnd
  /-- PATROL_SCRUB (R280). -/
  | patrolScrub (addr : Nat)
  /-- ILLEGAL_INSTRUCTION_WORD (R66). -/
  | illegalInstructionWord (word : BitVec 32)
  /-- INSTRUCTION_FETCH_FAULT (R103). -/
  | instructionFetchFault
  /-- ACCESS_PERFORMED (R244). -/
  | accessPerformed (core : Nat)
  /-- STRM_LINE_EVICTION (R250). -/
  | strmLineEviction (core line : Nat)
  /-- MIXTRAP_RECORD_DROP (R254). -/
  | mixtrapRecordDrop (line : Nat)
  /-- SOFT_ERROR (R280). -/
  | softError (kind loc : Nat) (fatal : Bool)
  /-- ACCESS_FROM_ANOTHER_PACKAGE (R251). -/
  | accessFromAnotherPackage (addr n : Nat) (data : Option (BitVec 64))
  /-- TARN_LINK_LOSS (R360). -/
  | tarnLinkLoss (link : Nat)
  /-- TARN_LINK_TRAINING (R361). -/
  | tarnLinkTraining (link farPkg : Nat)
  deriving DecidableEq, Repr

end Sys2Proof
end

