-- ==== Sys2Proof/WellFormed.lean ====
section
/-! DEFINITION. Well-formed instructions: the checks on an instruction's own fields that R61 to R70 and the entries
make before anything of the machine is looked at. What depends on the state (a privilege, a tag, a control register
index) is checked by the instruction's meaning, in the order of R67. -/
namespace Sys2Proof

/-- An order code a load accepts: relaxed, acquire or sequentially consistent (R62). -/
def loadOrder (o : BitVec 2) : Bool := o != 2
/-- An order code a store accepts: relaxed, release or sequentially consistent (R62). -/
def storeOrder (o : BitVec 2) : Bool := o != 1

/-- The relaxed code of OS5 (R63). -/
def os5Relaxed (o : BitVec 5) : Bool := o == 7
/-- An ordered OS5 code that is not reserved: a scope, and sequential consistency only up to the package (R63). -/
def os5Ordered (o : BitVec 5) : Bool :=
  o.extractLsb' 0 3 != 7 && (o.extractLsb' 3 2 != 3 || (o.extractLsb' 0 3).toNat ≤ 4)
/-- Every code an AMO accepts (R63). -/
def os5Any (o : BitVec 5) : Bool := os5Relaxed o || os5Ordered o
/-- Relaxed, acquire or sequentially consistent: a scoped load (R63). -/
def os5Load (o : BitVec 5) : Bool :=
  os5Relaxed o || (os5Ordered o && (o.extractLsb' 3 2 == 0 || o.extractLsb' 3 2 == 3))
/-- Relaxed, release or sequentially consistent: a scoped store (R63). -/
def os5Store (o : BitVec 5) : Bool :=
  os5Relaxed o || (os5Ordered o && (o.extractLsb' 3 2 == 1 || o.extractLsb' 3 2 == 3))
/-- Relaxed or acquire: LEASE and LEASE.N (R63). -/
def os5Acquire (o : BitVec 5) : Bool := os5Relaxed o || (os5Ordered o && o.extractLsb' 3 2 == 0)
/-- Relaxed or release: LEND (R63). -/
def os5Release (o : BitVec 5) : Bool := os5Relaxed o || (os5Ordered o && o.extractLsb' 3 2 == 1)

/-- The scopes of a barrier: quad to pod (R68, R185). -/
def barScope (s : BitVec 3) : Bool := 1 ≤ s.toNat && s.toNat ≤ 5
/-- The operation codes of the ALU (R86). -/
def aluCode (n : Nat) : Bool :=
  n ≤ 0x0D || n == 0x10 || n == 0x11 || n == 0x15 || n == 0x16 || n == 0x17
/-- The rounding codes of a conversion (R69). -/
def roundCode (r : BitVec 3) : Bool := r.toNat ≤ 4 || r == 7
/-- The codes major 0x29 takes from the integer table; a compare names m1 to m7 (R122, R69). -/
def intScalarCode (d : BitVec 5) (p : Nat) : Bool :=
  p ≤ 0x17 || (0x20 ≤ p && p ≤ 0x25 && 1 ≤ d.toNat && d.toNat ≤ 7) || p == 0x28 || p == 0x29
/-- The codes major 0x29 takes from the float table; a compare names m1 to m7 (R122, R69). -/
def floatScalarCode (d : BitVec 5) (p : Nat) : Bool :=
  p ≤ 0x0A || (0x20 ≤ p && p ≤ 0x23 && 1 ≤ d.toNat && d.toNat ≤ 7)

/-- The checks an instruction's own fields must pass (R61 to R70 and the entries). -/
def Instr.wf : Instr → Bool
  | .add _ _ _ _ => true
  | .sub _ _ _ _ => true
  | .and _ _ _ _ => true
  | .or _ _ _ _ => true
  | .xor _ _ _ _ => true
  | .sll _ _ _ _ => true
  | .srl _ _ _ _ => true
  | .sra _ _ _ _ => true
  | .slt _ _ _ _ => true
  | .sltn _ _ _ _ => true
  | .min _ _ _ _ => true
  | .max _ _ _ _ => true
  | .minn _ _ _ _ => true
  | .maxn _ _ _ _ => true
  | .addw _ _ _ _ => true
  | .subw _ _ _ _ => true
  | .sllw _ _ _ _ => true
  | .srlw _ _ _ _ => true
  | .sraw _ _ _ _ => true
  | .aluH _ _ _ _ p => aluCode p.toNat
  | .addiH _ _ _ _ => true
  | .andiH _ _ _ _ => true
  | .oriH _ _ _ _ => true
  | .xoriH _ _ _ _ => true
  | .addi _ _ _ _ => true
  | .andi _ _ _ _ => true
  | .ori _ _ _ _ => true
  | .xori _ _ _ _ => true
  | .slti _ _ _ _ => true
  | .sltni _ _ _ _ => true
  | .addiL _ _ _ _ => true
  | .slli _ _ _ _ => true
  | .srli _ _ _ _ => true
  | .srai _ _ _ _ => true
  | .slliw _ _ _ _ => true
  | .srliw _ _ _ _ => true
  | .sraiw _ _ _ _ => true
  | .rori _ _ _ _ => true
  | .lui _ _ _ => true
  | .addpc _ _ _ => true
  | .addpcL _ _ _ => true
  | .mul _ _ _ _ => true
  | .mulh _ _ _ _ => true
  | .mulhn _ _ _ _ => true
  | .mulhsn _ _ _ _ => true
  | .div _ _ _ _ => true
  | .divn _ _ _ _ => true
  | .rem _ _ _ _ => true
  | .remn _ _ _ _ => true
  | .mulw _ _ _ _ => true
  | .divw _ _ _ _ => true
  | .divnw _ _ _ _ => true
  | .remw _ _ _ _ => true
  | .remnw _ _ _ _ => true
  | .clz _ _ _ => true
  | .ctz _ _ _ => true
  | .popc _ _ _ => true
  | .brev _ _ _ => true
  | .bswap _ _ _ => true
  | .rol _ _ _ _ => true
  | .ror _ _ _ _ => true
  | .sextb _ _ _ => true
  | .sexth _ _ _ => true
  | .sextw _ _ _ => true
  | .zextw _ _ _ => true
  | .bext _ _ _ _ => true
  | .bdep _ _ _ _ => true
  | .clzw _ _ _ => true
  | .ctzw _ _ _ => true
  | .popcw _ _ _ => true
  | .tid _ _ => true
  | .place _ _ => true
  | .lsize _ _ => true
  | .lb _ _ _ o _ => loadOrder o
  | .lh _ _ _ o _ => loadOrder o
  | .lw _ _ _ o _ => loadOrder o
  | .ld _ _ _ o _ => loadOrder o
  | .lbn _ _ _ o _ => loadOrder o
  | .lhn _ _ _ o _ => loadOrder o
  | .lwn _ _ _ o _ => loadOrder o
  | .sb _ o _ _ _ => storeOrder o
  | .sh _ o _ _ _ => storeOrder o
  | .sw _ o _ _ _ => storeOrder o
  | .sd _ o _ _ _ => storeOrder o
  | .loadScoped _ _ _ s o => s != 7 && os5Load o
  | .storeScoped _ _ _ _ o => os5Store o
  | .beq _ _ _ _ => true
  | .bne _ _ _ _ => true
  | .blt _ _ _ _ => true
  | .bge _ _ _ _ => true
  | .bltn _ _ _ _ => true
  | .bgen _ _ _ _ => true
  | .call _ _ _ => true
  | .callr _ _ _ _ => true
  | .amoadd _ _ _ _ _ o => os5Any o
  | .amoand _ _ _ _ _ o => os5Any o
  | .amoor _ _ _ _ _ o => os5Any o
  | .amoxor _ _ _ _ _ o => os5Any o
  | .amomin _ _ _ _ _ o => os5Any o
  | .amomax _ _ _ _ _ o => os5Any o
  | .amominn _ _ _ _ _ o => os5Any o
  | .amomaxn _ _ _ _ _ o => os5Any o
  | .amoswap _ _ _ _ _ o => os5Any o
  | .cas _ _ _ _ _ o => os5Any o
  | .amofadd _ _ _ _ _ o => os5Any o
  | .casQ _ _ _ _ o => os5Any o
  | .lease _ _ _ o => os5Acquire o
  | .leaseN _ _ _ _ o => os5Acquire o
  | .lend _ _ o => os5Release o
  | .fence _ k s => k != 0 && s != 7
  | .bar _ _ s => barScope s
  | .bara _ _ s => barScope s
  | .barw _ _ s => barScope s
  | .claim _ _ _ _ => true
  | .vwait _ _ _ _ _ c => c.toNat < 6
  | .vwaitT _ _ _ _ _ c => c.toNat < 6
  | .wfe _ => true
  | .wake _ _ => true
  | .vcfg _ d t g => 1 ≤ t.toNat && t.toNat ≤ 0x12 && d.toNat % 2 ^ g.toNat == 0
  | .vgrant _ _ _ _ => true
  | .vmv _ _ _ _ => true
  | .vsplat _ _ _ _ => true
  | .vget _ _ _ _ => true
  | .vput _ _ _ _ => true
  | .vmovr _ _ _ _ => true
  | .vmovw _ _ _ _ => true
  | .vtag _ _ _ => true
  | .vadd _ _ _ _ _ => true
  | .vsub _ _ _ _ _ => true
  | .vmul _ _ _ _ _ => true
  | .vmulh _ _ _ _ _ => true
  | .vmulhn _ _ _ _ _ => true
  | .vmadd _ _ _ _ _ => true
  | .vdiv _ _ _ _ _ => true
  | .vdivn _ _ _ _ _ => true
  | .vrem _ _ _ _ _ => true
  | .vremn _ _ _ _ _ => true
  | .vand _ _ _ _ _ => true
  | .vor _ _ _ _ _ => true
  | .vxor _ _ _ _ _ => true
  | .vsll _ _ _ _ _ => true
  | .vsrl _ _ _ _ _ => true
  | .vsra _ _ _ _ _ => true
  | .vmin _ _ _ _ _ => true
  | .vmax _ _ _ _ _ => true
  | .vminn _ _ _ _ _ => true
  | .vmaxn _ _ _ _ _ => true
  | .vsadd _ _ _ _ _ => true
  | .vsaddn _ _ _ _ _ => true
  | .vssub _ _ _ _ _ => true
  | .vssubn _ _ _ _ _ => true
  | .vabs _ _ _ _ => true
  | .vcmpeq _ d _ _ _ => d != 0
  | .vcmpne _ d _ _ _ => d != 0
  | .vcmplt _ d _ _ _ => d != 0
  | .vcmpge _ d _ _ _ => d != 0
  | .vcmpltn _ d _ _ _ => d != 0
  | .vcmpgen _ d _ _ _ => d != 0
  | .vwadd _ _ _ _ _ => true
  | .vwmul _ _ _ _ _ => true
  | .vfadd _ _ _ _ _ => true
  | .vfsub _ _ _ _ _ => true
  | .vfmul _ _ _ _ _ => true
  | .vfdiv _ _ _ _ _ => true
  | .vfma _ _ _ _ _ => true
  | .vfms _ _ _ _ _ => true
  | .vfnma _ _ _ _ _ => true
  | .vfmin _ _ _ _ _ => true
  | .vfmax _ _ _ _ _ => true
  | .vfsgnj _ _ _ _ _ => true
  | .vfsgnjn _ _ _ _ _ => true
  | .vfsqrt _ _ _ _ => true
  | .vfrcp _ _ _ _ => true
  | .vfrsqrt _ _ _ _ => true
  | .vfexp2 _ _ _ _ => true
  | .vflog2 _ _ _ _ => true
  | .vfabs _ _ _ _ => true
  | .vfneg _ _ _ _ => true
  | .vfclass _ _ _ _ => true
  | .vfcmpeq _ d _ _ _ => d != 0
  | .vfcmplt _ d _ _ _ => d != 0
  | .vfcmple _ d _ _ _ => d != 0
  | .vfcmpun _ d _ _ _ => d != 0
  | .vintG _ d _ _ _ p => intScalarCode d p.toNat
  | .vfloatG _ d _ _ _ p => floatScalarCode d p.toNat
  | .vcvt _ _ _ _ r => roundCode r
  | .vcvtSat _ _ _ _ r => roundCode r
  | .vcvtSc _ _ _ _ _ r => roundCode r
  | .vcvtDs _ _ _ _ r => roundCode r
  | .vshift _ _ _ _ _ => true
  | .vrot _ _ _ _ _ => true
  | .vfeedlo _ _ _ _ _ => true
  | .vfeedhi _ _ _ _ _ => true
  | .vpick _ _ _ _ _ => true
  | .vpack _ _ _ _ => true
  | .vspread _ _ _ _ => true
  | .vscanadd _ _ _ _ _ => true
  | .vscanmin _ _ _ _ _ => true
  | .vscanmax _ _ _ _ _ => true
  | .vfscanadd _ _ _ _ _ => true
  | .vredsum _ _ _ _ _ => true
  | .vredmin _ _ _ _ _ => true
  | .vredmax _ _ _ _ _ => true
  | .vredminn _ _ _ _ _ => true
  | .vredmaxn _ _ _ _ _ => true
  | .vredand _ _ _ _ _ => true
  | .vredor _ _ _ _ _ => true
  | .vredxor _ _ _ _ _ => true
  | .vfredsum _ _ _ _ _ => true
  | .vfredmin _ _ _ _ _ => true
  | .vfredmax _ _ _ _ _ => true
  | .mbound _ d _ b => d != 0 && b.toNat < 5
  | .mand _ d _ _ => d != 0
  | .mor _ d _ _ => d != 0
  | .mxor _ d _ _ => d != 0
  | .mandn _ d _ _ => d != 0
  | .mnot _ d _ => d != 0
  | .mmv _ d _ => d != 0
  | .mcnt _ _ _ => true
  | .mfirst _ _ _ => true
  | .mfromv _ d _ => d != 0
  | .mtov _ _ _ => true
  | .mpush _ _ => true
  | .melse _ => true
  | .mpop _ => true
  | .vld _ _ _ _ => true
  | .vlds _ _ _ _ _ => true
  | .vldx _ _ _ _ _ => true
  | .vst _ _ _ _ => true
  | .vsts _ _ _ _ _ => true
  | .vstx _ _ _ _ _ => true
  | .gld _ _ _ _ _ => true
  | .scs _ _ _ _ m => m != 0
  | .vamoadd _ _ _ _ _ => true
  | .vamoand _ _ _ _ _ => true
  | .vamoor _ _ _ _ _ => true
  | .vamoxor _ _ _ _ _ => true
  | .vamomin _ _ _ _ _ => true
  | .vamomax _ _ _ _ _ => true
  | .vamominn _ _ _ _ _ => true
  | .vamomaxn _ _ _ _ _ => true
  | .vamofadd _ _ _ _ _ => true
  | .mgang _ => true
  | .mmaVreg _ _ _ _ _ => true
  | .mmaScratch _ _ _ _ _ => true
  | .mmaDownconv _ s t _ _ => s != t
  | .mmaSlideVreg _ _ _ _ _ => true
  | .mmaSlideScratch _ _ _ _ _ => true
  | .mst _ _ _ _ => true
  | .mwait _ => true
  | .mzero _ _ => true
  | .mrd _ _ _ _ => true
  | .mwr _ _ _ _ => true
  | .mcvt _ _ _ _ => true
  | .sampleNear _ _ _ _ _ => true
  | .sampleBil _ _ _ _ _ => true
  | .sampleTri _ _ _ _ _ => true
  | .boxtest _ _ _ _ m => m != 0
  | .tritest _ _ _ _ m => m != 0
  | .partition _ _ _ _ m => m != 0
  | .marchRecord _ _ _ b _ => b.extractLsb' 0 3 == 0
  | .marchAcc _ _ _ b _ => b.extractLsb' 0 3 == 0
  | .marchLocate _ _ _ b _ => b.extractLsb' 0 3 == 0
  | .qpushTile _ _ _ _ => true
  | .qpushBlend _ _ _ _ => true
  | .qpushMesh _ _ _ _ => true
  | .copy _ _ => true
  | .fill _ _ => true
  | .coll _ _ => true
  | .qfence _ s => s != 0
  | .qwait _ _ q => q.toNat < 5
  | .qstat _ _ q => q.toNat < 5
  | .mfs _ _ _ => true
  | .mts _ _ _ => true
  | .svc _ _ => true
  | .trap _ _ => true
  | .brk _ => true
  | .yield _ => true
  | .halt _ => true
  | .timewait _ _ => true
  | .tres _ _ _ _ => true
  | .ctxsave _ _ _ _ => true
  | .ctxload _ _ _ _ => true
  | .tlbinvPage _ _ _ => true
  | .tlbinvPartition _ _ _ => true
  | .slotctlHold _ _ _ => true
  | .slotctlRelease _ _ _ => true
  | .slotctlKill _ _ _ => true
  | .slotctlDebug _ _ _ => true
  | .slotctlPool _ _ _ => true
  | .wakepThread _ _ => true
  | .wakepAgent _ _ => true
  | .vectorSequencerStart _ => true
  | .longLatencyResultLand _ _ => true
  | .trapRecordDeferredWrite _ => true
  | .springDispatch _ => true
  | .gangJoinRelease _ _ => true
  | .gangOpStart _ => true
  | .gangKstepEnd _ => true
  | .gangOpComplete _ => true
  | .mstDrainStart _ => true
  | .mstComplete _ => true
  | .leaseHomeRecord _ => true
  | .leaseExpire _ => true
  | .vwaitPass _ => true
  | .vwaitTimeout _ => true
  | .barrierRelease _ => true
  | .timewaitEnd _ => true
  | .scPerform => true
  | .copyEngineEntry _ => true
  | .engineEntryComplete _ => true
  | .collMatch _ => true
  | .marchEntryTake _ => true
  | .marchStep _ _ _ => true
  | .marchEntryComplete _ _ => true
  | .meshTri _ _ => true
  | .meshEnd _ _ => true
  | .tileJob _ _ => true
  | .tileMark _ _ => true
  | .binRender _ => true
  | .tileSpill _ => true
  | .fragmentWrite _ => true
  | .tileWriteback _ _ => true
  | .blendOrdered _ _ => true
  | .blendApply _ _ => true
  | .blendDirect _ _ => true
  | .frameDone _ => true
  | .frameUnbind _ => true
  | .doorbell _ _ _ => true
  | .packetNop _ _ => true
  | .packetLaunch _ _ => true
  | .packetBarrier _ _ => true
  | .packetCopy _ _ => true
  | .packetSignal _ _ => true
  | .packetFrame _ _ => true
  | .barrierEvaluate _ _ => true
  | .launchDispatch _ => true
  | .launchComplete _ => true
  | .preemption _ => true
  | .queueReset _ _ => true
  | .engineReset _ _ _ => true
  | .resetPartition _ => true
  | .resetDie _ => true
  | .dieResetReturn _ => true
  | .resetFunction _ => true
  | .resetDevice => true
  | .powerUp => true
  | .seal => true
  | .sealComplete => true
  | .restore => true
  | .thermalTrip => true
  | .powerLimitThrottle => true
  | .mboxReport => true
  | .mboxCert => true
  | .mboxLifecycle => true
  | .mboxLoadspring => true
  | .mboxKeyxfer => true
  | .mboxKeyrecv => true
  | .codeLoad _ _ => true
  | .codeUnload _ _ => true
  | .codeUnloadForce _ _ => true
  | .registerWrite _ _ _ => true
  | .hostBar2Access _ _ _ _ => true
  | .tarnLaneFail _ => true
  | .podTimeSync _ => true
  | .hotnessEpochEnd => true
  | .patrolScrub _ => true
  | .illegalInstructionWord _ => true
  | .instructionFetchFault => true
  | .accessPerformed _ => true
  | .strmLineEviction _ _ => true
  | .mixtrapRecordDrop _ => true
  | .softError _ _ _ => true
  | .accessFromAnotherPackage _ _ _ => true
  | .tarnLinkLoss _ => true
  | .tarnLinkTraining _ _ => true

end Sys2Proof
end

