-- ==== Sys2Proof/Decode.lean ====
section
/-! DEFINITION. The decoder of Zillamon 3.2 and, after it, the encoder. A word is cut into the six fields that every
format of R59 shares; the sub-maps of R65 and R68 to R70 then name the instruction. A field that an entry does not use
must be 0 (R61). `decodeWord` also rejects every well-cut instruction that `Instr.wf` refuses. Definitions that build a late constructor of
`Instr` are marked noncomputable: Lean's code generator has no tag for a constructor with arguments past the 244th. The
kernel evaluates them all the same. -/
namespace Sys2Proof

/-- The fields of an instruction word (R59): W, the major opcode, the three register fields and the low ten bits. -/
structure Fields where
  w : Bool
  maj : BitVec 6
  d : BitVec 5
  a : BitVec 5
  b : BitVec 5
  fn : BitVec 10
  deriving DecidableEq, Repr

/-- The fields of a 32-bit word (R59). -/
def Fields.ofWord (x : BitVec 32) : Fields :=
  ⟨x.getLsbD 31, x.extractLsb' 25 6, x.extractLsb' 20 5, x.extractLsb' 15 5, x.extractLsb' 10 5, x.extractLsb' 0 10⟩

/-- The 32-bit word of the fields (R59). -/
def Fields.toWord (f : Fields) : BitVec 32 :=
  BitVec.ofBool f.w ++ f.maj ++ f.d ++ f.a ++ f.b ++ f.fn

/-- [6:0] of a VR or VM word. -/
def Fields.fn7 (f : Fields) : BitVec 7 := f.fn.extractLsb' 0 7
/-- [9:7], the mask field of a VR or VM word. -/
def Fields.mask (f : Fields) : BitVec 3 := f.fn.extractLsb' 7 3
/-- imm15 of RI. -/
def Fields.imm15 (f : Fields) : BitVec 15 := f.b ++ f.fn
/-- imm20 of UI, off20 of JL. -/
def Fields.imm20 (f : Fields) : BitVec 20 := f.a ++ f.b ++ f.fn
/-- off15 of BR. -/
def Fields.off15 (f : Fields) : BitVec 15 := f.d ++ f.fn

/-- Why a word is no instruction. Each of them ends in the illegal-instruction trap (R61, R66). -/
inductive Reject where
  /-- Major 0x00 (R65, R66). -/
  | permanentlyIllegal
  /-- A reserved major of R65. -/
  | reservedMajor
  /-- A one-word 0x32 (R65). -/
  | marchOneWord
  /-- A reserved sub-map value, or an unused field that is not 0 (R61, R66). -/
  | reservedField
  /-- The fields cut well and hold a value the instruction's entry refuses (`Instr.wf`). -/
  | illFormed
  /-- Fewer bytes than the instruction has. -/
  | truncated
  deriving DecidableEq, Repr

/-- Major 0x01 with fn10[9] = 1, the .h forms (R87). -/
def decodeH (f : Fields) : Option Instr :=
  match (f.fn.extractLsb' 6 3).toNat with
  | 4 => some (.addiH f.w f.d f.a (f.b ++ f.fn.extractLsb' 0 6))
  | 5 => some (.andiH f.w f.d f.a (f.b ++ f.fn.extractLsb' 0 6))
  | 6 => some (.oriH f.w f.d f.a (f.b ++ f.fn.extractLsb' 0 6))
  | 7 => some (.xoriH f.w f.d f.a (f.b ++ f.fn.extractLsb' 0 6))
  | _ => some (.aluH f.w f.d f.a f.b (f.fn.extractLsb' 0 8))

/-- Major 0x3A with imm15[14:12] = 0b010 (R68, R223). -/
noncomputable def decodeSys (f : Fields) : Option Instr :=
  match (f.b.extractLsb' 0 2 ++ f.fn).toNat with
  | 0x000 => if f.d = 0 then some (.svc f.w f.a) else none
  | 0x001 => if f.d = 0 then some (.trap f.w f.a) else none
  | 0x002 => if f.d = 0 ∧ f.a = 0 then some (.brk f.w) else none
  | 0x003 => if f.d = 0 ∧ f.a = 0 then some (.yield f.w) else none
  | 0x004 => if f.d = 0 ∧ f.a = 0 then some (.halt f.w) else none
  | 0x005 => if f.d = 0 then some (.timewait f.w f.a) else none
  | _ => none

/-- Major 0x01 (R68 to R70). -/
def decodeAlu (f : Fields) : Option Instr :=
  if f.fn.extractLsb' 9 1 = 1 then decodeH f else
  match f.fn.toNat with
  | 0x000 => some (.add f.w f.d f.a f.b)
  | 0x001 => some (.sub f.w f.d f.a f.b)
  | 0x002 => some (.and f.w f.d f.a f.b)
  | 0x003 => some (.or f.w f.d f.a f.b)
  | 0x004 => some (.xor f.w f.d f.a f.b)
  | 0x005 => some (.sll f.w f.d f.a f.b)
  | 0x006 => some (.srl f.w f.d f.a f.b)
  | 0x007 => some (.sra f.w f.d f.a f.b)
  | 0x008 => some (.slt f.w f.d f.a f.b)
  | 0x009 => some (.sltn f.w f.d f.a f.b)
  | 0x00A => some (.min f.w f.d f.a f.b)
  | 0x00B => some (.max f.w f.d f.a f.b)
  | 0x00C => some (.minn f.w f.d f.a f.b)
  | 0x00D => some (.maxn f.w f.d f.a f.b)
  | 0x010 => some (.addw f.w f.d f.a f.b)
  | 0x011 => some (.subw f.w f.d f.a f.b)
  | 0x015 => some (.sllw f.w f.d f.a f.b)
  | 0x016 => some (.srlw f.w f.d f.a f.b)
  | 0x017 => some (.sraw f.w f.d f.a f.b)
  | _ => none

/-- Major 0x06 (R68 to R70). -/
def decodeShiftImm (f : Fields) : Option Instr :=
  match (f.imm15.extractLsb' 6 9).toNat with
  | 0x000 => some (.slli f.w f.d f.a (f.fn.extractLsb' 0 6))
  | 0x040 => some (.srli f.w f.d f.a (f.fn.extractLsb' 0 6))
  | 0x080 => some (.srai f.w f.d f.a (f.fn.extractLsb' 0 6))
  | 0x0C0 => if f.fn.extractLsb' 5 1 = 0 then some (.slliw f.w f.d f.a (f.fn.extractLsb' 0 5)) else none
  | 0x100 => if f.fn.extractLsb' 5 1 = 0 then some (.srliw f.w f.d f.a (f.fn.extractLsb' 0 5)) else none
  | 0x140 => if f.fn.extractLsb' 5 1 = 0 then some (.sraiw f.w f.d f.a (f.fn.extractLsb' 0 5)) else none
  | 0x180 => some (.rori f.w f.d f.a (f.fn.extractLsb' 0 6))
  | _ => none

/-- Major 0x0B (R68 to R70). -/
def decodeMulDiv (f : Fields) : Option Instr :=
  match f.fn.toNat with
  | 0x000 => some (.mul f.w f.d f.a f.b)
  | 0x001 => some (.mulh f.w f.d f.a f.b)
  | 0x002 => some (.mulhn f.w f.d f.a f.b)
  | 0x003 => some (.mulhsn f.w f.d f.a f.b)
  | 0x004 => some (.div f.w f.d f.a f.b)
  | 0x005 => some (.divn f.w f.d f.a f.b)
  | 0x006 => some (.rem f.w f.d f.a f.b)
  | 0x007 => some (.remn f.w f.d f.a f.b)
  | 0x008 => some (.mulw f.w f.d f.a f.b)
  | 0x00C => some (.divw f.w f.d f.a f.b)
  | 0x00D => some (.divnw f.w f.d f.a f.b)
  | 0x00E => some (.remw f.w f.d f.a f.b)
  | 0x00F => some (.remnw f.w f.d f.a f.b)
  | _ => none

/-- Major 0x0C (R68 to R70). -/
def decodeBitOp (f : Fields) : Option Instr :=
  match f.fn.toNat with
  | 0x000 => if f.b = 0 then some (.clz f.w f.d f.a) else none
  | 0x001 => if f.b = 0 then some (.ctz f.w f.d f.a) else none
  | 0x002 => if f.b = 0 then some (.popc f.w f.d f.a) else none
  | 0x003 => if f.b = 0 then some (.brev f.w f.d f.a) else none
  | 0x004 => if f.b = 0 then some (.bswap f.w f.d f.a) else none
  | 0x007 => if f.b = 0 then some (.sextb f.w f.d f.a) else none
  | 0x008 => if f.b = 0 then some (.sexth f.w f.d f.a) else none
  | 0x009 => if f.b = 0 then some (.sextw f.w f.d f.a) else none
  | 0x00A => if f.b = 0 then some (.zextw f.w f.d f.a) else none
  | 0x010 => if f.b = 0 then some (.clzw f.w f.d f.a) else none
  | 0x011 => if f.b = 0 then some (.ctzw f.w f.d f.a) else none
  | 0x012 => if f.b = 0 then some (.popcw f.w f.d f.a) else none
  | 0x005 => some (.rol f.w f.d f.a f.b)
  | 0x006 => some (.ror f.w f.d f.a f.b)
  | 0x00B => some (.bext f.w f.d f.a f.b)
  | 0x00C => some (.bdep f.w f.d f.a f.b)
  | _ => none

/-- Major 0x10 (R68 to R70). -/
def decodeLoad (f : Fields) : Option Instr :=
  match (f.b.extractLsb' 2 3).toNat with
  | 0 => some (.lb f.w f.d f.a (f.b.extractLsb' 0 2) f.fn)
  | 1 => some (.lh f.w f.d f.a (f.b.extractLsb' 0 2) f.fn)
  | 2 => some (.lw f.w f.d f.a (f.b.extractLsb' 0 2) f.fn)
  | 3 => some (.ld f.w f.d f.a (f.b.extractLsb' 0 2) f.fn)
  | 4 => some (.lbn f.w f.d f.a (f.b.extractLsb' 0 2) f.fn)
  | 5 => some (.lhn f.w f.d f.a (f.b.extractLsb' 0 2) f.fn)
  | 6 => some (.lwn f.w f.d f.a (f.b.extractLsb' 0 2) f.fn)
  | _ => none

/-- Major 0x11 (R68 to R70). -/
def decodeStore (f : Fields) : Option Instr :=
  match (f.d.extractLsb' 2 3).toNat with
  | 0 => some (.sb f.w (f.d.extractLsb' 0 2) f.a f.b f.fn)
  | 1 => some (.sh f.w (f.d.extractLsb' 0 2) f.a f.b f.fn)
  | 2 => some (.sw f.w (f.d.extractLsb' 0 2) f.a f.b f.fn)
  | 3 => some (.sd f.w (f.d.extractLsb' 0 2) f.a f.b f.fn)
  | _ => none

/-- Major 0x12 (R68 to R70). -/
def decodeScoped (f : Fields) : Option Instr :=
  match (f.fn.extractLsb' 9 1).toNat with
  | 0 => if f.b = 0 ∧ f.fn.extractLsb' 5 1 = 0 then some (.loadScoped f.w f.d f.a (f.fn.extractLsb' 6 3) (f.fn.extractLsb' 0 5)) else none
  | 1 => if f.d = 0 ∧ f.fn.extractLsb' 8 1 = 0 ∧ f.fn.extractLsb' 5 1 = 0 then some (.storeScoped f.w f.a f.b (f.fn.extractLsb' 6 2) (f.fn.extractLsb' 0 5)) else none
  | _ => none

/-- Major 0x13 (R68 to R70). -/
def decodeAmo (f : Fields) : Option Instr :=
  match (f.fn.extractLsb' 6 4).toNat with
  | 0x0 => some (.amoadd f.w f.d f.a f.b (f.fn.extractLsb' 5 1) (f.fn.extractLsb' 0 5))
  | 0x1 => some (.amoand f.w f.d f.a f.b (f.fn.extractLsb' 5 1) (f.fn.extractLsb' 0 5))
  | 0x2 => some (.amoor f.w f.d f.a f.b (f.fn.extractLsb' 5 1) (f.fn.extractLsb' 0 5))
  | 0x3 => some (.amoxor f.w f.d f.a f.b (f.fn.extractLsb' 5 1) (f.fn.extractLsb' 0 5))
  | 0x4 => some (.amomin f.w f.d f.a f.b (f.fn.extractLsb' 5 1) (f.fn.extractLsb' 0 5))
  | 0x5 => some (.amomax f.w f.d f.a f.b (f.fn.extractLsb' 5 1) (f.fn.extractLsb' 0 5))
  | 0x6 => some (.amominn f.w f.d f.a f.b (f.fn.extractLsb' 5 1) (f.fn.extractLsb' 0 5))
  | 0x7 => some (.amomaxn f.w f.d f.a f.b (f.fn.extractLsb' 5 1) (f.fn.extractLsb' 0 5))
  | 0x8 => some (.amoswap f.w f.d f.a f.b (f.fn.extractLsb' 5 1) (f.fn.extractLsb' 0 5))
  | 0x9 => some (.cas f.w f.d f.a f.b (f.fn.extractLsb' 5 1) (f.fn.extractLsb' 0 5))
  | 0xA => some (.amofadd f.w f.d f.a f.b (f.fn.extractLsb' 5 1) (f.fn.extractLsb' 0 5))
  | 0xB => if f.d.extractLsb' 0 1 = 0 ∧ f.b.extractLsb' 0 1 = 0 ∧ (f.fn.extractLsb' 5 1) = 0 then some (.casQ f.w (f.d.extractLsb' 1 4) f.a (f.b.extractLsb' 1 4) (f.fn.extractLsb' 0 5)) else none
  | 0xC => if f.b = 0 ∧ (f.fn.extractLsb' 5 1) = 0 then some (.lease f.w f.d f.a (f.fn.extractLsb' 0 5)) else none
  | 0xD => if (f.fn.extractLsb' 5 1) = 0 then some (.leaseN f.w f.d f.a f.b (f.fn.extractLsb' 0 5)) else none
  | 0xE => if f.a = 0 ∧ f.b = 0 ∧ (f.fn.extractLsb' 5 1) = 0 then some (.lend f.w f.d (f.fn.extractLsb' 0 5)) else none
  | _ => none

/-- Major 0x14 (R68 to R70). -/
def decodeFence (f : Fields) : Option Instr :=
  match (f.fn.extractLsb' 7 3).toNat with
  | 0 => if f.d = 0 ∧ f.a = 0 ∧ f.b = 0 then some (.fence f.w (f.fn.extractLsb' 3 4) (f.fn.extractLsb' 0 3)) else none
  | 1 => if f.d = 0 ∧ f.a = 0 ∧ f.b = 0 then some (.bar f.w (f.fn.extractLsb' 3 4) (f.fn.extractLsb' 0 3)) else none
  | 2 => if f.d = 0 ∧ f.a = 0 ∧ f.b = 0 then some (.bara f.w (f.fn.extractLsb' 3 4) (f.fn.extractLsb' 0 3)) else none
  | 3 => if f.d = 0 ∧ f.a = 0 ∧ f.b = 0 then some (.barw f.w (f.fn.extractLsb' 3 4) (f.fn.extractLsb' 0 3)) else none
  | 4 => if f.fn.extractLsb' 0 7 = 0 then some (.claim f.w f.d f.a f.b) else none
  | _ => none

/-- Major 0x15 (R68 to R70). -/
def decodeWait (f : Fields) : Option Instr :=
  match (f.fn.extractLsb' 4 3).toNat with
  | 0 => some (.vwait f.w f.d f.a f.b f.mask (f.fn.extractLsb' 0 4))
  | 1 => some (.vwaitT f.w f.d f.a f.b f.mask (f.fn.extractLsb' 0 4))
  | 2 => if f.d = 0 ∧ f.a = 0 ∧ f.b = 0 ∧ f.mask = 0 ∧ f.fn.extractLsb' 0 4 = 0 then some (.wfe f.w) else none
  | 3 => if f.d = 0 ∧ f.b = 0 ∧ f.mask = 0 ∧ f.fn.extractLsb' 0 4 = 0 then some (.wake f.w f.a) else none
  | _ => none

/-- Major 0x20 (R68 to R70). -/
def decodeVConf (f : Fields) : Option Instr :=
  match f.fn7.toNat with
  | 0x00 => if f.b.extractLsb' 2 3 = 0 ∧ f.mask = 0 then some (.vcfg f.w f.d f.a (f.b.extractLsb' 0 2)) else none
  | 0x01 => if f.mask = 0 then some (.vgrant f.w f.d f.a f.b) else none
  | 0x02 => if f.b = 0 then some (.vmv f.w f.d f.a f.mask) else none
  | 0x03 => if f.b = 0 then some (.vsplat f.w f.d f.a f.mask) else none
  | 0x04 => if f.mask = 0 then some (.vget f.w f.d f.a f.b) else none
  | 0x05 => if f.mask = 0 then some (.vput f.w f.d f.a f.b) else none
  | 0x06 => if f.mask = 0 then some (.vmovr f.w f.d f.a f.b) else none
  | 0x07 => if f.mask = 0 then some (.vmovw f.w f.d f.a f.b) else none
  | 0x08 => if f.b = 0 ∧ f.mask = 0 then some (.vtag f.w f.d f.a) else none
  | _ => none

/-- Major 0x21 (R68 to R70). -/
def decodeVInt (f : Fields) : Option Instr :=
  match f.fn7.toNat with
  | 0x00 => some (.vadd f.w f.d f.a f.b f.mask)
  | 0x01 => some (.vsub f.w f.d f.a f.b f.mask)
  | 0x02 => some (.vmul f.w f.d f.a f.b f.mask)
  | 0x03 => some (.vmulh f.w f.d f.a f.b f.mask)
  | 0x04 => some (.vmulhn f.w f.d f.a f.b f.mask)
  | 0x05 => some (.vmadd f.w f.d f.a f.b f.mask)
  | 0x06 => some (.vdiv f.w f.d f.a f.b f.mask)
  | 0x07 => some (.vdivn f.w f.d f.a f.b f.mask)
  | 0x08 => some (.vrem f.w f.d f.a f.b f.mask)
  | 0x09 => some (.vremn f.w f.d f.a f.b f.mask)
  | 0x0A => some (.vand f.w f.d f.a f.b f.mask)
  | 0x0B => some (.vor f.w f.d f.a f.b f.mask)
  | 0x0C => some (.vxor f.w f.d f.a f.b f.mask)
  | 0x0D => some (.vsll f.w f.d f.a f.b f.mask)
  | 0x0E => some (.vsrl f.w f.d f.a f.b f.mask)
  | 0x0F => some (.vsra f.w f.d f.a f.b f.mask)
  | 0x10 => some (.vmin f.w f.d f.a f.b f.mask)
  | 0x11 => some (.vmax f.w f.d f.a f.b f.mask)
  | 0x12 => some (.vminn f.w f.d f.a f.b f.mask)
  | 0x13 => some (.vmaxn f.w f.d f.a f.b f.mask)
  | 0x14 => some (.vsadd f.w f.d f.a f.b f.mask)
  | 0x15 => some (.vsaddn f.w f.d f.a f.b f.mask)
  | 0x16 => some (.vssub f.w f.d f.a f.b f.mask)
  | 0x17 => some (.vssubn f.w f.d f.a f.b f.mask)
  | 0x28 => some (.vwadd f.w f.d f.a f.b f.mask)
  | 0x29 => some (.vwmul f.w f.d f.a f.b f.mask)
  | 0x18 => if f.b = 0 then some (.vabs f.w f.d f.a f.mask) else none
  | 0x20 => if f.d.extractLsb' 3 2 = 0 then some (.vcmpeq f.w (f.d.extractLsb' 0 3) f.a f.b f.mask) else none
  | 0x21 => if f.d.extractLsb' 3 2 = 0 then some (.vcmpne f.w (f.d.extractLsb' 0 3) f.a f.b f.mask) else none
  | 0x22 => if f.d.extractLsb' 3 2 = 0 then some (.vcmplt f.w (f.d.extractLsb' 0 3) f.a f.b f.mask) else none
  | 0x23 => if f.d.extractLsb' 3 2 = 0 then some (.vcmpge f.w (f.d.extractLsb' 0 3) f.a f.b f.mask) else none
  | 0x24 => if f.d.extractLsb' 3 2 = 0 then some (.vcmpltn f.w (f.d.extractLsb' 0 3) f.a f.b f.mask) else none
  | 0x25 => if f.d.extractLsb' 3 2 = 0 then some (.vcmpgen f.w (f.d.extractLsb' 0 3) f.a f.b f.mask) else none
  | _ => none

/-- Major 0x22 (R68 to R70). -/
def decodeVFloat (f : Fields) : Option Instr :=
  match f.fn7.toNat with
  | 0x00 => some (.vfadd f.w f.d f.a f.b f.mask)
  | 0x01 => some (.vfsub f.w f.d f.a f.b f.mask)
  | 0x02 => some (.vfmul f.w f.d f.a f.b f.mask)
  | 0x03 => some (.vfdiv f.w f.d f.a f.b f.mask)
  | 0x04 => some (.vfma f.w f.d f.a f.b f.mask)
  | 0x05 => some (.vfms f.w f.d f.a f.b f.mask)
  | 0x06 => some (.vfnma f.w f.d f.a f.b f.mask)
  | 0x07 => some (.vfmin f.w f.d f.a f.b f.mask)
  | 0x08 => some (.vfmax f.w f.d f.a f.b f.mask)
  | 0x09 => some (.vfsgnj f.w f.d f.a f.b f.mask)
  | 0x0A => some (.vfsgnjn f.w f.d f.a f.b f.mask)
  | 0x10 => if f.b = 0 then some (.vfsqrt f.w f.d f.a f.mask) else none
  | 0x11 => if f.b = 0 then some (.vfrcp f.w f.d f.a f.mask) else none
  | 0x12 => if f.b = 0 then some (.vfrsqrt f.w f.d f.a f.mask) else none
  | 0x13 => if f.b = 0 then some (.vfexp2 f.w f.d f.a f.mask) else none
  | 0x14 => if f.b = 0 then some (.vflog2 f.w f.d f.a f.mask) else none
  | 0x15 => if f.b = 0 then some (.vfabs f.w f.d f.a f.mask) else none
  | 0x16 => if f.b = 0 then some (.vfneg f.w f.d f.a f.mask) else none
  | 0x17 => if f.b = 0 then some (.vfclass f.w f.d f.a f.mask) else none
  | 0x20 => if f.d.extractLsb' 3 2 = 0 then some (.vfcmpeq f.w (f.d.extractLsb' 0 3) f.a f.b f.mask) else none
  | 0x21 => if f.d.extractLsb' 3 2 = 0 then some (.vfcmplt f.w (f.d.extractLsb' 0 3) f.a f.b f.mask) else none
  | 0x22 => if f.d.extractLsb' 3 2 = 0 then some (.vfcmple f.w (f.d.extractLsb' 0 3) f.a f.b f.mask) else none
  | 0x23 => if f.d.extractLsb' 3 2 = 0 then some (.vfcmpun f.w (f.d.extractLsb' 0 3) f.a f.b f.mask) else none
  | _ => none

/-- Major 0x23 (R68 to R70). -/
def decodeVCvt (f : Fields) : Option Instr :=
  match (f.fn.extractLsb' 3 4).toNat with
  | 0 => if f.b = 0 then some (.vcvt f.w f.d f.a f.mask (f.fn.extractLsb' 0 3)) else none
  | 1 => if f.b = 0 then some (.vcvtSat f.w f.d f.a f.mask (f.fn.extractLsb' 0 3)) else none
  | 2 => some (.vcvtSc f.w f.d f.a f.b f.mask (f.fn.extractLsb' 0 3))
  | 3 => if f.mask = 0 then some (.vcvtDs f.w f.d f.a f.b (f.fn.extractLsb' 0 3)) else none
  | _ => none

/-- Major 0x24 (R68 to R70). -/
def decodeVPerm (f : Fields) : Option Instr :=
  match f.fn7.toNat with
  | 0x00 => some (.vshift f.w f.d f.a f.b f.mask)
  | 0x01 => some (.vrot f.w f.d f.a f.b f.mask)
  | 0x02 => some (.vfeedlo f.w f.d f.a f.b f.mask)
  | 0x03 => some (.vfeedhi f.w f.d f.a f.b f.mask)
  | 0x04 => some (.vpick f.w f.d f.a f.b f.mask)
  | 0x08 => some (.vscanadd f.w f.d f.a f.b f.mask)
  | 0x09 => some (.vscanmin f.w f.d f.a f.b f.mask)
  | 0x0A => some (.vscanmax f.w f.d f.a f.b f.mask)
  | 0x0B => some (.vfscanadd f.w f.d f.a f.b f.mask)
  | 0x10 => some (.vredsum f.w f.d f.a f.b f.mask)
  | 0x11 => some (.vredmin f.w f.d f.a f.b f.mask)
  | 0x12 => some (.vredmax f.w f.d f.a f.b f.mask)
  | 0x13 => some (.vredminn f.w f.d f.a f.b f.mask)
  | 0x14 => some (.vredmaxn f.w f.d f.a f.b f.mask)
  | 0x15 => some (.vredand f.w f.d f.a f.b f.mask)
  | 0x16 => some (.vredor f.w f.d f.a f.b f.mask)
  | 0x17 => some (.vredxor f.w f.d f.a f.b f.mask)
  | 0x18 => some (.vfredsum f.w f.d f.a f.b f.mask)
  | 0x19 => some (.vfredmin f.w f.d f.a f.b f.mask)
  | 0x1A => some (.vfredmax f.w f.d f.a f.b f.mask)
  | 0x05 => if f.b = 0 then some (.vpack f.w f.d f.a f.mask) else none
  | 0x06 => if f.b = 0 then some (.vspread f.w f.d f.a f.mask) else none
  | _ => none

/-- Major 0x25 (R68 to R70). -/
def decodeVMask (f : Fields) : Option Instr :=
  match f.fn7.toNat with
  | 0x00 => if f.d.extractLsb' 3 2 = 0 ∧ f.mask = 0 then some (.mbound f.w (f.d.extractLsb' 0 3) f.a f.b) else none
  | 0x01 => if f.d.extractLsb' 3 2 = 0 ∧ f.a.extractLsb' 3 2 = 0 ∧ f.b.extractLsb' 3 2 = 0 ∧ f.mask = 0 then some (.mand f.w (f.d.extractLsb' 0 3) (f.a.extractLsb' 0 3) (f.b.extractLsb' 0 3)) else none
  | 0x02 => if f.d.extractLsb' 3 2 = 0 ∧ f.a.extractLsb' 3 2 = 0 ∧ f.b.extractLsb' 3 2 = 0 ∧ f.mask = 0 then some (.mor f.w (f.d.extractLsb' 0 3) (f.a.extractLsb' 0 3) (f.b.extractLsb' 0 3)) else none
  | 0x03 => if f.d.extractLsb' 3 2 = 0 ∧ f.a.extractLsb' 3 2 = 0 ∧ f.b.extractLsb' 3 2 = 0 ∧ f.mask = 0 then some (.mxor f.w (f.d.extractLsb' 0 3) (f.a.extractLsb' 0 3) (f.b.extractLsb' 0 3)) else none
  | 0x04 => if f.d.extractLsb' 3 2 = 0 ∧ f.a.extractLsb' 3 2 = 0 ∧ f.b.extractLsb' 3 2 = 0 ∧ f.mask = 0 then some (.mandn f.w (f.d.extractLsb' 0 3) (f.a.extractLsb' 0 3) (f.b.extractLsb' 0 3)) else none
  | 0x05 => if f.d.extractLsb' 3 2 = 0 ∧ f.a.extractLsb' 3 2 = 0 ∧ f.b = 0 ∧ f.mask = 0 then some (.mnot f.w (f.d.extractLsb' 0 3) (f.a.extractLsb' 0 3)) else none
  | 0x06 => if f.d.extractLsb' 3 2 = 0 ∧ f.a.extractLsb' 3 2 = 0 ∧ f.b = 0 ∧ f.mask = 0 then some (.mmv f.w (f.d.extractLsb' 0 3) (f.a.extractLsb' 0 3)) else none
  | 0x08 => if f.a.extractLsb' 3 2 = 0 ∧ f.b = 0 ∧ f.mask = 0 then some (.mcnt f.w f.d (f.a.extractLsb' 0 3)) else none
  | 0x09 => if f.a.extractLsb' 3 2 = 0 ∧ f.b = 0 ∧ f.mask = 0 then some (.mfirst f.w f.d (f.a.extractLsb' 0 3)) else none
  | 0x0B => if f.a.extractLsb' 3 2 = 0 ∧ f.b = 0 ∧ f.mask = 0 then some (.mtov f.w f.d (f.a.extractLsb' 0 3)) else none
  | 0x0A => if f.d.extractLsb' 3 2 = 0 ∧ f.b = 0 ∧ f.mask = 0 then some (.mfromv f.w (f.d.extractLsb' 0 3) f.a) else none
  | 0x10 => if f.a.extractLsb' 3 2 = 0 ∧ f.d = 0 ∧ f.b = 0 ∧ f.mask = 0 then some (.mpush f.w (f.a.extractLsb' 0 3)) else none
  | 0x11 => if f.d = 0 ∧ f.a = 0 ∧ f.b = 0 ∧ f.mask = 0 then some (.melse f.w) else none
  | 0x12 => if f.d = 0 ∧ f.a = 0 ∧ f.b = 0 ∧ f.mask = 0 then some (.mpop f.w) else none
  | _ => none

/-- Major 0x26 (R68 to R70). -/
def decodeVLoad (f : Fields) : Option Instr :=
  match f.fn7.toNat with
  | 0x00 => if f.b = 0 then some (.vld f.w f.d f.a f.mask) else none
  | 0x20 => some (.vlds f.w f.d f.a f.b f.mask)
  | 0x40 => some (.vldx f.w f.d f.a f.b f.mask)
  | _ => none

/-- Major 0x27 (R68 to R70). -/
def decodeVStore (f : Fields) : Option Instr :=
  match f.fn7.toNat with
  | 0x00 => if f.b = 0 then some (.vst f.w f.d f.a f.mask) else none
  | 0x20 => some (.vsts f.w f.d f.a f.b f.mask)
  | 0x40 => some (.vstx f.w f.d f.a f.b f.mask)
  | _ => none

/-- Major 0x28 (R68 to R70). -/
def decodeVLink (f : Fields) : Option Instr :=
  match f.fn7.toNat with
  | 0x00 => some (.gld f.w f.d f.a f.b f.mask)
  | 0x10 => some (.scs f.w f.d f.a f.b f.mask)
  | 0x20 => some (.vamoadd f.w f.d f.a f.b f.mask)
  | 0x21 => some (.vamoand f.w f.d f.a f.b f.mask)
  | 0x22 => some (.vamoor f.w f.d f.a f.b f.mask)
  | 0x23 => some (.vamoxor f.w f.d f.a f.b f.mask)
  | 0x24 => some (.vamomin f.w f.d f.a f.b f.mask)
  | 0x25 => some (.vamomax f.w f.d f.a f.b f.mask)
  | 0x26 => some (.vamominn f.w f.d f.a f.b f.mask)
  | 0x27 => some (.vamomaxn f.w f.d f.a f.b f.mask)
  | 0x28 => some (.vamofadd f.w f.d f.a f.b f.mask)
  | _ => none

/-- Major 0x29 (R68 to R70). -/
def decodeVScalar (f : Fields) : Option Instr :=
  match (f.fn.extractLsb' 6 1).toNat with
  | 0 => some (.vintG f.w f.d f.a f.b f.mask (f.fn.extractLsb' 0 6))
  | 1 => some (.vfloatG f.w f.d f.a f.b f.mask (f.fn.extractLsb' 0 6))
  | _ => none

/-- Major 0x2C (R68 to R70). -/
noncomputable def decodeMatrix (f : Fields) : Option Instr :=
  match (f.fn.extractLsb' 4 6).toNat with
  | 0x00 => if f.d = 0 ∧ f.a = 0 ∧ f.b = 0 ∧ f.fn = 0 then some (.mgang f.w) else none
  | 0x04 => if f.d.extractLsb' 1 4 = 0 then some (.mmaVreg f.w (f.d.extractLsb' 0 1) f.a f.b (f.fn.extractLsb' 0 4)) else none
  | 0x05 => if f.d.extractLsb' 1 4 = 0 then some (.mmaScratch f.w (f.d.extractLsb' 0 1) f.a f.b (f.fn.extractLsb' 0 4)) else none
  | 0x08 => if f.d.extractLsb' 1 4 = 0 then some (.mmaSlideVreg f.w (f.d.extractLsb' 0 1) f.a f.b (f.fn.extractLsb' 0 4)) else none
  | 0x09 => if f.d.extractLsb' 1 4 = 0 then some (.mmaSlideScratch f.w (f.d.extractLsb' 0 1) f.a f.b (f.fn.extractLsb' 0 4)) else none
  | 0x06 => if f.d.extractLsb' 1 4 = 0 ∧ f.a.extractLsb' 1 4 = 0 ∧ f.fn.extractLsb' 3 1 = 0 then some (.mmaDownconv f.w (f.d.extractLsb' 0 1) (f.a.extractLsb' 0 1) f.b (f.fn.extractLsb' 0 3)) else none
  | 0x0C => if f.d.extractLsb' 1 4 = 0 ∧ f.fn.extractLsb' 0 4 = 0 then some (.mst f.w (f.d.extractLsb' 0 1) f.a f.b) else none
  | 0x10 => if f.d = 0 ∧ f.a = 0 ∧ f.b = 0 ∧ f.fn.extractLsb' 0 4 = 0 then some (.mwait f.w) else none
  | _ => none

/-- Major 0x2D (R68 to R70). -/
noncomputable def decodeAcc (f : Fields) : Option Instr :=
  match f.fn.toNat with
  | 0x000 => if f.d.extractLsb' 1 4 = 0 ∧ f.a = 0 ∧ f.b = 0 then some (.mzero f.w (f.d.extractLsb' 0 1)) else none
  | 0x040 => if f.a.extractLsb' 1 4 = 0 then some (.mrd f.w f.d (f.a.extractLsb' 0 1) f.b) else none
  | 0x0C0 => if f.a.extractLsb' 1 4 = 0 then some (.mcvt f.w f.d (f.a.extractLsb' 0 1) f.b) else none
  | 0x080 => if f.d.extractLsb' 1 4 = 0 then some (.mwr f.w (f.d.extractLsb' 0 1) f.a f.b) else none
  | _ => none

/-- Major 0x30 (R68 to R70). -/
noncomputable def decodeSample (f : Fields) : Option Instr :=
  match f.fn7.toNat with
  | 0x00 => some (.sampleNear f.w f.d f.a f.b f.mask)
  | 0x20 => some (.sampleBil f.w f.d f.a f.b f.mask)
  | 0x40 => some (.sampleTri f.w f.d f.a f.b f.mask)
  | _ => none

/-- Major 0x31 (R68 to R70). -/
noncomputable def decodeBvh (f : Fields) : Option Instr :=
  match f.fn7.toNat with
  | 0x00 => if f.a.extractLsb' 0 1 = 0 then some (.boxtest f.w f.d (f.a.extractLsb' 1 4) f.b f.mask) else none
  | 0x01 => if f.a.extractLsb' 0 1 = 0 then some (.tritest f.w f.d (f.a.extractLsb' 1 4) f.b f.mask) else none
  | 0x02 => if f.a.extractLsb' 0 1 = 0 then some (.partition f.w f.d (f.a.extractLsb' 1 4) f.b f.mask) else none
  | _ => none

/-- Major 0x33 (R68 to R70). -/
noncomputable def decodeQPush (f : Fields) : Option Instr :=
  match (f.fn.extractLsb' 8 2).toNat with
  | 0 => if f.d = 0 ∧ f.fn.extractLsb' 0 7 = 0 then some (.qpushTile f.w f.a f.b (f.fn.extractLsb' 7 1)) else none
  | 1 => if f.d = 0 ∧ f.fn.extractLsb' 0 7 = 0 then some (.qpushBlend f.w f.a f.b (f.fn.extractLsb' 7 1)) else none
  | 2 => if f.d = 0 ∧ f.fn.extractLsb' 0 7 = 0 then some (.qpushMesh f.w f.a f.b (f.fn.extractLsb' 7 1)) else none
  | _ => none

/-- Major 0x38 (R68 to R70). -/
noncomputable def decodeEngine (f : Fields) : Option Instr :=
  match (f.fn.extractLsb' 5 5).toNat with
  | 0x00 => if f.d = 0 ∧ f.b = 0 ∧ f.fn.extractLsb' 0 5 = 0 then some (.copy f.w f.a) else none
  | 0x01 => if f.d = 0 ∧ f.b = 0 ∧ f.fn.extractLsb' 0 5 = 0 then some (.fill f.w f.a) else none
  | 0x02 => if f.d = 0 ∧ f.b = 0 ∧ f.fn.extractLsb' 0 5 = 0 then some (.coll f.w f.a) else none
  | 0x03 => if f.d = 0 ∧ f.a = 0 ∧ f.b = 0 then some (.qfence f.w (f.fn.extractLsb' 0 5)) else none
  | 0x04 => if f.a = 0 ∧ f.b = 0 ∧ f.fn.extractLsb' 3 2 = 0 then some (.qwait f.w f.d (f.fn.extractLsb' 0 3)) else none
  | 0x05 => if f.a = 0 ∧ f.b = 0 ∧ f.fn.extractLsb' 3 2 = 0 then some (.qstat f.w f.d (f.fn.extractLsb' 0 3)) else none
  | _ => none

/-- Major 0x39 (R68 to R70). -/
def decodeIdent (f : Fields) : Option Instr :=
  match f.fn.toNat with
  | 0x000 => if f.a = 0 ∧ f.b = 0 then some (.tid f.w f.d) else none
  | 0x001 => if f.a = 0 ∧ f.b = 0 then some (.place f.w f.d) else none
  | 0x002 => if f.a = 0 ∧ f.b = 0 then some (.lsize f.w f.d) else none
  | _ => none

/-- Major 0x3A (R68 to R70). -/
noncomputable def decodeCtl (f : Fields) : Option Instr :=
  match (f.b.extractLsb' 2 3).toNat with
  | 0 => if f.a = 0 then some (.mfs f.w f.d (f.b.extractLsb' 0 2 ++ f.fn)) else none
  | 1 => if f.d = 0 then some (.mts f.w f.a (f.b.extractLsb' 0 2 ++ f.fn)) else none
  | 2 => decodeSys f
  | _ => none

/-- Major 0x3B (R68 to R70). -/
noncomputable def decodeSup (f : Fields) : Option Instr :=
  match f.fn.toNat with
  | 0x000 => some (.tres f.w f.d f.a f.b)
  | 0x001 => some (.ctxsave f.w f.d f.a f.b)
  | 0x002 => some (.ctxload f.w f.d f.a f.b)
  | 0x003 => if f.d = 0 then some (.tlbinvPage f.w f.a f.b) else none
  | 0x004 => if f.d = 0 then some (.slotctlHold f.w f.a f.b) else none
  | 0x005 => if f.d = 0 ∧ f.b = 0 then some (.wakepThread f.w f.a) else none
  | _ => none

/-- Major 0x3F, the two-word forms, with the payload `p` (R70, R203). -/
noncomputable def decodeXl (f : Fields) (p : BitVec 32) : Option Instr :=
  if f.fn.extractLsb' 0 4 ≠ 0 then none else
  match (f.fn.extractLsb' 4 6).toNat with
  | 0x02 => if f.b = 0 then some (.addiL f.w f.d f.a p) else none
  | 0x0A => if f.a = 0 ∧ f.b = 0 then some (.addpcL f.w f.d p) else none
  | 0x32 =>
    if p.extractLsb' 0 27 ≠ 0 then none else
    match (p.extractLsb' 30 2).toNat with
    | 0 => some (.marchRecord f.w f.d f.a f.b (p.extractLsb' 27 3))
    | 1 => some (.marchAcc f.w f.d f.a f.b (p.extractLsb' 27 3))
    | 2 => some (.marchLocate f.w f.d f.a f.b (p.extractLsb' 27 3))
    | _ => none
  | _ => none

/-- The instruction the fields name, by major opcode (R65); `p` is the word after, which only XL reads. -/
noncomputable def decodeFields (f : Fields) (p : BitVec 32) : Option Instr :=
  match f.maj.toNat with
  | 0x01 => decodeAlu f
  | 0x02 => some (.addi f.w f.d f.a f.imm15)
  | 0x03 => some (.andi f.w f.d f.a f.imm15)
  | 0x04 => some (.ori f.w f.d f.a f.imm15)
  | 0x05 => some (.xori f.w f.d f.a f.imm15)
  | 0x06 => decodeShiftImm f
  | 0x07 => some (.slti f.w f.d f.a f.imm15)
  | 0x08 => some (.sltni f.w f.d f.a f.imm15)
  | 0x09 => some (.lui f.w f.d f.imm20)
  | 0x0A => some (.addpc f.w f.d f.imm20)
  | 0x0B => decodeMulDiv f
  | 0x0C => decodeBitOp f
  | 0x10 => decodeLoad f
  | 0x11 => decodeStore f
  | 0x12 => decodeScoped f
  | 0x13 => decodeAmo f
  | 0x14 => decodeFence f
  | 0x15 => decodeWait f
  | 0x18 => some (.beq f.w f.off15 f.a f.b)
  | 0x19 => some (.bne f.w f.off15 f.a f.b)
  | 0x1A => some (.blt f.w f.off15 f.a f.b)
  | 0x1B => some (.bge f.w f.off15 f.a f.b)
  | 0x1C => some (.bltn f.w f.off15 f.a f.b)
  | 0x1D => some (.bgen f.w f.off15 f.a f.b)
  | 0x1E => some (.call f.w f.d f.imm20)
  | 0x1F => some (.callr f.w f.d f.a f.imm15)
  | 0x20 => decodeVConf f
  | 0x21 => decodeVInt f
  | 0x22 => decodeVFloat f
  | 0x23 => decodeVCvt f
  | 0x24 => decodeVPerm f
  | 0x25 => decodeVMask f
  | 0x26 => decodeVLoad f
  | 0x27 => decodeVStore f
  | 0x28 => decodeVLink f
  | 0x29 => decodeVScalar f
  | 0x2C => decodeMatrix f
  | 0x2D => decodeAcc f
  | 0x30 => decodeSample f
  | 0x31 => decodeBvh f
  | 0x33 => decodeQPush f
  | 0x38 => decodeEngine f
  | 0x39 => decodeIdent f
  | 0x3A => decodeCtl f
  | 0x3B => decodeSup f
  | 0x3F => decodeXl f p
  | _ => none

/-- Whether a word is the first of a two-word instruction (R60). -/
def isXl (x : BitVec 32) : Bool := x.extractLsb' 25 6 == 0x3F#6

/-- The majors that R65 assigns to no instruction. -/
def reservedMajor (n : Nat) : Bool :=
  (0x0D ≤ n && n ≤ 0x0F) || n == 0x16 || n == 0x17 || n == 0x2A || n == 0x2B || n == 0x2E || n == 0x2F ||
  (0x34 ≤ n && n ≤ 0x37) || (0x3C ≤ n && n ≤ 0x3E)

/-- The decoder on a word and the word after it (R60 to R70): total, and it rejects by name. -/
noncomputable def decodeWord (x p : BitVec 32) : Except Reject Instr :=
  let f := Fields.ofWord x
  if f.maj.toNat = 0 then .error .permanentlyIllegal
  else if reservedMajor f.maj.toNat then .error .reservedMajor
  else if f.maj.toNat = 0x32 then .error .marchOneWord
  else match decodeFields f p with
    | none => .error .reservedField
    | some i => if i.wf then .ok i else .error .illFormed

/-- A little-endian word (R6, R59). -/
def wordOfBytes (b0 b1 b2 b3 : BitVec 8) : BitVec 32 := b3 ++ b2 ++ b1 ++ b0

/-- The decoder on bytes: the first instruction and the bytes after it. -/
noncomputable def decode (bs : List (BitVec 8)) : Except Reject (Instr × List (BitVec 8)) :=
  match bs with
  | b0 :: b1 :: b2 :: b3 :: rest =>
    let x := wordOfBytes b0 b1 b2 b3
    if isXl x then
      match rest with
      | c0 :: c1 :: c2 :: c3 :: rest' => (decodeWord x (wordOfBytes c0 c1 c2 c3)).map (·, rest')
      | _ => .error .truncated
    else (decodeWord x 0).map (·, rest)
  | _ => .error .truncated

/-- The bytes of a word, lowest address first (R6). -/
def bytesOfWord (x : BitVec 32) : List (BitVec 8) :=
  [x.extractLsb' 0 8, x.extractLsb' 8 8, x.extractLsb' 16 8, x.extractLsb' 24 8]

/-- What the decoder reads from an instruction whose bits are `w`, the first word in the low bits. -/
noncomputable def decodeTableWord (nbits w : Nat) : Option Instr :=
  let v := BitVec.ofNat 64 (w % 2 ^ nbits)
  match decode (bytesOfWord (v.extractLsb' 0 32) ++ bytesOfWord (v.extractLsb' 32 32)) with
  | .ok (i, _) => some i
  | .error _ => none

/-- [14:10] of a 15-bit immediate. -/
def hi15 (i : BitVec 15) : BitVec 5 := i.extractLsb' 10 5
/-- [19:15] of a 20-bit immediate. -/
def hi20 (i : BitVec 20) : BitVec 5 := i.extractLsb' 15 5
/-- [14:10] of a 20-bit immediate. -/
def mid20 (i : BitVec 20) : BitVec 5 := i.extractLsb' 10 5
/-- [11:10] of a control register index. -/
def hi12 (i : BitVec 12) : BitVec 2 := i.extractLsb' 10 2
/-- [9:0] of an immediate or index. -/
def lo10 {n : Nat} (i : BitVec n) : BitVec 10 := i.extractLsb' 0 10

/-- The fields of an instruction's first word, from the encoding tables of R59 and R68 to R70; none for a step that has
no encoding. -/
def Instr.fields : Instr → Option Fields
  | .add w d a b => some ⟨w, 0x01#6, d, a, b, 0x000#10⟩
  | .sub w d a b => some ⟨w, 0x01#6, d, a, b, 0x001#10⟩
  | .and w d a b => some ⟨w, 0x01#6, d, a, b, 0x002#10⟩
  | .or w d a b => some ⟨w, 0x01#6, d, a, b, 0x003#10⟩
  | .xor w d a b => some ⟨w, 0x01#6, d, a, b, 0x004#10⟩
  | .sll w d a b => some ⟨w, 0x01#6, d, a, b, 0x005#10⟩
  | .srl w d a b => some ⟨w, 0x01#6, d, a, b, 0x006#10⟩
  | .sra w d a b => some ⟨w, 0x01#6, d, a, b, 0x007#10⟩
  | .slt w d a b => some ⟨w, 0x01#6, d, a, b, 0x008#10⟩
  | .sltn w d a b => some ⟨w, 0x01#6, d, a, b, 0x009#10⟩
  | .min w d a b => some ⟨w, 0x01#6, d, a, b, 0x00A#10⟩
  | .max w d a b => some ⟨w, 0x01#6, d, a, b, 0x00B#10⟩
  | .minn w d a b => some ⟨w, 0x01#6, d, a, b, 0x00C#10⟩
  | .maxn w d a b => some ⟨w, 0x01#6, d, a, b, 0x00D#10⟩
  | .addw w d a b => some ⟨w, 0x01#6, d, a, b, 0x010#10⟩
  | .subw w d a b => some ⟨w, 0x01#6, d, a, b, 0x011#10⟩
  | .sllw w d a b => some ⟨w, 0x01#6, d, a, b, 0x015#10⟩
  | .srlw w d a b => some ⟨w, 0x01#6, d, a, b, 0x016#10⟩
  | .sraw w d a b => some ⟨w, 0x01#6, d, a, b, 0x017#10⟩
  | .aluH w d a b p => some ⟨w, 0x01#6, d, a, b, (2#2 ++ p)⟩
  | .addiH w d a i => some ⟨w, 0x01#6, d, a, (i.extractLsb' 6 5), (12#4 ++ i.extractLsb' 0 6)⟩
  | .andiH w d a i => some ⟨w, 0x01#6, d, a, (i.extractLsb' 6 5), (13#4 ++ i.extractLsb' 0 6)⟩
  | .oriH w d a i => some ⟨w, 0x01#6, d, a, (i.extractLsb' 6 5), (14#4 ++ i.extractLsb' 0 6)⟩
  | .xoriH w d a i => some ⟨w, 0x01#6, d, a, (i.extractLsb' 6 5), (15#4 ++ i.extractLsb' 0 6)⟩
  | .addi w d a i => some ⟨w, 0x02#6, d, a, (hi15 i), (lo10 i)⟩
  | .andi w d a i => some ⟨w, 0x03#6, d, a, (hi15 i), (lo10 i)⟩
  | .ori w d a i => some ⟨w, 0x04#6, d, a, (hi15 i), (lo10 i)⟩
  | .xori w d a i => some ⟨w, 0x05#6, d, a, (hi15 i), (lo10 i)⟩
  | .slti w d a i => some ⟨w, 0x07#6, d, a, (hi15 i), (lo10 i)⟩
  | .sltni w d a i => some ⟨w, 0x08#6, d, a, (hi15 i), (lo10 i)⟩
  | .addiL w d a _ => some ⟨w, 0x3F#6, d, a, 0#5, 0x020#10⟩
  | .slli w d a s => some ⟨w, 0x06#6, d, a, 0x00#5, (0#4 ++ s)⟩
  | .srli w d a s => some ⟨w, 0x06#6, d, a, 0x04#5, (0#4 ++ s)⟩
  | .srai w d a s => some ⟨w, 0x06#6, d, a, 0x08#5, (0#4 ++ s)⟩
  | .slliw w d a s => some ⟨w, 0x06#6, d, a, 0x0C#5, (0#5 ++ s)⟩
  | .srliw w d a s => some ⟨w, 0x06#6, d, a, 0x10#5, (0#5 ++ s)⟩
  | .sraiw w d a s => some ⟨w, 0x06#6, d, a, 0x14#5, (0#5 ++ s)⟩
  | .rori w d a s => some ⟨w, 0x06#6, d, a, 0x18#5, (0#4 ++ s)⟩
  | .lui w d i => some ⟨w, 0x09#6, d, (hi20 i), (mid20 i), (lo10 i)⟩
  | .addpc w d i => some ⟨w, 0x0A#6, d, (hi20 i), (mid20 i), (lo10 i)⟩
  | .addpcL w d _ => some ⟨w, 0x3F#6, d, 0#5, 0#5, 0x0A0#10⟩
  | .mul w d a b => some ⟨w, 0x0B#6, d, a, b, 0x000#10⟩
  | .mulh w d a b => some ⟨w, 0x0B#6, d, a, b, 0x001#10⟩
  | .mulhn w d a b => some ⟨w, 0x0B#6, d, a, b, 0x002#10⟩
  | .mulhsn w d a b => some ⟨w, 0x0B#6, d, a, b, 0x003#10⟩
  | .div w d a b => some ⟨w, 0x0B#6, d, a, b, 0x004#10⟩
  | .divn w d a b => some ⟨w, 0x0B#6, d, a, b, 0x005#10⟩
  | .rem w d a b => some ⟨w, 0x0B#6, d, a, b, 0x006#10⟩
  | .remn w d a b => some ⟨w, 0x0B#6, d, a, b, 0x007#10⟩
  | .mulw w d a b => some ⟨w, 0x0B#6, d, a, b, 0x008#10⟩
  | .divw w d a b => some ⟨w, 0x0B#6, d, a, b, 0x00C#10⟩
  | .divnw w d a b => some ⟨w, 0x0B#6, d, a, b, 0x00D#10⟩
  | .remw w d a b => some ⟨w, 0x0B#6, d, a, b, 0x00E#10⟩
  | .remnw w d a b => some ⟨w, 0x0B#6, d, a, b, 0x00F#10⟩
  | .clz w d a => some ⟨w, 0x0C#6, d, a, 0#5, 0x000#10⟩
  | .ctz w d a => some ⟨w, 0x0C#6, d, a, 0#5, 0x001#10⟩
  | .popc w d a => some ⟨w, 0x0C#6, d, a, 0#5, 0x002#10⟩
  | .brev w d a => some ⟨w, 0x0C#6, d, a, 0#5, 0x003#10⟩
  | .bswap w d a => some ⟨w, 0x0C#6, d, a, 0#5, 0x004#10⟩
  | .rol w d a b => some ⟨w, 0x0C#6, d, a, b, 0x005#10⟩
  | .ror w d a b => some ⟨w, 0x0C#6, d, a, b, 0x006#10⟩
  | .sextb w d a => some ⟨w, 0x0C#6, d, a, 0#5, 0x007#10⟩
  | .sexth w d a => some ⟨w, 0x0C#6, d, a, 0#5, 0x008#10⟩
  | .sextw w d a => some ⟨w, 0x0C#6, d, a, 0#5, 0x009#10⟩
  | .zextw w d a => some ⟨w, 0x0C#6, d, a, 0#5, 0x00A#10⟩
  | .bext w d a b => some ⟨w, 0x0C#6, d, a, b, 0x00B#10⟩
  | .bdep w d a b => some ⟨w, 0x0C#6, d, a, b, 0x00C#10⟩
  | .clzw w d a => some ⟨w, 0x0C#6, d, a, 0#5, 0x010#10⟩
  | .ctzw w d a => some ⟨w, 0x0C#6, d, a, 0#5, 0x011#10⟩
  | .popcw w d a => some ⟨w, 0x0C#6, d, a, 0#5, 0x012#10⟩
  | .tid w d => some ⟨w, 0x39#6, d, 0#5, 0#5, 0x000#10⟩
  | .place w d => some ⟨w, 0x39#6, d, 0#5, 0#5, 0x001#10⟩
  | .lsize w d => some ⟨w, 0x39#6, d, 0#5, 0#5, 0x002#10⟩
  | .lb w d a o i => some ⟨w, 0x10#6, d, a, (0#3 ++ o), i⟩
  | .lh w d a o i => some ⟨w, 0x10#6, d, a, (1#3 ++ o), i⟩
  | .lw w d a o i => some ⟨w, 0x10#6, d, a, (2#3 ++ o), i⟩
  | .ld w d a o i => some ⟨w, 0x10#6, d, a, (3#3 ++ o), i⟩
  | .lbn w d a o i => some ⟨w, 0x10#6, d, a, (4#3 ++ o), i⟩
  | .lhn w d a o i => some ⟨w, 0x10#6, d, a, (5#3 ++ o), i⟩
  | .lwn w d a o i => some ⟨w, 0x10#6, d, a, (6#3 ++ o), i⟩
  | .sb w o a b i => some ⟨w, 0x11#6, (0#3 ++ o), a, b, i⟩
  | .sh w o a b i => some ⟨w, 0x11#6, (1#3 ++ o), a, b, i⟩
  | .sw w o a b i => some ⟨w, 0x11#6, (2#3 ++ o), a, b, i⟩
  | .sd w o a b i => some ⟨w, 0x11#6, (3#3 ++ o), a, b, i⟩
  | .loadScoped w d a s o => some ⟨w, 0x12#6, d, a, 0#5, (0#1 ++ s ++ 0#1 ++ o)⟩
  | .storeScoped w a b s o => some ⟨w, 0x12#6, 0#5, a, b, (2#2 ++ s ++ 0#1 ++ o)⟩
  | .beq w o a b => some ⟨w, 0x18#6, (hi15 o), a, b, (lo10 o)⟩
  | .bne w o a b => some ⟨w, 0x19#6, (hi15 o), a, b, (lo10 o)⟩
  | .blt w o a b => some ⟨w, 0x1A#6, (hi15 o), a, b, (lo10 o)⟩
  | .bge w o a b => some ⟨w, 0x1B#6, (hi15 o), a, b, (lo10 o)⟩
  | .bltn w o a b => some ⟨w, 0x1C#6, (hi15 o), a, b, (lo10 o)⟩
  | .bgen w o a b => some ⟨w, 0x1D#6, (hi15 o), a, b, (lo10 o)⟩
  | .call w d o => some ⟨w, 0x1E#6, d, (hi20 o), (mid20 o), (lo10 o)⟩
  | .callr w d a i => some ⟨w, 0x1F#6, d, a, (hi15 i), (lo10 i)⟩
  | .amoadd w d a b z o => some ⟨w, 0x13#6, d, a, b, (0#4 ++ z ++ o)⟩
  | .amoand w d a b z o => some ⟨w, 0x13#6, d, a, b, (1#4 ++ z ++ o)⟩
  | .amoor w d a b z o => some ⟨w, 0x13#6, d, a, b, (2#4 ++ z ++ o)⟩
  | .amoxor w d a b z o => some ⟨w, 0x13#6, d, a, b, (3#4 ++ z ++ o)⟩
  | .amomin w d a b z o => some ⟨w, 0x13#6, d, a, b, (4#4 ++ z ++ o)⟩
  | .amomax w d a b z o => some ⟨w, 0x13#6, d, a, b, (5#4 ++ z ++ o)⟩
  | .amominn w d a b z o => some ⟨w, 0x13#6, d, a, b, (6#4 ++ z ++ o)⟩
  | .amomaxn w d a b z o => some ⟨w, 0x13#6, d, a, b, (7#4 ++ z ++ o)⟩
  | .amoswap w d a b z o => some ⟨w, 0x13#6, d, a, b, (8#4 ++ z ++ o)⟩
  | .cas w d a b z o => some ⟨w, 0x13#6, d, a, b, (9#4 ++ z ++ o)⟩
  | .amofadd w d a b z o => some ⟨w, 0x13#6, d, a, b, (10#4 ++ z ++ o)⟩
  | .casQ w d a b o => some ⟨w, 0x13#6, (d ++ 0#1), a, (b ++ 0#1), (11#4 ++ 0#1 ++ o)⟩
  | .lease w d a o => some ⟨w, 0x13#6, d, a, 0#5, (12#4 ++ 0#1 ++ o)⟩
  | .leaseN w d a b o => some ⟨w, 0x13#6, d, a, b, (13#4 ++ 0#1 ++ o)⟩
  | .lend w d o => some ⟨w, 0x13#6, d, 0#5, 0#5, (14#4 ++ 0#1 ++ o)⟩
  | .fence w k s => some ⟨w, 0x14#6, 0#5, 0#5, 0#5, (0#3 ++ k ++ s)⟩
  | .bar w n s => some ⟨w, 0x14#6, 0#5, 0#5, 0#5, (1#3 ++ n ++ s)⟩
  | .bara w n s => some ⟨w, 0x14#6, 0#5, 0#5, 0#5, (2#3 ++ n ++ s)⟩
  | .barw w n s => some ⟨w, 0x14#6, 0#5, 0#5, 0#5, (3#3 ++ n ++ s)⟩
  | .claim w d a b => some ⟨w, 0x14#6, d, a, b, 0x200#10⟩
  | .vwait w d a b m c => some ⟨w, 0x15#6, d, a, b, (m ++ 0#3 ++ c)⟩
  | .vwaitT w d a b m c => some ⟨w, 0x15#6, d, a, b, (m ++ 1#3 ++ c)⟩
  | .wfe w => some ⟨w, 0x15#6, 0#5, 0#5, 0#5, 0x020#10⟩
  | .wake w a => some ⟨w, 0x15#6, 0#5, a, 0#5, 0x030#10⟩
  | .vcfg w d t g => some ⟨w, 0x20#6, d, t, (0#3 ++ g), 0x000#10⟩
  | .vgrant w d a b => some ⟨w, 0x20#6, d, a, b, 0x001#10⟩
  | .vmv w d a m => some ⟨w, 0x20#6, d, a, 0#5, (m ++ 0x02#7)⟩
  | .vsplat w d a m => some ⟨w, 0x20#6, d, a, 0#5, (m ++ 0x03#7)⟩
  | .vget w d a b => some ⟨w, 0x20#6, d, a, b, 0x004#10⟩
  | .vput w d a b => some ⟨w, 0x20#6, d, a, b, 0x005#10⟩
  | .vmovr w d a k => some ⟨w, 0x20#6, d, a, k, 0x006#10⟩
  | .vmovw w d a k => some ⟨w, 0x20#6, d, a, k, 0x007#10⟩
  | .vtag w d a => some ⟨w, 0x20#6, d, a, 0#5, 0x008#10⟩
  | .vadd w d a b m => some ⟨w, 0x21#6, d, a, b, (m ++ 0x00#7)⟩
  | .vsub w d a b m => some ⟨w, 0x21#6, d, a, b, (m ++ 0x01#7)⟩
  | .vmul w d a b m => some ⟨w, 0x21#6, d, a, b, (m ++ 0x02#7)⟩
  | .vmulh w d a b m => some ⟨w, 0x21#6, d, a, b, (m ++ 0x03#7)⟩
  | .vmulhn w d a b m => some ⟨w, 0x21#6, d, a, b, (m ++ 0x04#7)⟩
  | .vmadd w d a b m => some ⟨w, 0x21#6, d, a, b, (m ++ 0x05#7)⟩
  | .vdiv w d a b m => some ⟨w, 0x21#6, d, a, b, (m ++ 0x06#7)⟩
  | .vdivn w d a b m => some ⟨w, 0x21#6, d, a, b, (m ++ 0x07#7)⟩
  | .vrem w d a b m => some ⟨w, 0x21#6, d, a, b, (m ++ 0x08#7)⟩
  | .vremn w d a b m => some ⟨w, 0x21#6, d, a, b, (m ++ 0x09#7)⟩
  | .vand w d a b m => some ⟨w, 0x21#6, d, a, b, (m ++ 0x0A#7)⟩
  | .vor w d a b m => some ⟨w, 0x21#6, d, a, b, (m ++ 0x0B#7)⟩
  | .vxor w d a b m => some ⟨w, 0x21#6, d, a, b, (m ++ 0x0C#7)⟩
  | .vsll w d a b m => some ⟨w, 0x21#6, d, a, b, (m ++ 0x0D#7)⟩
  | .vsrl w d a b m => some ⟨w, 0x21#6, d, a, b, (m ++ 0x0E#7)⟩
  | .vsra w d a b m => some ⟨w, 0x21#6, d, a, b, (m ++ 0x0F#7)⟩
  | .vmin w d a b m => some ⟨w, 0x21#6, d, a, b, (m ++ 0x10#7)⟩
  | .vmax w d a b m => some ⟨w, 0x21#6, d, a, b, (m ++ 0x11#7)⟩
  | .vminn w d a b m => some ⟨w, 0x21#6, d, a, b, (m ++ 0x12#7)⟩
  | .vmaxn w d a b m => some ⟨w, 0x21#6, d, a, b, (m ++ 0x13#7)⟩
  | .vsadd w d a b m => some ⟨w, 0x21#6, d, a, b, (m ++ 0x14#7)⟩
  | .vsaddn w d a b m => some ⟨w, 0x21#6, d, a, b, (m ++ 0x15#7)⟩
  | .vssub w d a b m => some ⟨w, 0x21#6, d, a, b, (m ++ 0x16#7)⟩
  | .vssubn w d a b m => some ⟨w, 0x21#6, d, a, b, (m ++ 0x17#7)⟩
  | .vabs w d a m => some ⟨w, 0x21#6, d, a, 0#5, (m ++ 0x18#7)⟩
  | .vcmpeq w d a b m => some ⟨w, 0x21#6, (0#2 ++ d), a, b, (m ++ 0x20#7)⟩
  | .vcmpne w d a b m => some ⟨w, 0x21#6, (0#2 ++ d), a, b, (m ++ 0x21#7)⟩
  | .vcmplt w d a b m => some ⟨w, 0x21#6, (0#2 ++ d), a, b, (m ++ 0x22#7)⟩
  | .vcmpge w d a b m => some ⟨w, 0x21#6, (0#2 ++ d), a, b, (m ++ 0x23#7)⟩
  | .vcmpltn w d a b m => some ⟨w, 0x21#6, (0#2 ++ d), a, b, (m ++ 0x24#7)⟩
  | .vcmpgen w d a b m => some ⟨w, 0x21#6, (0#2 ++ d), a, b, (m ++ 0x25#7)⟩
  | .vwadd w d a b m => some ⟨w, 0x21#6, d, a, b, (m ++ 0x28#7)⟩
  | .vwmul w d a b m => some ⟨w, 0x21#6, d, a, b, (m ++ 0x29#7)⟩
  | .vfadd w d a b m => some ⟨w, 0x22#6, d, a, b, (m ++ 0x00#7)⟩
  | .vfsub w d a b m => some ⟨w, 0x22#6, d, a, b, (m ++ 0x01#7)⟩
  | .vfmul w d a b m => some ⟨w, 0x22#6, d, a, b, (m ++ 0x02#7)⟩
  | .vfdiv w d a b m => some ⟨w, 0x22#6, d, a, b, (m ++ 0x03#7)⟩
  | .vfma w d a b m => some ⟨w, 0x22#6, d, a, b, (m ++ 0x04#7)⟩
  | .vfms w d a b m => some ⟨w, 0x22#6, d, a, b, (m ++ 0x05#7)⟩
  | .vfnma w d a b m => some ⟨w, 0x22#6, d, a, b, (m ++ 0x06#7)⟩
  | .vfmin w d a b m => some ⟨w, 0x22#6, d, a, b, (m ++ 0x07#7)⟩
  | .vfmax w d a b m => some ⟨w, 0x22#6, d, a, b, (m ++ 0x08#7)⟩
  | .vfsgnj w d a b m => some ⟨w, 0x22#6, d, a, b, (m ++ 0x09#7)⟩
  | .vfsgnjn w d a b m => some ⟨w, 0x22#6, d, a, b, (m ++ 0x0A#7)⟩
  | .vfsqrt w d a m => some ⟨w, 0x22#6, d, a, 0#5, (m ++ 0x10#7)⟩
  | .vfrcp w d a m => some ⟨w, 0x22#6, d, a, 0#5, (m ++ 0x11#7)⟩
  | .vfrsqrt w d a m => some ⟨w, 0x22#6, d, a, 0#5, (m ++ 0x12#7)⟩
  | .vfexp2 w d a m => some ⟨w, 0x22#6, d, a, 0#5, (m ++ 0x13#7)⟩
  | .vflog2 w d a m => some ⟨w, 0x22#6, d, a, 0#5, (m ++ 0x14#7)⟩
  | .vfabs w d a m => some ⟨w, 0x22#6, d, a, 0#5, (m ++ 0x15#7)⟩
  | .vfneg w d a m => some ⟨w, 0x22#6, d, a, 0#5, (m ++ 0x16#7)⟩
  | .vfclass w d a m => some ⟨w, 0x22#6, d, a, 0#5, (m ++ 0x17#7)⟩
  | .vfcmpeq w d a b m => some ⟨w, 0x22#6, (0#2 ++ d), a, b, (m ++ 0x20#7)⟩
  | .vfcmplt w d a b m => some ⟨w, 0x22#6, (0#2 ++ d), a, b, (m ++ 0x21#7)⟩
  | .vfcmple w d a b m => some ⟨w, 0x22#6, (0#2 ++ d), a, b, (m ++ 0x22#7)⟩
  | .vfcmpun w d a b m => some ⟨w, 0x22#6, (0#2 ++ d), a, b, (m ++ 0x23#7)⟩
  | .vintG w d a b m p => some ⟨w, 0x29#6, d, a, b, (m ++ 0#1 ++ p)⟩
  | .vfloatG w d a b m p => some ⟨w, 0x29#6, d, a, b, (m ++ 1#1 ++ p)⟩
  | .vcvt w d a m r => some ⟨w, 0x23#6, d, a, 0#5, (m ++ 0#4 ++ r)⟩
  | .vcvtSat w d a m r => some ⟨w, 0x23#6, d, a, 0#5, (m ++ 1#4 ++ r)⟩
  | .vcvtSc w d a b m r => some ⟨w, 0x23#6, d, a, b, (m ++ 2#4 ++ r)⟩
  | .vcvtDs w d a b r => some ⟨w, 0x23#6, d, a, b, (3#7 ++ r)⟩
  | .vshift w d a b m => some ⟨w, 0x24#6, d, a, b, (m ++ 0x00#7)⟩
  | .vrot w d a b m => some ⟨w, 0x24#6, d, a, b, (m ++ 0x01#7)⟩
  | .vfeedlo w d a b m => some ⟨w, 0x24#6, d, a, b, (m ++ 0x02#7)⟩
  | .vfeedhi w d a b m => some ⟨w, 0x24#6, d, a, b, (m ++ 0x03#7)⟩
  | .vpick w d a b m => some ⟨w, 0x24#6, d, a, b, (m ++ 0x04#7)⟩
  | .vpack w d a m => some ⟨w, 0x24#6, d, a, 0#5, (m ++ 0x05#7)⟩
  | .vspread w d a m => some ⟨w, 0x24#6, d, a, 0#5, (m ++ 0x06#7)⟩
  | .vscanadd w d a b m => some ⟨w, 0x24#6, d, a, b, (m ++ 0x08#7)⟩
  | .vscanmin w d a b m => some ⟨w, 0x24#6, d, a, b, (m ++ 0x09#7)⟩
  | .vscanmax w d a b m => some ⟨w, 0x24#6, d, a, b, (m ++ 0x0A#7)⟩
  | .vfscanadd w d a b m => some ⟨w, 0x24#6, d, a, b, (m ++ 0x0B#7)⟩
  | .vredsum w d a b m => some ⟨w, 0x24#6, d, a, b, (m ++ 0x10#7)⟩
  | .vredmin w d a b m => some ⟨w, 0x24#6, d, a, b, (m ++ 0x11#7)⟩
  | .vredmax w d a b m => some ⟨w, 0x24#6, d, a, b, (m ++ 0x12#7)⟩
  | .vredminn w d a b m => some ⟨w, 0x24#6, d, a, b, (m ++ 0x13#7)⟩
  | .vredmaxn w d a b m => some ⟨w, 0x24#6, d, a, b, (m ++ 0x14#7)⟩
  | .vredand w d a b m => some ⟨w, 0x24#6, d, a, b, (m ++ 0x15#7)⟩
  | .vredor w d a b m => some ⟨w, 0x24#6, d, a, b, (m ++ 0x16#7)⟩
  | .vredxor w d a b m => some ⟨w, 0x24#6, d, a, b, (m ++ 0x17#7)⟩
  | .vfredsum w d a b m => some ⟨w, 0x24#6, d, a, b, (m ++ 0x18#7)⟩
  | .vfredmin w d a b m => some ⟨w, 0x24#6, d, a, b, (m ++ 0x19#7)⟩
  | .vfredmax w d a b m => some ⟨w, 0x24#6, d, a, b, (m ++ 0x1A#7)⟩
  | .mbound w d a b => some ⟨w, 0x25#6, (0#2 ++ d), a, b, 0x000#10⟩
  | .mand w d a b => some ⟨w, 0x25#6, (0#2 ++ d), (0#2 ++ a), (0#2 ++ b), 0x001#10⟩
  | .mor w d a b => some ⟨w, 0x25#6, (0#2 ++ d), (0#2 ++ a), (0#2 ++ b), 0x002#10⟩
  | .mxor w d a b => some ⟨w, 0x25#6, (0#2 ++ d), (0#2 ++ a), (0#2 ++ b), 0x003#10⟩
  | .mandn w d a b => some ⟨w, 0x25#6, (0#2 ++ d), (0#2 ++ a), (0#2 ++ b), 0x004#10⟩
  | .mnot w d a => some ⟨w, 0x25#6, (0#2 ++ d), (0#2 ++ a), 0#5, 0x005#10⟩
  | .mmv w d a => some ⟨w, 0x25#6, (0#2 ++ d), (0#2 ++ a), 0#5, 0x006#10⟩
  | .mcnt w d a => some ⟨w, 0x25#6, d, (0#2 ++ a), 0#5, 0x008#10⟩
  | .mfirst w d a => some ⟨w, 0x25#6, d, (0#2 ++ a), 0#5, 0x009#10⟩
  | .mfromv w d a => some ⟨w, 0x25#6, (0#2 ++ d), a, 0#5, 0x00A#10⟩
  | .mtov w d a => some ⟨w, 0x25#6, d, (0#2 ++ a), 0#5, 0x00B#10⟩
  | .mpush w a => some ⟨w, 0x25#6, 0#5, (0#2 ++ a), 0#5, 0x010#10⟩
  | .melse w => some ⟨w, 0x25#6, 0#5, 0#5, 0#5, 0x011#10⟩
  | .mpop w => some ⟨w, 0x25#6, 0#5, 0#5, 0#5, 0x012#10⟩
  | .vld w d a m => some ⟨w, 0x26#6, d, a, 0#5, (m ++ 0x00#7)⟩
  | .vlds w d a b m => some ⟨w, 0x26#6, d, a, b, (m ++ 0x20#7)⟩
  | .vldx w d a b m => some ⟨w, 0x26#6, d, a, b, (m ++ 0x40#7)⟩
  | .vst w d a m => some ⟨w, 0x27#6, d, a, 0#5, (m ++ 0x00#7)⟩
  | .vsts w d a b m => some ⟨w, 0x27#6, d, a, b, (m ++ 0x20#7)⟩
  | .vstx w d a b m => some ⟨w, 0x27#6, d, a, b, (m ++ 0x40#7)⟩
  | .gld w d a b m => some ⟨w, 0x28#6, d, a, b, (m ++ 0x00#7)⟩
  | .scs w d a b m => some ⟨w, 0x28#6, d, a, b, (m ++ 0x10#7)⟩
  | .vamoadd w d a b m => some ⟨w, 0x28#6, d, a, b, (m ++ 0x20#7)⟩
  | .vamoand w d a b m => some ⟨w, 0x28#6, d, a, b, (m ++ 0x21#7)⟩
  | .vamoor w d a b m => some ⟨w, 0x28#6, d, a, b, (m ++ 0x22#7)⟩
  | .vamoxor w d a b m => some ⟨w, 0x28#6, d, a, b, (m ++ 0x23#7)⟩
  | .vamomin w d a b m => some ⟨w, 0x28#6, d, a, b, (m ++ 0x24#7)⟩
  | .vamomax w d a b m => some ⟨w, 0x28#6, d, a, b, (m ++ 0x25#7)⟩
  | .vamominn w d a b m => some ⟨w, 0x28#6, d, a, b, (m ++ 0x26#7)⟩
  | .vamomaxn w d a b m => some ⟨w, 0x28#6, d, a, b, (m ++ 0x27#7)⟩
  | .vamofadd w d a b m => some ⟨w, 0x28#6, d, a, b, (m ++ 0x28#7)⟩
  | .mgang w => some ⟨w, 0x2C#6, 0#5, 0#5, 0#5, 0#10⟩
  | .mmaVreg w s a b k => some ⟨w, 0x2C#6, (0#4 ++ s), a, b, (4#6 ++ k)⟩
  | .mmaScratch w s a b k => some ⟨w, 0x2C#6, (0#4 ++ s), a, b, (5#6 ++ k)⟩
  | .mmaDownconv w s t b k => some ⟨w, 0x2C#6, (0#4 ++ s), (0#4 ++ t), b, (12#7 ++ k)⟩
  | .mmaSlideVreg w s a b k => some ⟨w, 0x2C#6, (0#4 ++ s), a, b, (8#6 ++ k)⟩
  | .mmaSlideScratch w s a b k => some ⟨w, 0x2C#6, (0#4 ++ s), a, b, (9#6 ++ k)⟩
  | .mst w s a b => some ⟨w, 0x2C#6, (0#4 ++ s), a, b, 0x0C0#10⟩
  | .mwait w => some ⟨w, 0x2C#6, 0#5, 0#5, 0#5, 0x100#10⟩
  | .mzero w s => some ⟨w, 0x2D#6, (0#4 ++ s), 0#5, 0#5, 0#10⟩
  | .mrd w d s b => some ⟨w, 0x2D#6, d, (0#4 ++ s), b, 0x040#10⟩
  | .mwr w s a b => some ⟨w, 0x2D#6, (0#4 ++ s), a, b, 0x080#10⟩
  | .mcvt w d s b => some ⟨w, 0x2D#6, d, (0#4 ++ s), b, 0x0C0#10⟩
  | .sampleNear w d a b m => some ⟨w, 0x30#6, d, a, b, (m ++ 0x00#7)⟩
  | .sampleBil w d a b m => some ⟨w, 0x30#6, d, a, b, (m ++ 0x20#7)⟩
  | .sampleTri w d a b m => some ⟨w, 0x30#6, d, a, b, (m ++ 0x40#7)⟩
  | .boxtest w d a b m => some ⟨w, 0x31#6, d, (a ++ 0#1), b, (m ++ 0x00#7)⟩
  | .tritest w d a b m => some ⟨w, 0x31#6, d, (a ++ 0#1), b, (m ++ 0x01#7)⟩
  | .partition w d a b m => some ⟨w, 0x31#6, d, (a ++ 0#1), b, (m ++ 0x02#7)⟩
  | .marchRecord w d a b _ => some ⟨w, 0x3F#6, d, a, b, 0x320#10⟩
  | .marchAcc w d a b _ => some ⟨w, 0x3F#6, d, a, b, 0x320#10⟩
  | .marchLocate w d a b _ => some ⟨w, 0x3F#6, d, a, b, 0x320#10⟩
  | .qpushTile w a b n => some ⟨w, 0x33#6, 0#5, a, b, (0#2 ++ n ++ 0#7)⟩
  | .qpushBlend w a b n => some ⟨w, 0x33#6, 0#5, a, b, (1#2 ++ n ++ 0#7)⟩
  | .qpushMesh w a b n => some ⟨w, 0x33#6, 0#5, a, b, (2#2 ++ n ++ 0#7)⟩
  | .copy w a => some ⟨w, 0x38#6, 0#5, a, 0#5, 0x000#10⟩
  | .fill w a => some ⟨w, 0x38#6, 0#5, a, 0#5, 0x020#10⟩
  | .coll w a => some ⟨w, 0x38#6, 0#5, a, 0#5, 0x040#10⟩
  | .qfence w s => some ⟨w, 0x38#6, 0#5, 0#5, 0#5, (3#5 ++ s)⟩
  | .qwait w d q => some ⟨w, 0x38#6, d, 0#5, 0#5, (4#5 ++ 0#2 ++ q)⟩
  | .qstat w d q => some ⟨w, 0x38#6, d, 0#5, 0#5, (5#5 ++ 0#2 ++ q)⟩
  | .mfs w d c => some ⟨w, 0x3A#6, d, 0#5, (0#3 ++ hi12 c), (lo10 c)⟩
  | .mts w a c => some ⟨w, 0x3A#6, 0#5, a, (1#3 ++ hi12 c), (lo10 c)⟩
  | .svc w a => some ⟨w, 0x3A#6, 0#5, a, 0x08#5, 0x000#10⟩
  | .trap w a => some ⟨w, 0x3A#6, 0#5, a, 0x08#5, 0x001#10⟩
  | .brk w => some ⟨w, 0x3A#6, 0#5, 0#5, 0x08#5, 0x002#10⟩
  | .yield w => some ⟨w, 0x3A#6, 0#5, 0#5, 0x08#5, 0x003#10⟩
  | .halt w => some ⟨w, 0x3A#6, 0#5, 0#5, 0x08#5, 0x004#10⟩
  | .timewait w a => some ⟨w, 0x3A#6, 0#5, a, 0x08#5, 0x005#10⟩
  | .tres w d a b => some ⟨w, 0x3B#6, d, a, b, 0x000#10⟩
  | .ctxsave w d a b => some ⟨w, 0x3B#6, d, a, b, 0x001#10⟩
  | .ctxload w d a b => some ⟨w, 0x3B#6, d, a, b, 0x002#10⟩
  | .tlbinvPage w a b => some ⟨w, 0x3B#6, 0#5, a, b, 0x003#10⟩
  | .tlbinvPartition w a b => some ⟨w, 0x3B#6, 0#5, a, b, 0x003#10⟩
  | .slotctlHold w a b => some ⟨w, 0x3B#6, 0#5, a, b, 0x004#10⟩
  | .slotctlRelease w a b => some ⟨w, 0x3B#6, 0#5, a, b, 0x004#10⟩
  | .slotctlKill w a b => some ⟨w, 0x3B#6, 0#5, a, b, 0x004#10⟩
  | .slotctlDebug w a b => some ⟨w, 0x3B#6, 0#5, a, b, 0x004#10⟩
  | .slotctlPool w a b => some ⟨w, 0x3B#6, 0#5, a, b, 0x004#10⟩
  | .wakepThread w a => some ⟨w, 0x3B#6, 0#5, a, 0#5, 0x005#10⟩
  | .wakepAgent w a => some ⟨w, 0x3B#6, 0#5, a, 0#5, 0x005#10⟩
  | .vectorSequencerStart _ => none
  | .longLatencyResultLand _ _ => none
  | .trapRecordDeferredWrite _ => none
  | .springDispatch _ => none
  | .gangJoinRelease _ _ => none
  | .gangOpStart _ => none
  | .gangKstepEnd _ => none
  | .gangOpComplete _ => none
  | .mstDrainStart _ => none
  | .mstComplete _ => none
  | .leaseHomeRecord _ => none
  | .leaseExpire _ => none
  | .vwaitPass _ => none
  | .vwaitTimeout _ => none
  | .barrierRelease _ => none
  | .timewaitEnd _ => none
  | .scPerform => none
  | .copyEngineEntry _ => none
  | .engineEntryComplete _ => none
  | .collMatch _ => none
  | .marchEntryTake _ => none
  | .marchStep _ _ _ => none
  | .marchEntryComplete _ _ => none
  | .meshTri _ _ => none
  | .meshEnd _ _ => none
  | .tileJob _ _ => none
  | .tileMark _ _ => none
  | .binRender _ => none
  | .tileSpill _ => none
  | .fragmentWrite _ => none
  | .tileWriteback _ _ => none
  | .blendOrdered _ _ => none
  | .blendApply _ _ => none
  | .blendDirect _ _ => none
  | .frameDone _ => none
  | .frameUnbind _ => none
  | .doorbell _ _ _ => none
  | .packetNop _ _ => none
  | .packetLaunch _ _ => none
  | .packetBarrier _ _ => none
  | .packetCopy _ _ => none
  | .packetSignal _ _ => none
  | .packetFrame _ _ => none
  | .barrierEvaluate _ _ => none
  | .launchDispatch _ => none
  | .launchComplete _ => none
  | .preemption _ => none
  | .queueReset _ _ => none
  | .engineReset _ _ _ => none
  | .resetPartition _ => none
  | .resetDie _ => none
  | .dieResetReturn _ => none
  | .resetFunction _ => none
  | .resetDevice => none
  | .powerUp => none
  | .seal => none
  | .sealComplete => none
  | .restore => none
  | .thermalTrip => none
  | .powerLimitThrottle => none
  | .mboxReport => none
  | .mboxCert => none
  | .mboxLifecycle => none
  | .mboxLoadspring => none
  | .mboxKeyxfer => none
  | .mboxKeyrecv => none
  | .codeLoad _ _ => none
  | .codeUnload _ _ => none
  | .codeUnloadForce _ _ => none
  | .registerWrite _ _ _ => none
  | .hostBar2Access _ _ _ _ => none
  | .tarnLaneFail _ => none
  | .podTimeSync _ => none
  | .hotnessEpochEnd => none
  | .patrolScrub _ => none
  | .illegalInstructionWord _ => none
  | .instructionFetchFault => none
  | .accessPerformed _ => none
  | .strmLineEviction _ _ => none
  | .mixtrapRecordDrop _ => none
  | .softError _ _ _ => none
  | .accessFromAnotherPackage _ _ _ => none
  | .tarnLinkLoss _ => none
  | .tarnLinkTraining _ _ => none

/-- The payload of a two-word instruction (R60, R70, R203). -/
def Instr.payload : Instr → Option (BitVec 32)
  | .addiL _ _ _ i => some i
  | .addpcL _ _ i => some i
  | .marchRecord _ _ _ _ m => some (0#2 ++ m ++ 0#27)
  | .marchAcc _ _ _ _ m => some (1#2 ++ m ++ 0#27)
  | .marchLocate _ _ _ _ m => some (2#2 ++ m ++ 0#27)
  | _ => none

/-- The constructor the decoder gives for an instruction's words: TLBINV, SLOTCTL and WAKEP have one word each for several
rows of the table, and the register operands tell the rows apart (R233 to R235). -/
noncomputable def Instr.canon : Instr → Instr
  | .tlbinvPartition w a b => .tlbinvPage w a b
  | .slotctlRelease w a b => .slotctlHold w a b
  | .slotctlKill w a b => .slotctlHold w a b
  | .slotctlDebug w a b => .slotctlHold w a b
  | .slotctlPool w a b => .slotctlHold w a b
  | .wakepAgent w a => .wakepThread w a
  | i => i

/-- The words of an instruction; none for a step that has no encoding. -/
def encode (i : Instr) : List (BitVec 32) :=
  match i.fields with
  | none => []
  | some f => f.toWord :: i.payload.toList

end Sys2Proof
end

