-- ==== Sys2Proof/Word.lean ====
section
/-! DEFINITION. Words, bytes and sparse tables by number, in the spec's notation (R6, R9). -/
namespace Sys2Proof

/-- A 64-bit register value (R12). -/
abbrev Word := BitVec 64
/-- A byte of memory (R6). -/
abbrev Byte := BitVec 8

/-- A sparse table by number: the entries in rising order of their number. -/
abbrev Tab (α : Type) := List (Nat × α)

/-- The entry of a number. -/
def Tab.get? {α : Type} : Tab α → Nat → Option α
  | [], _ => none
  | (j, x) :: t, k => if j = k then some x else Tab.get? t k

/-- The entry of a number, or a given value. -/
def Tab.getD {α : Type} (t : Tab α) (k : Nat) (x : α) : α := (Tab.get? t k).getD x

/-- Sets the entry of a number, keeping the order. -/
def Tab.set {α : Type} : Tab α → Nat → α → Tab α
  | [], k, x => [(k, x)]
  | (j, y) :: t, k, x =>
    if k < j then (k, x) :: (j, y) :: t
    else if k = j then (k, x) :: t
    else (j, y) :: Tab.set t k x

/-- Removes the entry of a number. -/
def Tab.erase {α : Type} : Tab α → Nat → Tab α
  | [], _ => []
  | (j, y) :: t, k => if k = j then Tab.erase t k else (j, y) :: Tab.erase t k

/-- `Trunc(x, n)` of R9 for an integer: the natural number below 2^n congruent to it. -/
def truncInt (x : Int) (n : Nat) : Nat := (x.emod (2 ^ n : Nat)).toNat

/-- `SignExt` of R9 read as an integer: the two's complement value of the low `n` bits of a natural number. -/
def signedOf (x n : Nat) : Int :=
  let y := x % 2 ^ n
  if n = 0 then 0 else if y < 2 ^ (n - 1) then (y : Int) else (y : Int) - (2 ^ n : Nat)

/-- Bits [hi:lo] of a natural number. -/
def bitsOf (x lo n : Nat) : Nat := (x >>> lo) % 2 ^ n

/-- Bit `i` of a natural number. -/
def bitAt (x i : Nat) : Bool := (x >>> i) % 2 == 1

/-- A number with its bits [lo+n-1:lo] replaced. -/
def setBits (x lo n v : Nat) : Nat :=
  x - (bitsOf x lo n <<< lo) + ((v % 2 ^ n) <<< lo)

end Sys2Proof
end

