-- ==== Sys2Proof/Config.lean ====
section
/-! DEFINITION. What the spec leaves open, as constants without a body: free values. `State.fresh` counts the free
values a run has used, and each use applies its constant to that counter, so that nothing constrains the value. -/
namespace Sys2Proof.Config

/-- Whether a read of a pending register takes the written value (R23). -/
opaque takesNew : Nat → Bool
/-- The quad and core fields of a Spring slot's c.place (R26), which name no user core. -/
opaque springPlace : Nat → BitVec 5
/-- What the root of trust computes: signatures, digests, wrapped keys and certificate bytes (R336, R365 to R368). -/
opaque nyldoronByte : Nat → BitVec 8
/-- Whether a check of the root of trust passes: an image's signature, a certificate, a key's check value (R336, R367,
R368). -/
opaque nyldoronPasses : Nat → Bool
/-- The sensor reading of tmax, in 1/16 °C (R354). -/
opaque dieTemperature : Nat → BitVec 16
/-- How late a core observes pod time, before it is reduced to 0 to 4 ns (R222, R226). -/
opaque timeLate : Nat → Nat
/-- What a read of a doorbell register returns, which the spec does not say (R329). -/
opaque doorbellRead : Nat → BitVec 64
/-- What an agent reads where a page forbids its read and the spec states no outcome (R315, R321). -/
opaque agentRead : Nat → BitVec 64
/-- Which pixel of a primitive a tile unit rasterises next (R315). -/
opaque pixelPick : Nat → Nat
/-- A byte of the sealed image as another package reads it (R279, R365). -/
opaque sealedByte : Nat → BitVec 8
/-- Whether a stage of bring-up passes (R361). -/
opaque stagePasses : Nat → Bool
/-- The version that a loaded patch image reports (R336). -/
opaque patchVersion : Nat → BitVec 32
/-- The identity certificate chain, X.509 DER (R367). -/
opaque certificate : Nat → List (BitVec 8)
/-- What a restore of an image that this package did not seal decrypts to (R368, R369). -/
opaque restoredCells : Nat → List (Nat × BitVec 8)
/-- The accumulator words, by core and place, that such a restore decrypts to. -/
opaque restoredAccs : Nat → List (Nat × Tab (BitVec 32) × List Nat)
/-- The vector registers, by slot and number, that such a restore decrypts to. -/
opaque restoredFiles : Nat → List (Nat × Tab (BitVec 1024) × List Nat)
/-- The words of the sequencer's control store, which is fixed in the base die (R336). -/
opaque controlStore : BitVec 12 → BitVec 96
/-- The entries of a patch image, by number, each an address of the control store and the word that replaces it (R336). -/
opaque patchImage : Nat → Tab (BitVec 12 × BitVec 96)
/-- Whether a link to the master is still up after another has gone down (R360). -/
opaque masterLinked : Nat → Bool
/-- The idle clk that the power limit inserts between K-steps (R371). -/
opaque idleClk : Nat → Nat

end Sys2Proof.Config
end

