-- ==== Sys2Proof/Machine/State.lean ====
section
/-! DEFINITION. The state of one KZ4800-M package as plain data. Every table is sparse: a unit that is not listed stands
as it does after reset. A slot is named by its *key*: core number × 16 + slot for a user slot (R5), and 32,768 +
package cluster × 16 + slot for a Spring slot. A byte of storage is named by its *store address*: a physical address
(R265), 2^56 + core × 2^20 + offset for core scratch, and 2^57 + die × 2^30 + offset for die scratch. -/
namespace Sys2Proof.Machine

/-- A vector register: its bits and its tag (R13, R14). -/
structure VReg where
  bits : BitVec 1024
  fmt : BitVec 5
  grp : BitVec 2
  deriving DecidableEq, Repr

/-- A mask register or mask stack entry (R16): in BOUND form `n` is the active count and `wc` the width code. -/
structure Mask where
  bound : Bool
  bits : BitVec 1024
  n : BitVec 12
  wc : BitVec 3
  deriving DecidableEq, Repr

/-- The operations of the vector command queue (majors 0x20 to 0x31); `cfg` is VCFG, VGRANT or VTAG, whose effects come at
issue. -/
inductive VOp where
  | mv | splat | get | put | movr | movw
  | int (c : Nat) | cmpInt (c : Nat) | wide (c : Nat) | abs
  | flt (c : Nat) | cmpFlt (c : Nat) | unary (c : Nat) | cls
  | intG (c : Nat) | cmpIntG (c : Nat) | wideG (c : Nat) | fltG (c : Nat) | cmpFltG (c : Nat)
  | cvt | cvtSat | cvtSc | cvtDs
  | shift | rot | feedLo | feedHi | pick | pack | spread
  | scanInt (c : Nat) | scanFlt | redInt (c : Nat) | redFlt (c : Nat)
  | mbound | mlogic (c : Nat) | mmv | mcnt | mfirst | mfromv | mtov | mpush | melse | mpop
  | load (mode : Nat) | store (mode : Nat) | gld | scs | vamo (c : Nat)
  | sample (filter : Nat) | boxtest | tritest | partition
  | mzero | mrd | mwr | mcvt | cfg
  deriving DecidableEq, Repr

/-- An entry of a thread's vector command queue (R104): the operation, its fields, and what it captured at issue; `id` the
identity of its pending g result, 0 for none, and `tags` the tags of the thread's registers at issue, as format + 32 × group
code. -/
structure VCmd where
  op : VOp
  d : Nat
  a : Nat
  b : Nat
  m : Nat
  r : Nat
  x : Word
  y : Word
  vl : Nat
  vstart : Nat
  frm : Nat
  pc : Word
  id : Nat
  tags : Tab Nat
  deriving DecidableEq, Repr

/-- What a pending long-latency result waits for and writes (R21 to R23). A register is named by the code of R23: g 0 to
31, m 96 to 103, c.vl 0x1000 and c.vstart 0x1001. -/
inductive Pend where
  /-- Its values are fixed; it may land. -/
  | vals (regs : List (Nat × Word))
  /-- QWAIT: lands in g[d] when no entry of queue `q` below `bound` is outstanding (R221). -/
  | qwait (d q bound : Nat)
  /-- An access or a queued vector instruction not performed yet (R104, R165, R249), with the registers its result still
  goes to. -/
  | sc (id : Nat) (regs : List Nat)
  /-- The elements of width `w` that a vector memory instruction has read for the group at v[d] (R134), and those that are
  poisoned. -/
  | vec (d w : Nat) (elems : List (Nat × Nat)) (bad : List Nat)
  /-- The mask that VWAIT writes (R180). -/
  | mask (r : Nat) (m : Mask)
  deriving DecidableEq, Repr

/-- What a WAITING thread waits for (R11). -/
inductive Wait where
  /-- VWAIT, VWAIT.T: element index, virtual address, store address as the last pass translated it, and expected value of each
  active element (R180, R181). -/
  | vwait (t0 : Nat) (timeout : Word) (d mk cc w : Nat) (traps woken : Bool) (elems : List (Nat × Nat × Nat × Nat))
  | wfe
  /-- BAR, BARW at the barrier instance named (R185). -/
  | barrier (bkey : Nat)
  /-- LEASE, LEASE.N before the grant (R169). -/
  | lease
  /-- MGANG before the join (R140). -/
  | gang
  deriving DecidableEq, Repr

/-- The states of a slot (R11). -/
inductive SlotState where
  | empty
  | running
  | waiting (w : Wait)
  /-- PARKED on a page. -/
  | parkedPage
  /-- PARKED by a trap. -/
  | parkedTrap
  deriving DecidableEq, Repr

/-- A lease region (R168 to R174). `todo` are the lines whose homes have not recorded the request; `granted` is the
grant clk; `buf` the bytes stored to leased lines. -/
structure Lease where
  pc : Word
  dest : Nat
  addr : Nat
  lines : List Nat
  todo : List Nat
  granted : Option Nat
  budget : Nat
  expired : Bool
  buf : Tab Byte
  /-- Poisoned 32-bit words among the bytes stored (R280). -/
  bad : List Nat
  /-- LEND has issued while the lease held, and its commit waits for the region's announced accesses: the identity of LEND's
  pending result (R171). -/
  ending : Option Nat
  deriving DecidableEq, Repr

/-- A slot and the thread in it. -/
structure Thread where
  st : SlotState
  /-- HOLD of R235. -/
  held : Bool
  /-- The hold is that of a CTXSAVE (R236, R239). -/
  saving : Bool
  /-- The launch's identity in `State.launches`; none for a Spring slot (R408). -/
  launch : Option Nat
  /-- The identity of a Spring slot's thread among the owners of engine entries. -/
  ident : Nat
  part : Nat
  /-- The trap ring position of the record a Spring slot handles. -/
  ringPos : Option Nat
  pc : Word
  /-- The first clk at which the thread may issue again (R10). -/
  ready : Nat
  budget : Nat
  g : Tab Word
  v : Tab VReg
  m : Tab Mask
  stack : Tab Mask
  vl : BitVec 12
  vstart : BitVec 12
  mstart : BitVec 4
  mdepth : BitVec 5
  fmtA : BitVec 5
  fmtB : BitVec 5
  fmtC : BitVec 5
  scaleA : BitVec 27
  scaleB : BitVec 27
  frm : BitVec 3
  fflags : BitVec 5
  srseed : Word
  leasemax : BitVec 9
  marchLimit : BitVec 21
  dbg : BitVec 2
  tid : BitVec 32
  cause : Word
  tval : Word
  epc : Word
  lfsr : Tab (BitVec 32)
  pend : List Pend
  vq : List VCmd
  /-- The queue is a remainder, replayed before the thread's next issue (R227, R238). -/
  replay : Bool
  /-- The clk in which the head of the queue became ready (R345). -/
  vready : Nat
  latch : Bool
  links : List Nat
  lease : Option Lease
  /-- Pending arrivals: 16 × scope + barrier number, with the phase parity (R185, R237). -/
  arrivals : Tab Bool
  /-- A join that no MMA has consumed yet (R140). -/
  joined : Bool
  /-- The thread is held by the gang operation it takes part in (R141). -/
  inGang : Bool
  err : Tab Nat
  serial : BitVec 32
  gone : Bool
  /-- The pod time a TIMEWAIT waits for (R226). -/
  timewait : Option Word
  /-- Poisoned register words: g 0 to 31; v 0x10000 + register × 32 + word; m 0x20000 + register × 32 + word; mask stack
  0x30000 + entry × 32 + word (R280). -/
  poison : List Nat
  deriving DecidableEq, Repr

/-- A slot that holds no thread (R11, R12, R13, R24). -/
def Thread.empty : Thread :=
  { st := .empty, held := false, saving := false, launch := none, ident := 0, part := 0, ringPos := none, pc := 0, ready := 0, budget := 8,
    g := [], v := [], m := [], stack := [], vl := 0, vstart := 0, mstart := 0, mdepth := 0, fmtA := 0, fmtB := 0,
    fmtC := 0, scaleA := 0, scaleB := 0, frm := 0, fflags := 0, srseed := 0, leasemax := 256, marchLimit := 0x100000,
    dbg := 0, tid := 0, cause := 0, tval := 0, epc := 0, lfsr := [], pend := [], vq := [], replay := false, vready := 0, latch := false,
    links := [], lease := none, arrivals := [], joined := false, inGang := false, err := [],
    serial := 0, gone := false, timewait := none, poison := [] }

/-- A write of an h register still inside its 8 clk (R20). -/
structure HWrite where
  clk : Nat
  idx : Nat
  val : Word
  deriving DecidableEq, Repr

/-- The kinds of access the notification network ranks (R249): a load with its sign extension, a store with its data and
its poison, an AMO with its operation, operand and comparand (R162), `drop` saying that its write is discarded (R172), and
an access to the thread's own leased copy, which has its effect at issue and keeps its place in the order (R170). -/
inductive ScKind where
  | load (signed : Bool)
  | store (data : Nat) (poisoned : Bool)
  | amo (code y c : Nat) (drop : Bool)
  | done
  deriving DecidableEq, Repr

/-- An .sc access announced and not performed (R249); `d` is the register its result goes to. -/
structure ScAccess where
  id : Nat
  slot : Nat
  window : Nat
  core : Nat
  pa : Nat
  attr : Nat
  n : Nat
  d : Nat
  kind : ScKind
  deriving DecidableEq, Repr

/-- What a queued atomic does (R162, R187): an AMO, its write discarded where `drop` holds (R172), or a CLAIM of `r`
elements. -/
inductive AmoKind where
  | amo (code y c : Nat) (drop : Bool)
  | claim (r : Nat)
  deriving DecidableEq, Repr

/-- An AMO or CLAIM that has issued and waits at its home (R165, R166, R169). -/
structure AmoReq where
  id : Nat
  slot : Nat
  core : Nat
  pa : Nat
  attr : Nat
  n : Nat
  d : Nat
  kind : AmoKind
  deriving DecidableEq, Repr

/-- A core: a user core, or the supervisor core of package cluster c as number 2,048 + c. -/
structure Core where
  pool : BitVec 24
  h : Tab Word
  hw : List HWrite
  /-- Accumulator words by slice × 16,384 + row × 256 + column (R19). -/
  acc : Tab (BitVec 32)
  /-- The slot index and launch that hold the accumulator store. -/
  accOwner : Option (Nat × Nat)
  accPoison : List Nat
  /-- Dirty STRM bytes by store address (R250). -/
  strm : Tab Byte
  /-- Poisoned 32-bit words among them (R280). -/
  strmBad : List Nat
  /-- The first clk at which the vector unit is free, and the slot whose command it started last (R345). -/
  vfree : Nat
  vlast : Nat
  deriving DecidableEq, Repr

/-- What one core of a gang issued (R142, R152): the source kind `src` (0 registers, 1 scratch, 2 the down-converter) with
its register, offset or slice `a`, the offset `b` of B, and the shadows in force (R27). -/
structure GangPart where
  slide : Bool
  d : Nat
  src : Nat
  kc : Nat
  a : Nat
  b : Nat
  mstart : Nat
  fa : Nat
  fb : Nat
  fc : Nat
  sa : Nat
  sb : Nat
  deriving DecidableEq, Repr

/-- A quad's gang (R140, R141, R150): the slot keys that have arrived in MGANG, the clk from which a completed join releases
them, the operations issued by core of the quad, the clk from which the array starts, the K-step in the array, and the clk
at which that step or the operation ends. -/
structure Gang where
  arrived : List Nat
  joinAt : Option Nat
  parts : Tab GangPart
  startAt : Nat
  step : Option Nat
  endAt : Nat
  deriving DecidableEq, Repr

/-- A quad with no gang operation. -/
def Gang.idle : Gang := { arrived := [], joinAt := none, parts := [], startAt := 0, step := none, endAt := 0 }

/-- A trap record or page request as data (R228). -/
structure Rec where
  pc : Word
  resume : Word
  tval : Word
  cause : BitVec 16
  flags : BitVec 16
  slot : BitVec 32
  vstart : BitVec 16
  vl : BitVec 16
  mstart : BitVec 8
  serial : BitVec 32
  tid : BitVec 32
  launch : BitVec 32
  time : Word
  deriving DecidableEq, Repr

/-- A barrier instance (R185, R186): the parity of its current phase, the c.tids that have arrived in it, and the clk from
which the threads that wait on the phase before it are released. -/
structure Barrier where
  parity : Bool
  arrived : List Nat
  due : Option Nat
  deriving DecidableEq, Repr

/-- A launch (R337 to R344). `scrBase` is the core scratch grant's base on each granted core's cluster and `dsBase` the
die scratch grant's base on each die, in the units of R338; `place` gives the slot key of each c.tid at dispatch, `quads`
the granted (cluster, quad) pairs; `halted` the c.tids of halted threads and `killed` of those that SLOTCTL KILL ended.
`start` is the first PC, `shadow` the values of c.fmt.a, c.fmt.b, c.fmt.c, c.scale.a and c.scale.b (R338). `gone` are the
c.tids of saved contexts that a forced unload marked (R350), `outcome` the failure code the launch ends with; `cores` are the
cores that hold a core scratch grant, and `codeMem` the code as it stood at dispatch (R259). -/
structure Launch where
  part : Nat
  num : BitVec 32
  queue : Nat
  index : Nat
  prio : Nat
  code : Nat
  S : Nat
  C : Nat
  Q : Nat
  K : Nat
  gang : Bool
  budget : Nat
  scr : Nat
  cm : Nat
  ds : Nat
  scrBase : Tab Nat
  dsBase : Tab Nat
  place : Tab Nat
  start : Nat
  args : Nat
  shadow : List Nat
  base0 : Bool
  /-- The kernel is of a SPILL image, whose threads of one core at dispatch resume together (R389). -/
  spill : Bool
  /-- Where a launch that spills stands: for each core of its dispatch, the core on which that core's threads stand (R389). -/
  stands : Tab Nat
  halted : List Nat
  killed : List Nat
  preempted : Bool
  gone : List Nat
  saved : Tab Nat
  /-- Error codes of entries that completed for a thread in no slot, by c.tid × 8 + queue code (R215). -/
  errs : Tab Nat
  frames : List Nat
  outcome : Option Nat
  done : Bool
  cores : List Nat
  codeMem : List Host.Cell
  deriving DecidableEq, Repr

/-- A packet its queue has started and that has not completed (R332). -/
structure Started where
  index : Nat
  /-- The 64 bytes of the packet, as a number. -/
  bytes : Nat
  /-- The launch it made, or the engine entry of a COPY packet, where it has one. -/
  ref : Option Nat
  deriving DecidableEq, Repr

/-- A host queue as the device keeps it (R328): state 0 DISABLED, 1 ACTIVE, 2 ERROR. -/
structure HQueue where
  state : Nat
  base : Nat
  lsize : Nat
  prio : Nat
  flags : Nat
  die : Nat
  rd : Nat
  wr : Nat
  ecode : Nat
  eindex : Nat
  started : List Started
  /-- A LAUNCH packet at the head that waits for resources (R341). -/
  waiting : Option Started
  /-- The descriptor has been read since the queue was last DISABLED from reset (R328). -/
  seen : Bool
  deriving DecidableEq, Repr

/-- A queue before its first doorbell. -/
def HQueue.disabled : HQueue :=
  { state := 0, base := 0, lsize := 0, prio := 0, flags := 0, die := 0, rd := 0, wr := 0, ecode := 0, eindex := 0,
    started := [], waiting := none, seen := false }

/-- A partition's block and what the device keeps for it (R355, R350, R269). -/
structure Partition where
  state : BitVec 2
  uroot : Word
  sroot : Word
  qtab : Word
  ctab : Word
  hot : Word
  clus : Word
  dshare : Word
  pool : BitVec 24
  entry : Word
  tring : BitVec 32
  patch : BitVec 32
  ended : BitVec 32
  spare : BitVec 32
  errdata : Word
  b2base : BitVec 9
  /-- The roots in force: a written root takes effect at a TLBINV of kind 1 (R269). -/
  uEff : Word
  sEff : Word
  /-- The pool layout in force: the one that the partition's last start applied (R355). -/
  poolEff : BitVec 24
  launchCount : BitVec 32
  queues : Tab HQueue
  codeStatus : Word
  /-- The code table entries in state gone whose pins have not fallen to 0 (R350). -/
  goneCode : List Nat
  /-- The handles whose entries hold code (R349). -/
  loaded : List Nat
  deriving DecidableEq, Repr

/-- A partition after reset (R355). -/
def Partition.off : Partition :=
  { state := 0, uroot := 0, sroot := 0, qtab := 0, ctab := 0, hot := 0, clus := 0, dshare := 0, pool := 0x804010,
    entry := 0, tring := 0, patch := 0, ended := 0, spare := 64, errdata := 0, b2base := 0, uEff := 0, sEff := 0,
    poolEff := 0x804010,
    launchCount := 0, queues := [], codeStatus := 0, goneCode := [], loaded := [] }

/-- A core after reset; its pool boundaries are those of a partition's reset (R355). -/
def Core.fresh : Core :=
  { pool := 0x804010, h := [], hw := [], acc := [], accOwner := none, accPoison := [], strm := [], strmBad := [], vfree := 0, vlast := 15 }

/-- What the supervisor of a cluster keeps (R227, R228). `ring` holds the occupied places of the trap ring, `undelivered`
the places of records no Spring slot has taken, in order, `waitRecs` the records that wait for a place, each with its
slot's key where a thread wrote it. -/
structure Cluster where
  ring : List Nat
  nextPlace : Nat
  undelivered : List (Nat × Rec)
  waitRecs : List (Option Nat × Rec)
  serialCount : BitVec 26
  deriving DecidableEq, Repr

/-- A cluster after reset. -/
def Cluster.fresh : Cluster :=
  { ring := [], nextPlace := 0, undelivered := [], waitRecs := [], serialCount := 0 }

/-- An entry of a die's error log (R284): the structure code, the location, the clk, and how it was found: 0 signalled,
1 deferred, 2 by the scrubber, 3 a Spring slot's trap (R230). -/
structure ErrEntry where
  structCode : Nat
  location : Nat
  clk : Nat
  how : Nat
  deriving DecidableEq, Repr

/-- What a die keeps: the counts of corrected and uncorrectable errors by structure code (R284), its error log, whether it
is in reset (R364), the queue its sequencer last started as partition × 256 + number, the first clk at which it may start
another packet (R335), and the partition that last held each 64 KiB unit of die scratch (R263). -/
structure Die where
  corrected : Tab Nat
  uncorrectable : Tab Nat
  log : List ErrEntry
  inReset : Bool
  lastQueue : Nat
  nextStart : Nat
  holder : Tab Nat
  deriving DecidableEq, Repr

/-- A die after reset. -/
def Die.fresh : Die :=
  { corrected := [], uncorrectable := [], log := [], inReset := false, lastQueue := 2047, nextStart := 0, holder := [] }

/-- The device control block and what stands behind it (R354, R365, R370). -/
structure Device where
  fail : BitVec 8
  stage : BitVec 4
  sealed : Bool
  keep : Bool
  lc : BitVec 2
  pkg : BitVec 7
  locked : Bool
  master : Bool
  dsplit : BitVec 32
  mbox : Word
  mbuf : Word
  mstat : BitVec 2
  plimit : BitVec 16
  b2base : BitVec 9
  /-- The route table: down in bit 15, the links in bits [8:0]; unlisted is down with no links. -/
  routes : Tab (BitVec 16)
  /-- The links that are up, with the package at their far end. -/
  links : Tab Nat
  /-- Tarn lanes replaced by a spare, by link. -/
  lanes : Tab Nat
  /-- The seal key's identity where there is one, and whether KEYRECV has installed one since cold reset (R365, R368). -/
  sealKey : Option Nat
  keyRecv : Bool
  /-- A seal is in progress; a rung 6 that waits for its end (R365). -/
  sealing : Bool
  rung6Held : Bool
  /-- The compute dies are powered down after a thermal trip (R371). -/
  tripped : Bool
  /-- The clusters whose spare quad is in use, with the quad index it took (R370). -/
  spares : Tab Nat
  /-- The patch RAM: whether an image is loaded, and the valid entries by number, each a 12-bit control store address and
  the 96-bit word that overrides it (R336). -/
  patched : Bool
  patchRam : Tab (BitVec 12 × BitVec 96)
  bootCount : Word
  /-- Uncorrectable errors by quad, core number ÷ 4 (R370). -/
  quadErrs : Tab Nat
  /-- Accesses through BAR2 that were not performed, by function, offset and whether a write (R356). -/
  aer : List (Nat × Nat × Bool)
  /-- MSI-X vectors raised, by function (0 the physical, v + 1 virtual function v) and vector (R356). -/
  irqs : List (Nat × Nat)
  deriving DecidableEq, Repr

/-- A submitted ray of a MARCH (R203 to R207), with FP32 values as patterns: its steps so far, the cell and t it has
reached, the last step's exit face and field value, its records (cell, t_in, t_out, value_in, value_out), and its status,
detail, t and value once it has ended. -/
structure Ray where
  idx : Nat
  ox : Nat
  oy : Nat
  oz : Nat
  dx : Nat
  dy : Nat
  dz : Nat
  tmax : Nat
  cell : Nat
  t : Nat
  steps : Nat
  acc : Nat
  face : Nat
  last : Nat
  recs : List (Nat × Nat × Nat × Nat × Nat)
  out : Option (Nat × Nat × Nat × Nat)
  deriving DecidableEq, Repr

/-- What a MARCH captured at issue (R204, R286): the mode, the step limit, the mesh descriptor's fields, the RECORD capacity,
the pages held by virtual address ÷ 4096, and its result buffer as 64 B parts of storage with their attributes; whether the
unit has taken it; and its rays. -/
structure March where
  mode : Nat
  limit : Nat
  cells : Nat
  verts : Nat
  ccount : Nat
  vcount : Nat
  poly : Bool
  cap : Nat
  pages : List Nat
  buf : List (Nat × Nat)
  taken : Bool
  rays : List Ray
  deriving DecidableEq, Repr

/-- The work of an engine queue entry (R214). -/
inductive Job where
  /-- A COPY or FILL command (R217). -/
  | copy (src dst len : Nat)
  | fill (pattern dst len : Nat)
  /-- A COLL command (R218): the key, the operation, the type, the members, the root's rank, the element count, and the
  virtual addresses of source and destination. -/
  | coll (key op ty members root count src dst : Nat)
  | march (m : March)
  /-- An entry of an agent's queue (R210, R212). -/
  | push
  /-- MST (R158): the slice, the pages of its rows by virtual address ÷ 4096, the rows as spans of storage with their
  attributes, the bytes read when the slice was read, and whether it has been. -/
  | mst (slice : Nat) (pages : List Nat) (rows : List (Nat × Nat × Nat)) (core : Nat) (data : List (BitVec 32 × Bool)) (started : Bool)
  deriving DecidableEq, Repr

/-- An accepted engine queue entry (R214, R215). `owner` is the launch and c.tid of the thread, or the identity alone for a
Spring slot; `slot` the key of the issuing slot, `q` the queue code; `code` the error code it will complete with, and
`finished` says that its effects are complete. -/
structure Entry where
  id : Nat
  owner : Option Nat × Nat
  part : Nat
  slot : Nat
  q : Nat
  job : Job
  code : Nat
  finished : Bool
  deriving DecidableEq, Repr

/-- What another package's collective engine has sent for a COLL (R218): the key, the sender, its operation, type, members,
root and count, and its bytes. -/
structure RemoteColl where
  key : Nat
  pkg : Nat
  op : Nat
  ty : Nat
  members : Nat
  root : Nat
  count : Nat
  data : List Byte
  deriving DecidableEq, Repr

/-- A QFENCE (R220): the entries of its owner below `bound` in the queues of `set` come before later ones of those queues. -/
structure Fence where
  owner : Option Nat × Nat
  core : Nat
  set : Nat
  bound : Nat
  deriving DecidableEq, Repr

/-- An entry of an agent's queue (R212): its sequence number, the engine entry it counts as, its 64 bytes as a number,
whether the agent has taken it, and what it has left to do (R324, R325). -/
structure QItem where
  seq : Nat
  id : Nat
  data : Nat
  taken : Bool
  left : Nat
  deriving DecidableEq, Repr

/-- A queue of an agent (R212, R302, R303): the frame it is bound to, the next sequence number, the notify register, and
the entries accepted and not yet processed. -/
structure AgentQueue where
  frame : Option Nat
  next : Nat
  notify : Nat
  items : List QItem
  deriving DecidableEq, Repr

/-- A primitive that has been snapped (R307): its sequence number, its data word, its vertices in 1/256 px with A > 0, the
FP32 depths of its vertices, and its bin box from (bx0, by0) to (bx1, by1) (R308). -/
structure Prim where
  seq : Nat
  data : Nat
  xs : List (Int × Int)
  zs : List Nat
  box : Nat × Nat × Nat × Nat
  deriving DecidableEq, Repr

/-- A chain of chunks (R309): the address of its last chunk, the entries in it, and the entries in all. -/
structure Chain where
  tail : Nat
  used : Nat
  total : Nat
  deriving DecidableEq, Repr

/-- The primitive in a distributor's hand (R308, R310): its entry's sequence number and bytes, the record's address once it
has been stored, the lists still to be appended to, the trap value of a bin-overflow fault, and a chunk granted by the
supervisor. -/
structure InHand where
  prim : Prim
  raw : Nat
  place : Option Nat
  todo : List Nat
  fault : Option Nat
  grant : Option Nat
  deriving DecidableEq, Repr

/-- A frame (R303 to R305): its partition, host queue and die, the frame record's address and captured bytes, the device
fields (state 0 BINNING, 1 RENDERING, 2 PARTIAL, 3 DONE), the distributor's chains by list index, the next arena chunk, whether
the bin head table has been emptied, the primitive in hand, and the bins rendered in the phase. -/
structure Frame where
  part : Nat
  queue : Nat
  die : Nat
  addr : Nat
  words : Nat
  state : Nat
  partials : Nat
  rejected : Nat
  ended : Bool
  chains : Tab Chain
  nextChunk : Nat
  headed : Bool
  hand : Option InHand
  rendered : List Nat
  deriving DecidableEq, Repr

/-- A fine tile that a tile unit keeps (R315, R320 to R322): its frame and index, 0 resident, 1 spilled or 2 never reached,
whether its bin's primitives are exhausted, and its samples and coverage bytes while it is resident. -/
structure Tile where
  frame : Nat
  t : Nat
  place : Nat
  done : Bool
  col : List Nat
  dep : List Nat
  cov : List Nat
  deriving DecidableEq, Repr

/-- A fragment that awaits its application (R319, R324): its frame, index, pixel, mask, primitive and record words, the shaded
mask and colour once an ORDERED pixel has matched it, and that pixel's queue and entry. -/
structure Frag where
  frame : Nat
  i : Nat
  x : Nat
  y : Nat
  mask : Nat
  seq : Nat
  data : Nat
  b1 : Nat
  b2 : Nat
  zc : Nat
  shade : Option (Nat × Nat)
  item : Option (Nat × Nat)
  deriving DecidableEq, Repr

/-- A cluster's tile unit with its blend stage (R302, R315): the bin it renders with its frame and, under dispatch 1, its job;
the primitives and pixels still to come; the fragment to be written; the tiles, least recently reached first; the
fragments registered; and the next fragment index by frame. -/
structure TileUnit where
  bin : Option (Nat × Nat × Option (Nat × Nat))
  prims : List Prim
  cur : Option Prim
  pixels : List (Nat × Nat)
  frag : Option Frag
  tiles : List Tile
  frags : List Frag
  counts : Tab Nat
  deriving DecidableEq, Repr

/-- A tile unit with nothing to do. -/
def TileUnit.idle : TileUnit :=
  { bin := none, prims := [], cur := none, pixels := [], frag := none, tiles := [], frags := [], counts := [] }

/-- A sealed image (R279, R365): its identity, the key it was encrypted under, the storage it holds with its poison, the
accumulator stores by core and the register files by slot, with their poison, and the addresses of its region that another
package has written since. -/
structure Image where
  id : Nat
  key : Option Nat
  cells : List Host.Cell
  poison : List Nat
  accs : List (Nat × Tab (BitVec 32) × List Nat)
  files : List (Nat × Tab (BitVec 1024) × List Nat)
  foreign : List Nat
  deriving DecidableEq, Repr

/-- A request that a register write has posted and that a step of the device carries out. -/
inductive Req where
  | doorbell (part q : Nat) (value : BitVec 64)
  | qreset (part q : Nat)
  | ereset (part kind unit : Nat)
  | rung (n target : Nat) (wipe : Bool)
  | startSeal
  | restore
  | mailbox
  | code (part : Nat) (command : BitVec 64)
  deriving DecidableEq, Repr

/-- A hotness entry of an L2 slice (R277, R278): the partition, the home die × 16 + slice, the 64 KiB region, the epoch, and
the unit, strided and indexed counters. -/
structure HotEntry where
  part : Nat
  slice : Nat
  region : Nat
  epoch : Nat
  u : Nat
  t : Nat
  i : Nat
  deriving DecidableEq, Repr

/-- What moves next, where the outside world or the agents decide (the inputs of the machine): a step of an agent or of
the surroundings, the turn of a slot, or the passing of time. -/
inductive Move where
  | event (i : Instr)
  /-- What another package sends its collective engine's partner here (R218). -/
  | coll (r : RemoteColl)
  | issue (slot : Nat)
  | tick (n : Nat)
  deriving DecidableEq, Repr

/-- The state of the package. `cur` is the slot whose turn it is, `agenda` the moves still to come, `fresh` the count of
free values used (the model's own), `uid` the count of identities given to launches and entries (the model's own). -/
structure State where
  clk : Nat
  /-- Pod time at clk `gclk` (R360). -/
  gtime : Nat
  gclk : Nat
  /-- The correction towards the master's time still to be slewed, in ns (R360). -/
  gadj : Int
  mem : List Host.Cell
  /-- Poisoned granules of storage, by store address of their first byte (R280). -/
  poison : List Nat
  /-- Latent correctable errors of storage, by store address (R280). -/
  latent : List Nat
  /-- The lines whose latent or uncorrectable error the tiers took, not the L2 (R280, log entry 101). -/
  tierErrs : List Nat
  /-- What Stillwater holds (R279). -/
  image : Option Image
  threads : Tab Thread
  cur : Nat
  agenda : List Move
  fresh : Nat
  uid : Nat
  cores : Tab Core
  quads : Tab Gang
  clusters : Tab Cluster
  dies : Tab Die
  parts : Tab Partition
  launches : Tab Launch
  barriers : Tab Barrier
  /-- The FIFO of each line's home: lease requests by slot key, AMOs by 2^32 + identity (R169). -/
  homes : Tab (List Nat)
  scq : List ScAccess
  /-- The AMOs and CLAIMs that wait at their homes. -/
  amoq : List AmoReq
  /-- The engine queue entries that have not completed, in the order they were accepted. -/
  entries : List Entry
  fences : List Fence
  /-- What other packages have sent for collectives and no entry has used yet (R218). -/
  remote : List RemoteColl
  /-- The agents' queues by kind × 65,536 + unit × 64 + number: kind 0 tile unit, 1 blend stage, 2 mesh distributor. -/
  aqueues : Tab AgentQueue
  frames : Tab Frame
  tiles : Tab TileUnit
  /-- The core that each cluster's cell-march unit served last (R286). -/
  marchLast : Tab Nat
  /-- Accesses that agents hold on a page request (R219, R233): the unit, as kind + 64 × cluster, and what it holds. -/
  holds : List (Nat × Nat)
  /-- Held accesses that a WAKEP has reached and that have not retried yet, in the order of their records (R233). -/
  woken : List (Nat × Nat)
  /-- Requests posted by register writes (R353). -/
  reqs : List Req
  /-- The last strong access of each line (R254): its first byte, its size and its clk. -/
  strong : Tab (Nat × Nat × Nat)
  /-- The hotness entries of the L2 slices, least recently counted first, and those that wait to be written (R277, R278). -/
  hotness : List HotEntry
  hotOut : List HotEntry
  dev : Device
  deriving DecidableEq, Repr

/-- Why the machine stops. -/
inductive Fault where
  /-- No meaning raises it: the spec gives every stop of this machine an effect (a trap, a park, a held engine entry or
  an error code). It stands for a table the model does not know and is safe. -/
  | unreachable
  deriving DecidableEq, Repr

/-- Why an instruction has no meaning. -/
inductive Refusal where
  /-- An instruction the model gives no meaning yet, by its mnemonic. Raised by `exec` alone; safe. -/
  | notModelled (mnemonic : String)
  deriving DecidableEq, Repr

/-- The device control block after bring-up, idle (R354, R361 stage 8). -/
def Device.fresh : Device :=
  { fail := 0, stage := 8, sealed := false, keep := false, lc := 2, pkg := 0, locked := false, master := false,
    dsplit := 0, mbox := 0, mbuf := 0, mstat := 0, plimit := 3800, b2base := 0, routes := [], links := [],
    lanes := [], sealKey := some 0, keyRecv := false, sealing := false, rung6Held := false, tripped := false, spares := [],
    patched := false, patchRam := [], bootCount := 0, quadErrs := [], aer := [], irqs := [] }

/-- The machine right after reset: bring-up has ended (R361), nothing is loaded and no partition runs. -/
def State.reset : State :=
  { clk := 0, gtime := 0, gclk := 0, gadj := 0, mem := [], poison := [], latent := [], tierErrs := [], image := none, threads := [], cur := 0, agenda := [], fresh := 0, uid := 0,
    cores := [], quads := [], clusters := [], dies := [], parts := [], launches := [], barriers := [], homes := [], scq := [], amoq := [],
    entries := [], fences := [], remote := [], aqueues := [], frames := [], tiles := [], marchLast := [], holds := [], woken := [], reqs := [], strong := [], hotness := [], hotOut := [], dev := Device.fresh }

end Sys2Proof.Machine
end

