-- ==== Sys2Proof/Machine/Ops.lean ====
section
/-! DEFINITION. The named operations over the machine: units and their names, registers, storage, translation, and the
taking of a trap or a park with the return from it. -/
namespace Sys2Proof.Machine

/-! ## Units and keys (R5) -/

/-- Whether a slot key names a Spring slot (R29, R408). -/
def isSpring (k : Nat) : Bool := k ≥ 32768
/-- The slot index within its core. -/
def slotOf (k : Nat) : Nat := k % 16
/-- The core of a slot key: its core number, or 2,048 + package cluster for a supervisor core. -/
def coreOf (k : Nat) : Nat := k / 16
/-- The package cluster of a core. -/
def clusterOfCore (c : Nat) : Nat := if c < 2048 then c / 32 else c - 2048
/-- The package cluster of a slot key. -/
def clusterOf (k : Nat) : Nat := clusterOfCore (coreOf k)
/-- The die of a package cluster. -/
def dieOfCluster (c : Nat) : Nat := c / 16
/-- The die of a slot key. -/
def dieOf (k : Nat) : Nat := dieOfCluster (clusterOf k)
/-- The quad of a user core among the package's 512. -/
def quadOfCore (c : Nat) : Nat := c / 4

/-! ## Reading and writing the parts of the state -/

/-- The thread in a slot. -/
def State.thread (s : State) (k : Nat) : Thread := s.threads.getD k Thread.empty
/-- Puts a thread into a slot. -/
def State.setThread (s : State) (k : Nat) (t : Thread) : State := { s with threads := s.threads.set k t }
/-- The thread whose turn it is. -/
def State.thr (s : State) : Thread := s.thread s.cur
/-- Replaces the thread whose turn it is. -/
def State.putThr (s : State) (t : Thread) : State := s.setThread s.cur t
/-- A core. -/
def State.core (s : State) (c : Nat) : Core := s.cores.getD c Core.fresh
/-- Replaces a core. -/
def State.setCore (s : State) (c : Nat) (x : Core) : State := { s with cores := s.cores.set c x }
/-- A cluster's supervisor part. -/
def State.cluster (s : State) (c : Nat) : Cluster := s.clusters.getD c Cluster.fresh
/-- Replaces a cluster's supervisor part. -/
def State.setCluster (s : State) (c : Nat) (x : Cluster) : State := { s with clusters := s.clusters.set c x }
/-- A die. -/
def State.die (s : State) (d : Nat) : Die := s.dies.getD d Die.fresh
/-- Replaces a die. -/
def State.setDie (s : State) (d : Nat) (x : Die) : State := { s with dies := s.dies.set d x }
/-- A quad's gang. -/
def State.quad (s : State) (q : Nat) : Gang := s.quads.getD q Gang.idle
/-- Replaces a quad's gang. -/
def State.setQuad (s : State) (q : Nat) (x : Gang) : State := { s with quads := s.quads.set q x }
/-- A partition. -/
def State.part (s : State) (p : Nat) : Partition := s.parts.getD p Partition.off
/-- Replaces a partition. -/
def State.setPart (s : State) (p : Nat) (x : Partition) : State := { s with parts := s.parts.set p x }

/-- The launch of a thread, where it has one (R408: a Spring slot has none). -/
def State.launchOf (s : State) (t : Thread) : Option Launch :=
  match t.launch with
  | none => none
  | some l => s.launches.get? l

/-- LSIZE (R94): the thread count of the launch, 1 in a Spring slot (R408). -/
def State.lsize (s : State) (t : Thread) : Nat :=
  match s.launchOf t with
  | some l => l.S * l.C * l.Q * l.K
  | none => 1

/-! ## Ends of an instruction -/

/-- Why an instruction does not complete. -/
inductive Why where
  /-- A trap; `resume` is the resume PC where it is not the instruction's own address (R223). -/
  | trap (cause : Nat) (tval : Word) (resume : Option Word)
  /-- A page not present or migrating at a virtual address (R272, R275). -/
  | park (va : Nat)
  /-- The turn goes idle: the thread stays RUNNING and tries again (R22, R98, R104, R168). -/
  | stall
  /-- The vector sequencer meets a poisoned word that the instruction consumes (R227, R281). -/
  | held (tval : Word) (c : VCmd)
  deriving DecidableEq, Repr

/-- An instruction that did not complete, with the state it leaves before the trap or park is taken. -/
structure Stop where
  st : State
  why : Why

/-- The result of a part of an instruction. -/
abbrev Res (α : Type) := Except Stop α

/-- Stops with a trap. -/
def trapNow {α : Type} (s : State) (cause : Nat) (tval : Word) : Res α := .error ⟨s, .trap cause tval none⟩
/-- The turn goes idle. -/
def stall {α : Type} (s : State) : Res α := .error ⟨s, .stall⟩

/-! ## Storage -/

/-- A byte of storage; what nothing has written reads 0, as the wipe of bring-up leaves it (R361). -/
def memByte (m : List Host.Cell) (a : Nat) : Byte := Tab.getD m a 0
/-- Writes a byte of storage; a byte of 0 is not listed. -/
def memSet (m : List Host.Cell) (a : Nat) (b : Byte) : List Host.Cell :=
  if b = 0 then Tab.erase m a else Tab.set m a b

/-- `n` bytes from `a` as a little-endian number (R6). -/
def memNat (m : List Host.Cell) (a : Nat) : Nat → Nat
  | 0 => 0
  | n + 1 => (memByte m a).toNat + 256 * memNat m (a + 1) n

/-- Writes the `n` low bytes of a number from `a` on (R6). -/
def memPut (m : List Host.Cell) (a : Nat) : Nat → Nat → List Host.Cell
  | 0, _ => m
  | n + 1, v => memPut (memSet m a (BitVec.ofNat 8 v)) (a + 1) n (v / 256)

/-- The canonical form of the list of written bytes: rising addresses and no byte of 0. -/
def Memory.wf : List Host.Cell → Bool
  | [] => true
  | [(_, b)] => b ≠ 0
  | (a, b) :: (c, d) :: t => b ≠ 0 && a < c && Memory.wf ((c, d) :: t)

/-- The store address of a core's scratch. -/
def scratchAddr (core off : Nat) : Nat := 2 ^ 56 + core * 2 ^ 20 + off
/-- The store address of a die's scratch. -/
def dieScratchAddr (die off : Nat) : Nat := 2 ^ 57 + die * 2 ^ 30 + off

/-- The 64 B line of a store address. -/
def lineOf (a : Nat) : Nat := a / 64

/-- The size of the granule that carries poison at a store address (R280): a 32-bit word of core scratch, 64 bits of die
scratch and of the L2, through which every access reaches a tier; an error of a tier line poisons the eight of its line. -/
def granule (a : Nat) : Nat := if a ≥ 2 ^ 57 then 8 else if a ≥ 2 ^ 56 then 4 else 8

/-- The granule a store address lies in. -/
def granuleOf (a : Nat) : Nat := a / granule a * granule a

/-- The lines the bytes [a, a+n) lie in. -/
def linesOf (a n : Nat) : List Nat := (List.range (lineOf (a + (n - 1)) + 1 - lineOf a)).map (· + lineOf a)

/-- What a write of other agents' bytes does to a thread: it breaks links on the line (R177) and starts a comparison pass
of a VWAIT that monitors it (R181). -/
def Thread.noteWrite (t : Thread) (own : Bool) (lines : List Nat) : Thread :=
  let t := if own then t else { t with links := t.links.filter (fun l => !lines.contains l) }
  match t.st with
  | .waiting (.vwait t0 lim d km cc w tr _ es) =>
    if es.any (fun e => lines.contains (lineOf e.2.2.1)) then { t with st := .waiting (.vwait t0 lim d km cc w tr true es) }
    else t
  | _ => t

/-- Tells every thread of a write to lines; `who` is the slot that wrote, where one did. -/
def State.noteWrite (s : State) (who : Option Nat) (lines : List Nat) : State :=
  { s with threads := s.threads.map (fun e => (e.1, e.2.noteWrite (who == some e.1) lines)) }

/-- Clears the poison of the granules that a write of [a, a+n) covers whole (R281). -/
def clearPoison (ps : List Nat) (a n : Nat) : List Nat :=
  ps.filter (fun p => !(a ≤ p && p + granule p ≤ a + n))

/-- Performs a write of `n` bytes at a store address (R244). -/
def State.write (s : State) (who : Option Nat) (a n v : Nat) : State :=
  if n = 0 then s
  else { (s.noteWrite who (linesOf a n)) with mem := memPut s.mem a n v, poison := clearPoison s.poison a n }

/-- Clears the poison of the granules that a list of written byte addresses covers whole (R281). -/
def State.clearCovered (s : State) (as : List Nat) : State :=
  { s with poison := s.poison.filter (fun p => !(List.range (granule p)).all (fun i => as.contains (p + i))) }

/-- Poisons granules. -/
def State.addPoison (s : State) (gs : List Nat) : State :=
  { s with poison := gs.foldl (fun ps g => if ps.contains g then ps else ps ++ [g]) s.poison }

/-- Reads `n` bytes at a store address. -/
def State.read (s : State) (a n : Nat) : Nat := memNat s.mem a n

/-- Whether a poisoned granule lies in [a, a+n). -/
def State.poisonedAt (s : State) (a n : Nat) : Bool := s.poison.any (fun p => p < a + n && a < p + granule p)

/-- Zeroes a range of storage. -/
def State.zeroRange (s : State) (a n : Nat) : State :=
  { s with mem := s.mem.filter (fun c => !(a ≤ c.1 && c.1 < a + n)),
           poison := s.poison.filter (fun p => !(a ≤ p && p < a + n)) }

/-! ## Physical addresses and translation (R265 to R272) -/

/-- The package field of a physical address. -/
def paPkg (pa : Nat) : Nat := bitsOf pa 45 7
/-- The offset within its package. -/
def paOff (pa : Nat) : Nat := pa % 2 ^ 45

/-- Whether an offset lies in the near tier. -/
def isNear (off : Nat) : Bool := off < 0x6000000000
/-- Whether an offset lies in the far tier. -/
def isFar (off : Nat) : Bool := 0x10000000000 ≤ off && off < 0x30000000000
/-- Whether an offset lies in the device registers. -/
def isDevReg (off : Nat) : Bool := 0x100000000000 ≤ off && off < 0x100100000000
/-- Whether an offset lies in host memory. -/
def isHostMem (off : Nat) : Bool := 0x180000000000 ≤ off && off < 0x1C0000000000
/-- Whether a physical address is reserved (R265). -/
def paReserved (pa : Nat) : Bool :=
  let o := paOff pa
  !(isNear o || isFar o || isDevReg o || (isHostMem o && paPkg pa == 0))
/-- Whether an offset lies in the Stillwater region (R279). -/
def isStillwater (off : Nat) : Bool := 0x29C00000000 ≤ off && off < 0x30000000000

/-- The home slice of a physical address on its die (R266): slice 0 for host memory and device registers. -/
def homeSlice (pa : Nat) : Nat := if isNear (paOff pa) || isFar (paOff pa) then bitsOf pa 9 4 ^^^ bitsOf pa 13 4 else 0

/-- The home die of a physical address of this package (R266). -/
def homeDie (pa : Nat) : Nat :=
  let o := paOff pa
  if isNear o then o / (96 * 2 ^ 30) else if isFar o then (o - 0x10000000000) / (512 * 2 ^ 30) else 0

/-- Whether the route to a package is up (R358). -/
def State.routeUp (s : State) (pkg : Nat) : Bool :=
  pkg == s.dev.pkg.toNat ||
    (let r := s.dev.routes.getD pkg 0x8000
     !r.getLsbD 15 && r.extractLsb' 0 9 != 0)

/-- What an access does with a page (R272). -/
inductive Need where
  | load
  | store
  | update
  | fetch
  deriving DecidableEq, Repr

/-- Whether a leaf permits an access: R, W, R and W, or X. -/
def permits (e : Nat) (n : Need) : Bool :=
  match n with
  | .load => bitAt e 2
  | .store => bitAt e 3
  | .update => bitAt e 2 && bitAt e 3
  | .fetch => bitAt e 4

/-- The outcome of a walk (R272). -/
inductive Walk where
  /-- The physical address and the attribute: 0 COH, 1 STRM, 2 UNC. -/
  | ok (pa attr : Nat)
  /-- Not present or migrating. -/
  | park
  /-- An access trap with the virtual address as tval. -/
  | bad
  /-- An access trap whose tval the instruction's entry gives. -/
  | denied
  /-- An access trap: the route to the page's package is down (R358). -/
  | noRoute
  /-- A table entry on the path is homed on a die in reset, which holds the walk (R364). -/
  | held
  deriving DecidableEq, Repr

/-- The page size of a leaf by its level and size bit, or none where that is reserved (R271). -/
def pageBits (level : Nat) (size : Bool) : Option Nat :=
  match level, size with
  | 2, true => some 31
  | 1, false => some 21
  | 1, true => some 26
  | 0, false => some 12
  | 0, true => some 16
  | _, _ => none

/-- Whether this package refuses a translation to its own Stillwater region (R279). -/
def State.stillwater (s : State) (pa : Nat) : Bool :=
  s.dev.keep && paPkg pa == s.dev.pkg.toNat && isStillwater (paOff pa)

/-- A valid leaf's outcome (R272). Host memory is accessed at its home as a UNC page is (R266). -/
def leafOutcome (s : State) (user : Bool) (need : Need) (va level e : Nat) : Walk :=
  match pageBits level (bitAt e 7) with
  | none => .bad
  | some pb =>
    let frame := bitsOf e 12 40 * 4096
    let pa := frame + va % 2 ^ pb
    let attr := bitsOf e 5 2
    let host := paPkg pa == 0 && isHostMem (paOff pa)
    if attr = 3 || frame % 2 ^ pb ≠ 0 then .bad
    else if (attr == 0 && paPkg pa != s.dev.pkg.toNat) || paReserved pa || s.stillwater pa then .bad
    else if bitAt e 8 then .park
    else if (bitAt e 9 && user) || (bitAt e 3 && !bitAt e 2) || !permits e need then .denied
    else if !s.routeUp (paPkg pa) then .noRoute
    else .ok pa (if host then 2 else attr)

/-- Whether an address is homed on a die in reset (R364). -/
def State.homeDown (s : State) (pa attr : Nat) : Bool :=
  attr != 3 && paPkg pa == s.dev.pkg.toNat && (s.die (homeDie pa)).inReset

/-- A walk through the levels listed, from the table at `t` (R270, R272); `bad` says that an entry above holds a reserved field
value, which an invalid entry further down precedes. -/
def walkLevels (s : State) (user : Bool) (need : Need) (va : Nat) (bad : Bool) : List Nat → Nat → Walk
  | [], _ => .bad
  | l :: ls, t =>
    if paReserved t then .bad
    else if s.homeDown (t + 8 * bitsOf va (12 + 9 * l) 9) 0 then .held
    else
      let e := s.read (t + 8 * bitsOf va (12 + 9 * l) 9) 8
      let bad' := bad || bitsOf e 52 12 ≠ 0
      if !bitAt e 0 then .park
      else if bitAt e 1 then (if bad' then .bad else leafOutcome s user need va l e)
      else if l = 0 then .bad
      else walkLevels s user need va (bad' || bitsOf e 2 8 ≠ 0) ls (bitsOf e 12 40 * 4096)

/-- A walk from a table root (R269). -/
def walk (s : State) (root : Word) (user : Bool) (need : Need) (va : Nat) : Walk :=
  if !root.getLsbD 0 then .bad
  else walkLevels s user need va false [4, 3, 2, 1, 0] (bitsOf root.toNat 12 40 * 4096)

/-- The walk of a slot's access: a user thread's partition root, or the supervisor's (R269). -/
def State.walkFor (s : State) (k : Nat) (need : Need) (va : Nat) : Walk :=
  let p := s.part (s.thread k).part
  if isSpring k then walk s p.sEff false need va else walk s p.uEff true need va

/-! ## Windows (R30, R262 to R264) -/

def winBase : Nat := 0x01FFFF0000000000
def winCluster : Nat := 0x01FFFF1000000000
def winDie : Nat := 0x01FFFF2000000000

/-- Whether a live thread of a launch stands on a core (R262). -/
def State.coreHasLaunch (s : State) (core launch : Nat) : Bool :=
  s.threads.any (fun e => coreOf e.1 == core && e.2.launch == some launch && e.2.st != .empty)

/-- A launch's core scratch grant on a core: base and size in bytes (R260, R26). A core that holds none, because the launch's
threads came to it by CTXLOAD with no room, has the empty grant. -/
def Launch.grantOn (l : Launch) (core : Nat) : Nat × Nat :=
  match l.scrBase.get? (clusterOfCore core) with
  | some b => if l.scr = 0 || !l.cores.contains core then (0, 0) else (b * 4096, l.scr * 4096)
  | none => (0, 0)

/-- A slot's core scratch grant (R260, R26). A Spring slot has its supervisor core's whole scratchpad region (log entry 35). -/
def State.scratchGrant (s : State) (k : Nat) : Nat × Nat :=
  if isSpring k then
    let p := (s.core (coreOf k)).pool
    (0, ((p.extractLsb' 8 8).toNat - (p.extractLsb' 0 8).toNat) * 4096)
  else match s.launchOf (s.thread k) with
    | none => (0, 0)
    | some l => l.grantOn (coreOf k)

/-- A core's scratch grant for a launch, or for a Spring slot where there is none. -/
def State.grantAt (s : State) (k : Nat) (lid : Option Nat) : Nat × Nat :=
  match lid with
  | none => if isSpring k then s.scratchGrant k else (0, 0)
  | some l => match s.launches.get? l with
    | some x => x.grantOn (coreOf k)
    | none => (0, 0)

/-- The store address of a window access for a slot and a launch, whose bytes all lie in the granted part of one window
(R30); `live` asks for a live thread of the launch on a core of the team (R262). -/
def State.windowAt (s : State) (k : Nat) (lid : Option Nat) (live : Bool) (va n : Nat) : Option Nat :=
  let l : Option Launch := lid.bind s.launches.get?
  if winBase ≤ va && va < winBase + 0x80000 then
    let off := va - winBase
    let (b, z) := s.grantAt k lid
    if b ≤ off && off + n ≤ b + z then some (scratchAddr (coreOf k) off) else none
  else if winCluster ≤ va && va < winCluster + 0x1000000 then
    match lid, l with
    | some i, some l =>
      let off := va - winCluster
      let c := clusterOf k * 32 + off / 0x80000
      let x := off % 0x80000
      let b := l.scrBase.getD (clusterOf k) 0 * 4096
      if b ≤ x && x + n ≤ b + l.cm * 4096 && (!live || s.coreHasLaunch c i) then some (scratchAddr c x) else none
    | _, _ => none
  else if winDie ≤ va && va < winDie + 0x20000000 then
    let off := va - winDie
    if isSpring k then
      if off + n ≤ bitsOf s.dev.dsplit.toNat (8 * dieOf k) 4 * 0x2000000 then some (dieScratchAddr (dieOf k) off) else none
    else match l with
      | none => none
      | some l =>
        if off + n ≤ l.ds * 0x10000 then some (dieScratchAddr (dieOf k) (l.dsBase.getD (dieOf k) 0 * 0x10000 + off))
        else none
  else none

/-- The store address of a slot's window access (R30). -/
def State.window (s : State) (k va n : Nat) : Option Nat := s.windowAt k (s.thread k).launch true va n

/-- Where a part of an access lies: a store address, the attribute (3 for a window) and the number of bytes. -/
structure Span where
  pa : Nat
  attr : Nat
  n : Nat
  deriving DecidableEq, Repr

/-- Steps 1 to 5 of R97 for the `n` bytes at `va`, `ordered` saying that step 3 applies: the parts of the access by page,
or the trap or park. -/
def State.resolve (s : State) (k : Nat) (need : Need) (ordered : Bool) (va n : Nat) : Except Why (List Span) :=
  if va ≥ 2 ^ 57 || va + n > 2 ^ 57 then .error (.trap 0x06 (BitVec.ofNat 64 va) none)
  else if va + n > winBase then
    match s.window k va n with
    | none => .error (.trap 0x06 (BitVec.ofNat 64 va) none)
    | some a =>
      if ordered && va % n ≠ 0 then .error (.trap 0x07 (BitVec.ofNat 64 va) none) else .ok [⟨a, 3, n⟩]
  else if ordered && va % n ≠ 0 then .error (.trap 0x07 (BitVec.ofNat 64 va) none)
  else
    let n1 := min n (4096 - va % 4096)
    let w1 := s.walkFor k need va
    if n1 = n then
      match w1 with
      | .ok pa attr => .ok [⟨pa, attr, n⟩]
      | .park => .error (.park va)
      | .held => .error .stall
      | _ => .error (.trap 0x06 (BitVec.ofNat 64 va) none)
    else
      let va2 := va + n1
      match w1, s.walkFor k need va2 with
      | .held, _ => .error .stall
      | _, .held => .error .stall
      | .park, _ => .error (.park va)
      | _, .park => .error (.park va2)
      | .ok pa attr, .ok pa2 attr2 => .ok [⟨pa, attr, n1⟩, ⟨pa2, attr2, n - n1⟩]
      | .ok _ _, _ => .error (.trap 0x06 (BitVec.ofNat 64 va2) none)
      | _, _ => .error (.trap 0x06 (BitVec.ofNat 64 va) none)

/-! ## Vector registers, masks and poison of registers -/

/-- A vector register; before any write it is zero and untagged (R28). -/
def Thread.getV (t : Thread) (r : Nat) : VReg := t.v.getD r ⟨0, 0, 0⟩
/-- Replaces a vector register. -/
def Thread.setV (t : Thread) (r : Nat) (x : VReg) : Thread := { t with v := t.v.set r x }
/-- A mask register; before any write it is in BITS form and zero (R28). -/
def Thread.getM (t : Thread) (r : Nat) : Mask := t.m.getD r ⟨false, 0, 0, 0⟩

/-- SetElem(v[r], i, x) (R32). -/
def Thread.setElem (t : Thread) (r i w x : Nat) : Thread :=
  let k := r + i * w / 1024
  let v := t.getV k
  t.setV k { v with bits := BitVec.ofNat 1024 (setBits v.bits.toNat (i * w % 1024) w x) }

/-- The poison code of the 32-bit word that holds the first bits of an element (R280). -/
def vWord (r i w : Nat) : Nat := 0x10000 + (r + i * w / 1024) * 32 + i * w % 1024 / 32

/-- Writes elements of a group; a word that the elements cover whole loses its poison (R281). -/
def Thread.writeElems (t : Thread) (d w : Nat) (xs : List (Nat × Nat)) : Thread :=
  let t' := xs.foldl (fun t e => t.setElem d e.1 w e.2) t
  let covered (p : Nat) : Bool :=
    0x10000 ≤ p && p < 0x20000 && (p - 0x10000) / 32 ≥ d &&
      (let bit := ((p - 0x10000) / 32 - d) * 1024 + p % 32 * 32
       (List.range (max 1 (32 / w))).all (fun j => xs.any (fun e => e.1 == bit / w + j)))
  { t' with poison := t'.poison.filter (fun p => !covered p) }

/-- Poisons the words that hold elements of a group (R281). -/
def Thread.poisonElems (t : Thread) (r w : Nat) (idx : List Nat) : Thread :=
  idx.foldl (fun t i =>
    let p := vWord r i w
    let t := if t.poison.contains p then t else { t with poison := t.poison ++ [p] }
    if w = 64 && !t.poison.contains (p + 1) then { t with poison := t.poison ++ [p + 1] } else t) t

/-- Writes a mask register; its words are written whole (R281). -/
def Thread.setM (t : Thread) (r : Nat) (x : Mask) : Thread :=
  { t with m := t.m.set r x, poison := t.poison.filter (fun p => !(0x20000 + r * 32 ≤ p && p < 0x20000 + r * 32 + 32)) }

/-! ## Registers and pending results (R12, R20 to R23) -/

/-- g[r]; g0 reads 0 (R12). -/
def Thread.getG (t : Thread) (r : Nat) : Word := if r = 0 then 0 else t.g.getD r 0

/-- The code of a pending result's poison: this plus the register's code (R281). -/
def codePoison : Nat := 0x2000

/-- Takes a register away from the results still to land: a pending result that lands after a younger write is
discarded (R23). -/
def Pend.drop (code : Nat) : Pend → Pend
  | .vals rs => .vals (rs.filter (fun e => e.1 != code && e.1 != codePoison + code))
  | .qwait d q b => .qwait (if d = code || d = codePoison + code then 0 else d) q b
  | .sc id rs => .sc id (rs.filter (fun r => r != code && r != codePoison + code))
  | p => p

/-- Writes g[r]; a write to g0 is discarded (R12). The written value is younger than every pending one (R23). -/
def Thread.setG (t : Thread) (r : Nat) (v : Word) : Thread :=
  if r = 0 then t
  else { t with g := t.g.set r v, pend := t.pend.map (Pend.drop r), poison := t.poison.filter (· != r) }

/-- The register code of c.vl among pending results (R23). -/
def codeVl : Nat := 0x1000
/-- The register code of c.vstart among pending results (R23). -/
def codeVstart : Nat := 0x1001

/-- Whether a register has a pending write, with the value where it is fixed. -/
def pendingOf (ps : List Pend) (code : Nat) : Option (Option Word) :=
  match ps with
  | [] => none
  | .vals rs :: t =>
    match rs.find? (fun e => e.1 == code) with
    | some e => some (some e.2)
    | none => pendingOf t code
  | .qwait d _ _ :: t => if d = code then some none else pendingOf t code
  | .sc _ rs :: t => if rs.contains code then some none else pendingOf t code
  | _ :: t => pendingOf t code

/-- Writes a landed register by its code (R21). -/
def Thread.landReg (t : Thread) (code : Nat) (v : Word) : Thread :=
  if code = 0 then t
  else if code < 32 then { t with g := t.g.set code v, poison := t.poison.filter (· != code) }
  else if code = codeVl then { t with vl := v.truncate 12 }
  else if code = codeVstart then { t with vstart := v.truncate 12 }
  else if codePoison < code && code < codePoison + 32 then { t with poison := t.poison ++ [code - codePoison] }
  else t

/-- The owner of a thread's engine entries (R215). -/
def Thread.owner (t : Thread) : Option Nat × Nat :=
  match t.launch with
  | some l => (some l, t.tid.toNat)
  | none => (none, t.ident)

/-- Whether an entry of a thread's queue below a bound is outstanding (R214, R221). -/
def State.outBelow (s : State) (o : Option Nat × Nat) (q bound : Nat) : Bool :=
  s.entries.any (fun e => e.owner == o && e.q == q && e.id < bound)

/-- The outstanding count of a thread's queue (R214). -/
def State.outCount (s : State) (o : Option Nat × Nat) (q : Nat) : Nat :=
  (s.entries.filter (fun e => e.owner == o && e.q == q)).length

/-- Whether a pending result may land (R21, R221, R249). -/
def State.landable (s : State) (k : Nat) : Pend → Bool
  | .vals _ => true
  | .qwait _ q b => !s.outBelow ((s.thread k).owner) q b
  | .sc _ _ => false
  | .vec _ _ _ _ => true
  | .mask _ _ => true

/-- Lands one result: QWAIT takes the error code as it stands at landing and clears it (R221). -/
def Thread.land (t : Thread) : Pend → Thread
  | .vals rs => rs.foldl (fun t e => t.landReg e.1 e.2) t
  | .qwait d q _ => { t.landReg d (BitVec.ofNat 64 (t.err.getD q 0)) with err := t.err.erase q }
  | .sc _ _ => t
  | .vec d w es bad => (t.writeElems d w es).poisonElems d w bad
  | .mask r m => t.setM r m

/-- Whether a pending result is one of a vector or mask register. -/
def Pend.isVec : Pend → Bool
  | .vec _ _ _ _ => true
  | .mask _ _ => true
  | _ => false

/-- Lands the results pending in vector and mask registers, as a vector instruction that starts finds them (R104). -/
def Thread.landVec (t : Thread) : Thread :=
  (t.pend.filter Pend.isVec).foldl Thread.land { t with pend := t.pend.filter (fun p => !p.isVec) }

/-- Whether a pending result writes a vector register (code 32 to 95) or a mask (96 to 103) (R23). -/
def Pend.writesVec (code : Nat) : Pend → Bool
  | .vec d w es _ => es.any (fun e => 32 + d + e.1 * w / 1024 == code)
  | .mask r _ => 96 + r == code
  | _ => false

/-- The values of an access performed or of a queued instruction run land from now on, in the registers that no younger write
has taken. -/
def Pend.fix (id : Nat) (vs : List (Nat × Word)) : Pend → Pend
  | .sc j rs =>
    if j = id then .vals (vs.filter (fun e => rs.contains e.1 || (codePoison < e.1 && rs.contains (e.1 - codePoison)))) else .sc j rs
  | p => p

/-! ## The vector command queue (R104, R105, R345) -/

/-- Whether an operation is a vector memory instruction (R105). -/
def VOp.isMem : VOp → Bool
  | .load _ | .store _ | .gld | .scs | .vamo _ | .sample _ | .boxtest | .tritest | .partition => true
  | _ => false

/-- Whether a thread's queue holds a vector memory instruction, behind which its accesses stay and until whose end its turns are
idle (R105). -/
def Thread.memQueued (t : Thread) : Bool := t.vq.any (fun c => c.op.isMem)

/-- The vector groups that a command reads or writes, by their first register. -/
def VCmd.groups (c : VCmd) : List Nat :=
  match c.op with
  | .int _ | .wide _ | .flt _ | .cvtSc | .cvtDs | .pick => [c.d, c.a, c.b]
  | .mv | .movr | .movw | .abs | .unary _ | .cls | .intG _ | .wideG _ | .fltG _ | .cvt | .cvtSat | .shift | .rot | .feedLo
  | .feedHi | .pack | .spread | .scanInt _ | .scanFlt => [c.d, c.a]
  | .cmpInt _ | .cmpFlt _ => [c.a, c.b]
  | .get | .cmpIntG _ | .cmpFltG _ | .redInt _ | .redFlt _ | .mfromv | .mwr => [c.a]
  | .splat | .put | .mtov | .mrd | .mcvt => [c.d]
  | .load mode | .store mode => if mode = 2 then [c.d, c.b] else [c.d]
  | .gld | .scs | .vamo _ | .sample _ | .boxtest | .tritest => [c.d, c.b]
  | .partition => [c.b]
  | .mbound | .mlogic _ | .mmv | .mcnt | .mfirst | .mpush | .melse | .mpop | .mzero | .cfg => []

/-- The mask registers that a command reads or writes, its mask operand among them. -/
def VCmd.masks (c : VCmd) : List Nat :=
  c.m :: match c.op with
  | .cmpInt _ | .cmpFlt _ | .cmpIntG _ | .cmpFltG _ | .mbound | .mfromv => [c.d]
  | .mlogic _ => [c.d, c.a, c.b]
  | .mmv => [c.d, c.a]
  | .mcnt | .mfirst | .mtov => [c.a]
  | .mpush => [1, c.a]
  | .melse | .mpop => [1]
  | _ => []

/-- The registers of the group at `r` as a command finds them: by the tag at its issue, and one for a whole-register move. -/
def VCmd.groupAt (c : VCmd) (t : Thread) (r : Nat) : Nat :=
  match c.op with
  | .movr | .movw => 1
  | _ => 2 ^ (if c.tags.isEmpty then (t.getV r).grp.toNat else c.tags.getD r 0 / 32 % 4)

/-- Whether every v and m register of a command has received the writes of the thread's earlier instructions (R104); the registers
are the whole groups of its operands (log entry 110). -/
def Thread.cmdReady (t : Thread) (c : VCmd) : Bool :=
  let codes := c.masks.map (96 + ·) ++ c.groups.flatMap (fun r => (List.range (c.groupAt t r)).map (32 + r + ·))
  t.pend.all (fun p => !p.isVec || codes.all (fun k => !p.writesVec k))

/-- Whether the head of a thread's queue meets R104's condition. -/
def Thread.headReady (t : Thread) : Bool :=
  match t.vq with
  | [] => false
  | c :: _ => t.cmdReady c

/-- A thread after results have landed at clk `now`: a head of its queue that waited for them has become ready (R345). -/
def Thread.readyAt (t old : Thread) (now : Nat) : Thread := if t.headReady && !old.headReady then { t with vready := now } else t

/-- Lands every result of a slot's thread that may land. -/
def State.landAll (s : State) (k : Nat) : State :=
  let t := s.thread k
  if t.pend.isEmpty then s
  else
    let ready := t.pend.filter (s.landable k)
    let rest := t.pend.filter (fun p => !s.landable k p)
    s.setThread k ((ready.foldl Thread.land { t with pend := rest }).readyAt t s.clk)

/-- The W marker (R22): the instruction issues only when every long-latency result of the thread has landed. -/
def waitW (w : Bool) (s : State) : Res State :=
  if w then
    let s' := s.landAll s.cur
    if s'.thr.pend.isEmpty then .ok s' else stall s
  else .ok s

/-- The choice that a read of a register with a pending write makes (R23): the written value, or none for the value before it. With
PENDTRAP set it traps. -/
def readChoice (s : State) (code : Nat) : Res (Option Word × State) :=
  match pendingOf s.thr.pend code with
  | none => .ok (none, s)
  | some new =>
    if s.thr.dbg.getLsbD 0 then trapNow s 0x08 (BitVec.ofNat 64 code)
    else match new with
      | none => .ok (none, s)
      | some v => .ok (if Config.takesNew s.fresh then some v else none, { s with fresh := s.fresh + 1 })

/-- A read of a register that may have a pending write (R23): its code, and its value before that write. -/
def readPending (s : State) (code : Nat) (old : Word) : Res (Word × State) := do
  let (x, s) ← readChoice s code
  .ok (x.getD old, s)

/-- Whether g[r] is poisoned in the value that a read of it has chosen (R23, R281). -/
def Thread.chosenBad (t : Thread) (r : Nat) (x : Option Word) : Bool :=
  if x.isSome then (pendingOf t.pend (codePoison + r)).isSome else t.poison.contains r

/-- What a read of one vector or mask register, by its code, finds where it takes the values still pending for it, which `u` holds
(R23). -/
def Thread.takeNew (t u : Thread) (code : Nat) : Thread :=
  let base := if code < 96 then 0x10000 + (code - 32) * 32 else 0x20000 + (code - 96) * 32
  let here (p : Nat) : Bool := base ≤ p && p < base + 32
  { t with v := if code < 96 then t.v.set (code - 32) (u.getV (code - 32)) else t.v,
           m := if code < 96 then t.m else t.m.set (code - 96) (u.getM (code - 96)),
           poison := t.poison.filter (fun p => !here p) ++ u.poison.filter here }

/-- The choices of an operand's reads of vector and mask registers, each of its own (R23): the thread as those reads see it. -/
def chooseVec (s : State) : Thread → List Nat → Res (Thread × State)
  | t, [] => .ok (t, s)
  | t, c :: cs =>
    if s.thr.pend.any (Pend.writesVec c) then
      if s.thr.dbg.getLsbD 0 then trapNow s 0x08 (BitVec.ofNat 64 c)
      else chooseVec { s with fresh := s.fresh + 1 } (if Config.takesNew s.fresh then t.takeNew s.thr.landVec c else t) cs
    else chooseVec s t cs

/-- A read of the vector and mask registers of one operand, which may have pending writes, by an instruction that the vector
sequencer does not start (R23): the thread as that read sees it. -/
def readVecPending (s : State) (codes : List Nat) : Res (Thread × State) := chooseVec s s.thr codes

/-- A scalar operand g[r], consumed: a poisoned register raises the machine check (R281, R283). -/
def readG (s : State) (r : Nat) : Res (Word × State) :=
  if r = 0 then .ok (0, s)
  else do
    let (x, s) ← readChoice s r
    if s.thr.chosenBad r x then trapNow s 0x0F (BitVec.ofNat 64 (2 ^ 56 + r)) else .ok (x.getD (s.thr.getG r), s)

/-- A scalar operand g[r] moved to memory: poison travels with it (R281). -/
def readGData (s : State) (r : Nat) : Res (Word × Bool × State) := do
  if r = 0 then .ok (0, false, s)
  else
    let (x, s) ← readChoice s r
    .ok (x.getD (s.thr.getG r), s.thr.chosenBad r x, s)

/-- An instruction that reads or changes what queued vector instructions still use waits until its thread's queue is empty. -/
def queueEmpty (s : State) : Res Unit := if s.thr.vq.isEmpty then .ok () else stall s

/-- c.vl as an instruction that captures it reads it (R23, R187). -/
def readVl (s : State) : Res (Nat × State) := do
  let (v, s) ← readPending s codeVl (s.thr.vl.zeroExtend 64)
  .ok (v.toNat, s)

/-- c.vstart as an instruction that captures it reads it. -/
def readVstart (s : State) : Res (Nat × State) := do
  let (v, s) ← readPending s codeVstart (s.thr.vstart.zeroExtend 64)
  .ok (v.toNat, s)

/-- Writes g[d] of the current thread. -/
def State.setG (s : State) (d : Nat) (v : Word) : State := s.putThr (s.thr.setG d v)

/-- A long-latency result of the current thread (R21): the registers by code, with their values. Older pending writes of
the same registers are discarded (R23). -/
def State.addPend (s : State) (rs : List (Nat × Word)) : State :=
  let t := s.thr
  let old := rs.foldl (fun ps e => ps.map (Pend.drop e.1)) t.pend
  s.putThr { t with pend := old ++ [.vals (rs.filter (fun e => e.1 != 0))] }

/-- Goes on to the next instruction, `n` bytes further (R101). -/
def State.advance (s : State) (n : Nat) : State := s.putThr { s.thr with pc := s.thr.pc + BitVec.ofNat 64 n }

/-- h[i] as an instruction issued at clk `now` reads it (R20). -/
def Core.hValue (c : Core) (now i : Nat) : Word :=
  c.hw.foldl (fun v e => if e.idx = i && e.clk + 8 ≤ now then e.val else v) (c.h.getD i 0)

/-- A write of h[i] issued at clk `now` (R20); writes that every later instruction sees are settled. -/
def Core.hWrite (c : Core) (now i : Nat) (v : Word) : Core :=
  { c with h := c.hw.foldl (fun h e => if e.clk + 8 ≤ now then h.set e.idx e.val else h) c.h,
           hw := c.hw.filter (fun e => !(e.clk + 8 ≤ now)) ++ [⟨now, i, v⟩] }

/-! ## Places, records and the trap ring (R26, R227, R228) -/

/-- c.place of a slot (R26). The quad and core fields of a Spring slot are a free value. -/
def State.place (s : State) (k : Nat) : BitVec 22 :=
  let qc : BitVec 5 := if isSpring k then Config.springPlace k else BitVec.ofNat 5 (coreOf k % 32)
  s.dev.pkg ++ BitVec.ofNat 2 (dieOf k) ++ BitVec.ofNat 4 (clusterOf k % 16) ++ qc ++ BitVec.ofNat 4 (slotOf k)

/-- The 64 bytes of a record as a number (R228). -/
def Rec.toNat (r : Rec) : Nat :=
  ((0 : BitVec 0) ++ r.time ++ (0 : BitVec 32) ++ r.launch ++ r.tid ++ r.serial ++ (0 : BitVec 24) ++ r.mstart ++ r.vl ++
    r.vstart ++ r.slot ++ r.flags ++ r.cause ++ r.tval ++ r.resume ++ r.pc).toNat

/-- Where a place of a cluster's trap ring lies (R355). -/
def State.ringAddr (s : State) (part c place : Nat) : Nat :=
  dieScratchAddr (dieOfCluster c) ((s.part part).tring.toNat + 4096 * (c % 16) + 64 * place)

/-- The partition a cluster belongs to (R355). -/
def State.partOfCluster (s : State) (c : Nat) : Nat :=
  match (List.range 8).find? (fun p => (s.part p).clus.getLsbD c) with
  | some p => p
  | none => 0

/-- Whether every pending result of a thread has landed but those of vector instructions that stay queued (R23, R227, R236). -/
def Thread.pendDone (t : Thread) : Bool :=
  t.pend.all (fun p => match p with
    | .sc id _ => t.vq.any (fun c => c.id == id)
    | _ => false)

/-- A record about to be made, with c.vl and c.vstart as they stand once every pending result of its thread has landed (R23). -/
def Rec.landed (r : Rec) (t : Thread) : Rec :=
  if (t.st == .parkedTrap || t.st == .parkedPage) && t.serial == r.serial then { r with vstart := t.vstart.zeroExtend 16, vl := t.vl.zeroExtend 16 } else r

/-- A waiting record with what its thread's results have changed since the trap. -/
def State.freshRec (s : State) (who : Option Nat) (r : Rec) : Rec :=
  match who with
  | some k => r.landed (s.thread k)
  | none => r

/-- Brings the waiting records of a slot's thread up to date, before the thread leaves the slot. -/
def State.freshRecs (s : State) (k : Nat) : State :=
  let x := s.cluster (clusterOf k)
  if x.waitRecs.any (fun e => e.1 == some k) then
    s.setCluster (clusterOf k) { x with
      waitRecs := x.waitRecs.map (fun e => if e.1 = some k then (e.1, e.2.landed (s.thread k)) else e) }
  else s

/-- Writes the records that wait, oldest first, while the ring has a free place and the thread that a record is about
has no result still to land (R227). -/
def State.pumpRing (s : State) (c : Nat) : Nat → State
  | 0 => s
  | n + 1 =>
    let x := s.cluster c
    match x.waitRecs with
    | [] => s
    | (who, r) :: rest =>
      let ready := match who with
        | none => true
        | some k => (s.thread k).pendDone
      if x.ring.contains x.nextPlace || !ready then s
      else
        let r := s.freshRec who r
        let x' := { x with waitRecs := rest, ring := x.ring ++ [x.nextPlace], nextPlace := (x.nextPlace + 1) % 64,
                           undelivered := x.undelivered ++ [(x.nextPlace, r)] }
        ((s.setCluster c x').write none (s.ringAddr (s.partOfCluster c) c x.nextPlace) 64 r.toNat).pumpRing c n

/-- The next record serial of a cluster (R228). -/
def State.nextSerial (s : State) (c : Nat) : BitVec 32 := BitVec.ofNat 6 c ++ (s.cluster c).serialCount

/-- Gives a record to a cluster's supervisor, with the next serial. -/
def State.postRec (s : State) (c : Nat) (who : Option Nat) (r : Rec) : State :=
  let x := s.cluster c
  let r := { r with serial := s.nextSerial c }
  (s.setCluster c { x with waitRecs := x.waitRecs ++ [(who, r)], serialCount := x.serialCount + 1 }).pumpRing c 64

/-- The record of a slot's thread (R228). -/
def State.threadRec (s : State) (k cause : Nat) (pc resume tval : Word) (flags : Nat) : Rec :=
  let t := s.thread k
  { pc := pc, resume := resume, tval := tval, cause := BitVec.ofNat 16 cause, flags := BitVec.ofNat 16 flags,
    slot := (s.place k).zeroExtend 32, vstart := t.vstart.zeroExtend 16, vl := t.vl.zeroExtend 16,
    mstart := t.mstart.zeroExtend 8, serial := 0, tid := t.tid,
    launch := match s.launchOf t with
      | some l => l.num
      | none => 0,
    time := BitVec.ofNat 64 s.clk }

/-! ## Leases -/

/-- Whether a lease holds its lines at a clk (R170). -/
def Lease.holds (l : Lease) (now : Nat) : Bool :=
  match l.granted with
  | some g => !l.expired && (now < g + l.budget || l.ending.isSome)
  | none => false

/-- The lease region a thread is in: from the LEASE's issue to its LEND's (R168, R171). -/
def Thread.region (t : Thread) : Option Lease := t.lease.filter (fun l => l.ending.isNone)

/-- Ends a slot's lease region without a commit: the buffered stores are discarded, the table entries freed and a request
still waiting is withdrawn (R174). A region whose LEND has issued is over already. -/
def State.endRegion (s : State) (k : Nat) : State :=
  match (s.thread k).region with
  | none => s
  | some _ =>
    { s.setThread k { s.thread k with lease := none } with
      homes := (s.homes.map (fun e => (e.1, e.2.filter (· != k)))).filter (fun e => !e.2.isEmpty) }

/-- Where a trapped or parked thread resumes: at its LEASE inside a lease region (R174). -/
def Thread.resumePc (t : Thread) (pc : Word) : Word :=
  match t.region with
  | some l => l.pc
  | none => pc

/-! ## Taking a trap (R227 to R230) and a park (R275) -/

/-- Adds one to a 32-bit saturating count. -/
def sat32 (x : Nat) : Nat := min (x + 1) 0xFFFFFFFF

/-- The row of R280's table, from 1, that an error counts for, by its structure code of R283 or of log entry 101 and its location: a
line of a tier that took the error itself is of the tiers, another word with code 6 of the L2 and die scratch. -/
def State.errRow (s : State) (code loc : Nat) : Nat :=
  match code with
  | 1 => 2
  | 3 => 3
  | 4 => 4
  | 6 => if s.tierErrs.contains (lineOf loc) then 8 else 7
  | 7 => 5
  | 8 => 6
  | 9 => 7
  | _ => 1

/-- Appends to a die's error log, which keeps the 256 youngest entries, and counts an uncorrectable error of a structure
(R284). -/
def State.logError (s : State) (die : Nat) (e : ErrEntry) : State :=
  let d := s.die die
  let l := d.log ++ [e]
  let r := s.errRow e.structCode e.location
  let n := if e.how < 3 then d.uncorrectable.set r (sat32 (d.uncorrectable.getD r 0)) else d.uncorrectable
  s.setDie die { d with log := l.drop (l.length - 256), uncorrectable := n }

/-- A machine check is logged as signalled, and counts for its quad where it lies in a core (R284, R370). -/
def State.logMachineCheck (s : State) (k : Nat) (tval : Word) : State :=
  let c := tval.toNat / 2 ^ 56
  let s := s.logError (dieOf k) ⟨c, tval.toNat % 2 ^ 56, s.clk, 0⟩
  let q := quadOfCore (coreOf k)
  if c < 6 then { s with dev := { s.dev with quadErrs := s.dev.quadErrs.set q (s.dev.quadErrs.getD q 0 + 1) } } else s

/-- A partition enters ERROR, and its virtual function raises MSI-X vector 0 (R355, R356). -/
def State.partError (s : State) (p : Nat) : State :=
  { s.setPart p { s.part p with state := 2 } with dev := { s.dev with irqs := s.dev.irqs ++ [(p + 1, 0)] } }

/-- A trap of a Spring slot: it is logged, a machine check as the error it signals, a lease region ends, the slot stops and its
partition enters ERROR (R174, R230, R284). -/
def State.springTrap (s : State) (k cause : Nat) (tval : Word) : State :=
  let s := if cause = 0x0F then s.logMachineCheck k tval else s.logError (dieOf k) ⟨cause, tval.toNat, s.clk, 3⟩
  let s := s.endRegion k
  let t := s.thread k
  (s.setThread k { t with st := .parkedTrap, held := true }).partError t.part

/-- A slot's thread traps at the instruction at `pc` (R227): every pending result lands, a lease region ends (R174), links
clear (R177), the thread parks with its resume PC, and its record goes to the cluster's ring. -/
def State.takeTrapAt (s : State) (k cause : Nat) (tval : Word) (pc resume : Word) (flags : Nat) : State :=
  if isSpring k then s.springTrap k cause tval
  else
    let s := s.landAll k
    let s := if cause = 0x0F then s.logMachineCheck k tval else s
    let t := s.thread k
    let res := t.resumePc resume
    let r := s.threadRec k cause pc res tval flags
    let s := s.endRegion k
    let s := s.setThread k { s.thread k with st := .parkedTrap, pc := res, links := [], serial := s.nextSerial (clusterOf k) }
    s.postRec (clusterOf k) (some k) r

/-- A trap of the instruction at a slot's PC; `resume` is the resume PC where it is not that address (R223). -/
def State.takeTrap (s : State) (k cause : Nat) (tval : Word) (resume : Option Word) (flags : Nat) : State :=
  let pc := (s.thread k).pc
  s.takeTrapAt k cause tval pc (resume.getD pc) flags

/-- A slot's thread parks on a page (R275): as a trap with cause 0x40, woken by WAKEP. A Spring slot never parks (R230). -/
def State.takePark (s : State) (k va : Nat) : State :=
  if isSpring k then s.springTrap k 0x40 (BitVec.ofNat 64 va)
  else
    let s := s.landAll k
    let t := s.thread k
    let res := t.resumePc t.pc
    let r := s.threadRec k 0x40 t.pc res (BitVec.ofNat 64 va) 0
    let s := s.endRegion k
    let s := s.setThread k { s.thread k with st := .parkedPage, pc := res, links := [], serial := s.nextSerial (clusterOf k) }
    s.postRec (clusterOf k) (some k) r

/-- The return from a trap (R232): the thread keeps everything but its PC and runs again. -/
def Thread.resumeTrap (t : Thread) (pc : Word) : Thread := { t with st := .running, pc := pc }

/-- A thread whose vector command `c` meets poison takes the machine check; the command, with those behind it, is its
remainder (R227, R281). -/
def State.holdRemainder (s : State) (v : Word) (c : VCmd) (rest : List VCmd) (resume : Word) : State :=
  (s.putThr { s.thr with vq := c :: rest, replay := true, timewait := none }).takeTrapAt s.cur 0x0F v c.pc resume 1

/-- The end of an instruction of the current slot: a completed one gives its state, a stopped one takes its trap or park,
an idle turn leaves `s₀` as it was, and a vector instruction that meets poison is held as the thread's remainder. A trap or
park waits until the vector instructions before it have run (R227). -/
def finish (s₀ : State) (r : Res State) : Host.Outcome State Fault Refusal :=
  match r with
  | .ok s => .next s
  | .error e =>
    match e.why with
    | .trap c v res => if e.st.thr.vq.isEmpty then .next (e.st.takeTrap e.st.cur c v res 0) else .next s₀
    | .park va => if e.st.thr.vq.isEmpty then .next (e.st.takePark e.st.cur va) else .next s₀
    | .stall => .next s₀
    | .held v c => .next (e.st.holdRemainder v c [] (e.st.thr.pc + 4))

/-! ## The instruction word at the PC, for trap values (R407) -/

/-- The physical address of the instruction at an address, where it may be fetched (R103). -/
def State.fetchAddr (s : State) (k : Nat) (pc : Word) : Except Why Nat :=
  if pc.toNat ≥ 2 ^ 57 || pc.toNat ≥ winBase then .error (.trap 0x06 pc none)
  else match s.walkFor k .fetch pc.toNat with
    | .ok pa _ => .ok pa
    | .park => .error (.park pc.toNat)
    | .held => .error .stall
    | _ => .error (.trap 0x06 pc none)

/-- The code that a slot's thread fetches (R259): as it stood at its launch's dispatch; a Spring slot fetches what is in
memory. -/
def State.codeMem (s : State) (k : Nat) : List Host.Cell :=
  match s.launchOf (s.thread k) with
  | some l => l.codeMem
  | none => s.mem

/-- The word at the current thread's PC, zero-extended, as the tval of an illegal-instruction trap (R407). -/
def State.wordAtPc (s : State) : Word :=
  match s.fetchAddr s.cur s.thr.pc with
  | .ok pa => BitVec.ofNat 64 (memNat (s.codeMem s.cur) pa 4)
  | .error _ => 0

/-- The illegal-instruction trap (R66, R407). -/
def illegal {α : Type} (s : State) : Res α := trapNow s 0x01 s.wordAtPc
/-- The privilege trap (R29, R407). -/
def privilege {α : Type} (s : State) : Res α := trapNow s 0x02 s.wordAtPc

/-! ## Turns and the fetch (R10, R60, R103) -/

/-- The instruction word at a slot's PC and, for a two-word instruction, its payload (R60): else the payload reads 0. -/
def State.fetchWords (s : State) (k : Nat) : Except Why (BitVec 32 × BitVec 32) :=
  let pc := (s.thread k).pc
  match s.fetchAddr k pc with
  | .error e => .error e
  | .ok pa =>
    let x := BitVec.ofNat 32 (memNat (s.codeMem k) pa 4)
    if x.extractLsb' 25 6 = 0x3F#6 then
      match s.fetchAddr k (pc + 4) with
      | .error e => .error e
      | .ok pb => .ok (x, BitVec.ofNat 32 (memNat (s.codeMem k) pb 4))
    else .ok (x, 0)

/-- Whether a slot's thread may issue at its turn (R10, R11, R105, R141, R227, R235, R279, R371). -/
def State.mayIssue (s : State) (k : Nat) : Bool :=
  let t := s.thread k
  t.st == .running && !t.held && !t.inGang && (!t.replay || t.vq.isEmpty) && !t.memQueued && t.timewait.isNone && !s.dev.sealing &&
    !s.dev.tripped && !(s.die (dieOf k)).inReset

/-- The first clk from `now` on that is a turn of a slot (R10). -/
def turnClk (now slot : Nat) : Nat := now + (slot + 16 - now % 16) % 16

/-- The clk of a slot's next turn. -/
def State.turnOf (s : State) (k : Nat) : Nat := turnClk (max s.clk (s.thread k).ready) (slotOf k)

/-- A slot's turn comes: the time of its issue, and the slot whose turn it is. -/
def State.takeTurn (s : State) (k : Nat) : State :=
  let c := s.turnOf k
  { s.setThread k { s.thread k with ready := c + 1 } with clk := c, cur := k }

/-- A slot's turn passes idle. -/
def State.passTurn (s : State) (k : Nat) : State := { s with clk := s.turnOf k }

/-- The slot whose turn comes first among those that may issue; within one clk, of the lowest core number. -/
def State.nextTurn (s : State) : Option Nat :=
  s.threads.foldl (fun best e =>
    if s.mayIssue e.1 then
      match best with
      | none => some e.1
      | some b => if s.turnOf e.1 < s.turnOf b then some e.1 else best
    else best) none

end Sys2Proof.Machine
end

