-- ==== Sys2Proof/Machine/Operands.lean ====
section
/-! DEFINITION. The operand forms of the scalar instructions and the functions their tables give (R83 to R94). A function
named by a code takes the code of the sub-map that holds it (R68). -/
namespace Sys2Proof.Machine

/-- Ext32 of R83. -/
def ext32 (v : Word) : Word := (v.truncate 32).signExtend 64
/-- The low word. -/
def low32 (v : Word) : BitVec 32 := v.truncate 32
/-- A comparison's result. -/
def ofBool (b : Bool) : Word := if b then 1 else 0

/-- An amount for a 64-bit shift (R86). -/
def shift6 (y : Word) : Nat := y.toNat % 64
/-- An amount for a 32-bit shift (R86). -/
def shift5 (y : Word) : Nat := y.toNat % 32

/-- The register–register operations of R86, by fn10. -/
def aluOp (c : Nat) (x y : Word) : Word :=
  match c with
  | 0x00 => x + y
  | 0x01 => x - y
  | 0x02 => x &&& y
  | 0x03 => x ||| y
  | 0x04 => x ^^^ y
  | 0x05 => x <<< shift6 y
  | 0x06 => x >>> shift6 y
  | 0x07 => x.sshiftRight (shift6 y)
  | 0x08 => ofBool (x.slt y)
  | 0x09 => ofBool (x.ult y)
  | 0x0A => if x.slt y then x else y
  | 0x0B => if x.slt y then y else x
  | 0x0C => if x.ult y then x else y
  | 0x0D => if x.ult y then y else x
  | 0x10 => ext32 (x + y)
  | 0x11 => ext32 (x - y)
  | 0x15 => (low32 x <<< shift5 y).signExtend 64
  | 0x16 => (low32 x >>> shift5 y).signExtend 64
  | 0x17 => ((low32 x).sshiftRight (shift5 y)).signExtend 64
  | _ => 0

/-- Quo of R92 as a 64-bit pattern. -/
def quo64 (x y : Word) : Word := BitVec.ofInt 64 (x.toInt.tdiv y.toInt)
/-- The signed remainder of R92. -/
def rem64 (x y : Word) : Word := BitVec.ofInt 64 (x.toInt.tmod y.toInt)
/-- Quo of the signed low words. -/
def quo32 (x y : Word) : Word := ext32 (BitVec.ofInt 64 ((low32 x).toInt.tdiv (low32 y).toInt))
/-- The signed remainder of the low words. -/
def rem32 (x y : Word) : Word := ext32 (BitVec.ofInt 64 ((low32 x).toInt.tmod (low32 y).toInt))
/-- All ones, the quotient by zero (R92). -/
def allOnes64 : Word := BitVec.allOnes 64

/-- The operations of R92, by fn10. -/
def mulOp (c : Nat) (x y : Word) : Word :=
  match c with
  | 0x0 => x * y
  | 0x1 => BitVec.ofInt 64 ((x.toInt * y.toInt) / (2 ^ 64 : Nat))
  | 0x2 => BitVec.ofNat 64 (x.toNat * y.toNat / 2 ^ 64)
  | 0x3 => BitVec.ofInt 64 ((x.toInt * (y.toNat : Int)) / (2 ^ 64 : Nat))
  | 0x4 => if y = 0 then allOnes64 else quo64 x y
  | 0x5 => if y = 0 then allOnes64 else BitVec.ofNat 64 (x.toNat / y.toNat)
  | 0x6 => if y = 0 then x else rem64 x y
  | 0x7 => if y = 0 then x else BitVec.ofNat 64 (x.toNat % y.toNat)
  | 0x8 => ext32 (x * y)
  | 0xC => if low32 y = 0 then allOnes64 else quo32 x y
  | 0xD => if low32 y = 0 then allOnes64 else (BitVec.ofNat 32 ((low32 x).toNat / (low32 y).toNat)).signExtend 64
  | 0xE => if low32 y = 0 then ext32 x else rem32 x y
  | 0xF => if low32 y = 0 then ext32 x else (BitVec.ofNat 32 ((low32 x).toNat % (low32 y).toNat)).signExtend 64
  | _ => 0

/-- Leading zeros of a number in `n` bits (R93). -/
def leadingZeros (n x : Nat) : Nat := if x = 0 then n else n - 1 - Nat.log2 x
/-- Trailing zeros of a number in at most `n` bits (R93). -/
def trailingZeros : Nat → Nat → Nat
  | 0, _ => 0
  | n + 1, x => if x % 2 = 1 then 0 else 1 + trailingZeros n (x / 2)
/-- One bits of a number among its low `n` (R93). -/
def oneBits : Nat → Nat → Nat
  | 0, _ => 0
  | n + 1, x => x % 2 + oneBits n (x / 2)

/-- BREV (R93): bit i becomes bit 63 − i. -/
def reverseBits : Nat → Nat → Nat → Nat
  | 0, _, acc => acc
  | n + 1, x, acc => reverseBits n (x / 2) (2 * acc + x % 2)
/-- BSWAP (R93): byte j becomes byte 7 − j. -/
def reverseBytes : Nat → Nat → Nat → Nat
  | 0, _, acc => acc
  | n + 1, x, acc => reverseBytes n (x / 256) (256 * acc + x % 256)

/-- BEXT of R93: `k` is the place of the next gathered bit. -/
def gatherBits : Nat → Nat → Nat → Nat → Nat
  | 0, _, _, _ => 0
  | n + 1, x, y, k =>
    if y % 2 = 1 then (x % 2) * 2 ^ k + gatherBits n (x / 2) (y / 2) (k + 1) else gatherBits n (x / 2) (y / 2) k
/-- BDEP of R93: `i` is the place of the next bit of the selector, and `x` holds the bits still to scatter. -/
def scatterBits : Nat → Nat → Nat → Nat → Nat
  | 0, _, _, _ => 0
  | n + 1, x, y, i =>
    if y % 2 = 1 then (x % 2) * 2 ^ i + scatterBits n (x / 2) (y / 2) (i + 1) else scatterBits n x (y / 2) (i + 1)

/-- The unary operations of R93, by fn10. -/
def bitUnary (c : Nat) (x : Word) : Word :=
  match c with
  | 0x00 => BitVec.ofNat 64 (leadingZeros 64 x.toNat)
  | 0x01 => BitVec.ofNat 64 (trailingZeros 64 x.toNat)
  | 0x02 => BitVec.ofNat 64 (oneBits 64 x.toNat)
  | 0x03 => BitVec.ofNat 64 (reverseBits 64 x.toNat 0)
  | 0x04 => BitVec.ofNat 64 (reverseBytes 8 x.toNat 0)
  | 0x07 => (x.truncate 8).signExtend 64
  | 0x08 => (x.truncate 16).signExtend 64
  | 0x09 => ext32 x
  | 0x0A => (low32 x).zeroExtend 64
  | 0x10 => BitVec.ofNat 64 (leadingZeros 32 (low32 x).toNat)
  | 0x11 => BitVec.ofNat 64 (trailingZeros 32 (low32 x).toNat)
  | 0x12 => BitVec.ofNat 64 (oneBits 32 (low32 x).toNat)
  | _ => 0

/-- The binary operations of R93, by fn10. -/
def bitBinary (c : Nat) (x y : Word) : Word :=
  match c with
  | 0x05 => (x <<< shift6 y) ||| (x >>> (64 - shift6 y))
  | 0x06 => (x >>> shift6 y) ||| (x <<< (64 - shift6 y))
  | 0x0B => BitVec.ofNat 64 (gatherBits 64 x.toNat y.toNat 0)
  | 0x0C => BitVec.ofNat 64 (scatterBits 64 x.toNat y.toNat 0)
  | _ => 0

/-- The immediate operations of R89, by major; `y` is the sign-extended immediate. -/
def immOp (major : Nat) (x y : Word) : Word :=
  match major with
  | 0x02 => x + y
  | 0x03 => x &&& y
  | 0x04 => x ||| y
  | 0x05 => x ^^^ y
  | 0x07 => ofBool (x.slt y)
  | 0x08 => ofBool (x.ult y)
  | _ => 0

/-- The shift-immediate operations of R90, by imm15[14:12]. -/
def shiftOp (c : Nat) (x : Word) (sh : Nat) : Word :=
  match c with
  | 0 => x <<< sh
  | 1 => x >>> sh
  | 2 => x.sshiftRight sh
  | 3 => (low32 x <<< sh).signExtend 64
  | 4 => (low32 x >>> sh).signExtend 64
  | 5 => ((low32 x).sshiftRight sh).signExtend 64
  | 6 => (x >>> sh) ||| (x <<< (64 - sh))
  | _ => 0

/-- The branch comparisons of R101, by major. -/
def branchTaken (major : Nat) (x y : Word) : Bool :=
  match major with
  | 0x18 => x == y
  | 0x19 => x != y
  | 0x1A => x.slt y
  | 0x1B => !x.slt y
  | 0x1C => x.ult y
  | 0x1D => !x.ult y
  | _ => false

/-! ## Operand forms -/

/-- An RR instruction of g registers: g[d] := f(g[a], g[b]) (R83, R84). -/
def scalarRR (w : Bool) (d a b : BitVec 5) (f : Word → Word → Word) (s : State) : Res State := do
  let s ← waitW w s
  let (x, s) ← readG s a.toNat
  let (y, s) ← readG s b.toNat
  .ok ((s.setG d.toNat (f x y)).advance 4)

/-- A unary or immediate instruction of g registers: g[d] := f(g[a]). -/
def scalarR (w : Bool) (d a : BitVec 5) (n : Nat) (f : Word → Word) (s : State) : Res State := do
  let s ← waitW w s
  let (x, s) ← readG s a.toNat
  .ok ((s.setG d.toNat (f x)).advance n)

/-- An instruction of no register operand: g[d] := v. -/
def scalarC (w : Bool) (d : BitVec 5) (n : Nat) (f : State → Word) (s : State) : Res State := do
  let s ← waitW w s
  .ok ((s.setG d.toNat (f s)).advance n)

/-- An operand of a .h form: codes 24 to 31 name h0 to h7 (R87), read as R20 says. -/
def readH (s : State) (r : Nat) : Res (Word × State) :=
  if r < 24 then readG s r else .ok ((s.core (coreOf s.cur)).hValue s.clk (r - 24), s)

/-- The destination of a .h form (R87). -/
def State.setH (s : State) (r : Nat) (v : Word) : State :=
  if r < 24 then s.setG r v
  else s.setCore (coreOf s.cur) ((s.core (coreOf s.cur)).hWrite s.clk (r - 24) v)

/-- A conditional branch (R101): both operands are read, and the PC takes the target or goes on. -/
def branch (major : Nat) (w : Bool) (o : BitVec 15) (a b : BitVec 5) (s : State) : Res State := do
  let s ← waitW w s
  let (x, s) ← readG s a.toNat
  let (y, s) ← readG s b.toNat
  let pc := s.thr.pc
  let t := if branchTaken major x y then pc + 4 * o.signExtend 64 else pc + 4
  .ok (s.putThr { s.thr with pc := t })

end Sys2Proof.Machine
end

