-- ==== Sys2Proof/Machine/Registers.lean ====
section
/-! DEFINITION. The memory-mapped registers (R353 to R355): what a read returns and what a write does. A write that starts
work of the device (a doorbell, a reset, a seal, a mailbox or code command) posts a request, which a step of its own
carries out. -/
namespace Sys2Proof.Machine

/-- Where a register block's offset lies (R353). -/
inductive RegAddr where
  | control (off : Nat)
  | code (part off : Nat)
  | doorbell (part q : Nat)
  | block (part off : Nat)
  | none
  deriving DecidableEq, Repr

/-- The register at a BAR0 offset of the physical function (R353). -/
def regAddr (off : Nat) : RegAddr :=
  if off < 0x80000 then .control off
  else if off < 0x80800 then .code ((off - 0x80000) / 0x100) (off % 0x100)
  else if 0x100000 ≤ off && off < 0x108000 then
    if off % 0x1000 < 0x800 then .doorbell ((off - 0x100000) / 0x1000) (off % 0x1000 / 8) else .none
  else if 0x200000 ≤ off && off < 0x208000 then .block ((off - 0x200000) / 0x1000) (off % 0x1000)
  else .none

/-- The register at an offset of virtual function v's BAR0 (R353). -/
def regAddrVf (v off : Nat) : RegAddr :=
  if off < 0x1000 then .block v off
  else if off = 0x1000 then .code v 0
  else if off = 0x1008 then .code v 8
  else if 0x2000 ≤ off && off < 0x2800 then .doorbell v ((off - 0x2000) / 8)
  else .none

/-- A Boolean field as a number. -/
def bitNat (b : Bool) : Nat := if b then 1 else 0

/-- A read of the device control block (R354); write-only and reserved fields read 0. -/
def controlRead (s : State) (off : Nat) : Nat :=
  let d := s.dev
  match off with
  | 0x000 => 0x03024800
  | 0x008 => d.fail.toNat * 256 + d.stage.toNat
  | 0x018 => bitNat d.sealed * 8 + bitNat d.keep
  | 0x020 => d.lc.toNat
  | 0x028 => d.pkg.toNat
  | 0x030 => bitNat d.locked * 2 + bitNat d.master
  | 0x038 => d.dsplit.toNat
  | 0x040 => d.mbox.toNat
  | 0x048 => d.mbuf.toNat
  | 0x050 => d.mstat.toNat
  | 0x058 => d.plimit.toNat
  | 0x060 => if s.clk = 0 then 0 else (Config.dieTemperature s.clk).toNat
  | 0x068 => d.b2base.toNat
  | _ => if 0x100 ≤ off && off < 0x500 && off % 8 = 0 then (d.routes.getD ((off - 0x100) / 8) 0x8000).toNat else 0

/-- A read of a partition's block (R355). -/
def blockRead (p : Partition) (off : Nat) : Nat :=
  match off with
  | 0x000 => p.state.toNat
  | 0x008 => p.uroot.toNat
  | 0x010 => p.sroot.toNat
  | 0x018 => p.qtab.toNat
  | 0x020 => p.ctab.toNat
  | 0x028 => p.hot.toNat
  | 0x030 => p.clus.toNat
  | 0x038 => p.dshare.toNat
  | 0x040 => p.pool.toNat
  | 0x048 => p.entry.toNat
  | 0x050 => p.tring.toNat
  | 0x058 => p.patch.toNat
  | 0x060 => p.ended.toNat
  | 0x078 => p.spare.toNat
  | 0x088 => p.errdata.toNat
  | 0x090 => p.b2base.toNat
  | _ => 0

/-- A read of the 8 B register that a block gives (R353). The device control block is reachable only where `ctl` holds. -/
def regValue (s : State) (ctl : Bool) : RegAddr → Nat
  | .control off => if ctl then controlRead s off else 0
  | .code p off => if off = 8 then (s.part p).codeStatus.toNat else 0
  | .doorbell p q => (Config.doorbellRead (s.clk * 2048 + p * 256 + q)).toNat
  | .block p off => blockRead (s.part p) off
  | .none => 0

/-- The place of a register with its offset taken down to a multiple of 8. -/
def alignReg (off : Nat) : Nat := off / 8 * 8

/-- A read of `n` bytes at a register offset. -/
def regRead (s : State) (ctl : Bool) (off n : Nat) : Nat :=
  bitsOf (regValue s ctl (regAddr (alignReg off))) (8 * (off % 8)) (8 * n)

/-- `n` bytes of device registers, one after the other. -/
def regBytes (s : State) (ctl : Bool) (off : Nat) : Nat → Nat
  | 0 => 0
  | n + 1 => regRead s ctl off 1 + 256 * regBytes s ctl (off + 1) n

/-- Whether every thread of a launch that has not halted is saved, so that the launch holds no resources (R347). -/
def Launch.away (l : Launch) : Bool :=
  !l.saved.isEmpty && l.place.all (fun p => l.halted.contains p.1 || (l.saved.get? p.1).isSome)

/-- Whether a launch holds a die scratch grant on a die (R263); one whose threads are all saved holds none (R347). -/
def State.dieScratchHeld (s : State) (die : Nat) : Bool :=
  s.launches.any (fun e => !e.2.done && !e.2.away && e.2.ds != 0 && (e.2.dsBase.get? die).isSome)

/-- A partition's share of a die's scratch in 64 KiB units, as a dshare value gives it (R355). -/
def shareOf (v : Word) (die : Nat) : Nat := bitsOf v.toNat (16 * die) 16

/-- The shares of a die's scratch that the partitions hold together, but for one of number `but` (R355). -/
def State.sharesBut (s : State) (but die : Nat) : Nat :=
  (List.range 8).foldl (fun n q => if q = but then n else n + shareOf (s.part q).dshare die) 0

/-- Whether a reset has been requested and not yet carried out, or a die has not yet returned from one (R354, R364). -/
def State.resetPending (s : State) : Bool :=
  s.reqs.any (fun r => match r with
    | .rung _ _ _ => true
    | _ => false) || s.dies.any (fun e => e.2.inReset)

/-- A write of dsplit (R263, R354, R355): bits [3:0] of every byte at most 10, a die's split no less than its partitions' shares, and no
change on a die that holds a grant; reserved bits are ignored (R7). -/
def dsplitWrite (s : State) (v : Nat) : Device :=
  let d := s.dev
  let ok := (List.range 4).all (fun k =>
    bitsOf v (8 * k) 4 ≤ 10 && s.sharesBut 8 k ≤ bitsOf v (8 * k) 4 * 512 &&
      (bitsOf v (8 * k) 4 == bitsOf d.dsplit.toNat (8 * k) 4 || !s.dieScratchHeld k))
  if ok then { d with dsplit := BitVec.ofNat 32 v &&& 0x0F0F0F0F } else d

/-- A write of the reset register (R354, R363, R365): ignored beside a reset in progress; a rung 6 during a seal is held,
and every other rung is then ignored. -/
def rungWrite (s : State) (v : Nat) : State :=
  let n := v % 8
  let target := bitsOf v 8 4
  if n < 3 || n = 7 || s.resetPending || (n = 3 && target > 7) || (n = 4 && target > 3) then s
  else if s.dev.sealing then
    if n = 6 then { s with dev := { s.dev with rung6Held := true } } else s
  else { s with reqs := s.reqs ++ [.rung n target (bitAt v 17)] }

/-- A write of the seal register (R354, R365). -/
def sealWrite (s : State) (v : Nat) : State :=
  let s := { s with dev := { s.dev with keep := bitAt v 0 } }
  let s := if bitAt v 2 then { s with reqs := s.reqs ++ [.restore] } else s
  if bitAt v 1 && !s.dev.sealing && !s.resetPending && !s.reqs.contains .startSeal then
    { s with reqs := s.reqs ++ [.startSeal] }
  else s

/-- Pod time (R360): 1 GHz beside the 1.7 GHz of the core clock (R1), slewed by at most 1 ns per µs. -/
def State.podTime (s : State) : Nat :=
  let e := s.clk - s.gclk
  let most : Int := (e / 1700 : Nat)
  (((s.gtime + e * 10 / 17 : Nat) : Int) + max (-most) (min most s.gadj)).toNat

/-- A write of the master bit (R360): a master's counter is the pod's time, so that it slews no more and lies within 25 ns of the
master's; a package that is none any more is locked once a master's time has reached it. -/
def State.setMaster (s : State) (on : Bool) : State :=
  if on == s.dev.master then s
  else { s with gtime := s.podTime, gclk := s.clk, gadj := 0, dev := { s.dev with master := on, locked := on } }

/-- A write of a device control register with its whole 64-bit value (R354). A value outside a field's range leaves the
register unchanged, and reserved bits are ignored (R7). -/
def controlWrite (s : State) (off v : Nat) : State :=
  let d := s.dev
  match off with
  | 0x010 => rungWrite s v
  | 0x018 => sealWrite s v
  | 0x028 => if d.stage.toNat < 7 then { s with dev := { d with pkg := BitVec.ofNat 7 v } } else s
  | 0x030 => s.setMaster (bitAt v 0)
  | 0x038 => { s with dev := dsplitWrite s (v % 2 ^ 32) }
  | 0x040 =>
    if d.mstat = 1 then s
    else { s with dev := { d with mbox := BitVec.ofNat 64 v, mstat := 1 }, reqs := s.reqs ++ [.mailbox] }
  | 0x048 => if v % 4096 = 0 then { s with dev := { d with mbuf := BitVec.ofNat 64 v } } else s
  | 0x058 =>
    let x := v % 2 ^ 16
    if 1000 ≤ x && x ≤ 4200 then { s with dev := { d with plimit := BitVec.ofNat 16 x } } else s
  | 0x068 => if v % 512 ≤ 383 then { s with dev := { d with b2base := BitVec.ofNat 9 v } } else s
  | _ =>
    if 0x100 ≤ off && off < 0x500 && off % 8 = 0 then
      { s with dev := { d with routes := d.routes.set ((off - 0x100) / 8) (BitVec.ofNat 16 v &&& 0x81FF) } }
    else s

/-- Whether a clus value names a cluster of another partition (R355). -/
def State.clusTaken (s : State) (p : Nat) (v : Word) : Bool :=
  (List.range 8).any (fun q => q != p && (s.part q).clus &&& v != 0)

/-- Whether a dshare value keeps R263 and R355: within the die's split beside the other partitions' shares, and no change on a die
that holds a grant. -/
def State.dshareOk (s : State) (p : Nat) (v : Word) : Bool :=
  (List.range 4).all (fun k =>
    shareOf v k + s.sharesBut p k ≤ bitsOf s.dev.dsplit.toNat (8 * k) 4 * 512 &&
      (shareOf v k == shareOf (s.part p).dshare k || !s.dieScratchHeld k))

/-- A word of a log entry (R284, log entry 101): 0 gives the structure and the location as R283 lays them out, 1 the clk, 2 how it was
found. -/
def ErrEntry.word (e : ErrEntry) (n : Nat) : Word :=
  match n with
  | 0 => BitVec.ofNat 64 (e.structCode * 2 ^ 56 + e.location % 2 ^ 56)
  | 1 => BitVec.ofNat 64 e.clk
  | 2 => BitVec.ofNat 64 e.how
  | _ => 0

/-- What errsel selects (R284, R355): a count of corrected errors, or of uncorrectable ones with bit 0 of the entry field, by the
row of R280's table from 1 (log entry 101); or, of a log entry, the word that the structure field names. -/
def State.errSelect (s : State) (v : Nat) : Word :=
  let d := s.die (bitsOf v 16 2)
  if bitAt v 18 then (d.log[bitsOf v 0 8]?).elim 0 (fun e => e.word (bitsOf v 8 8))
  else BitVec.ofNat 64 ((if bitAt v 0 then d.uncorrectable else d.corrected).getD (bitsOf v 8 8) 0)

/-- A write of a partition register with its whole value (R355); `vf` says that it comes through a virtual function, which
cannot write clus, dshare, pool and b2base. -/
def blockWrite (s : State) (vf : Bool) (p off : Nat) (v : Word) : State :=
  let x := s.part p
  match off with
  | 0x008 => s.setPart p { x with uroot := v &&& 0x000FFFFFFFFFF001 }
  | 0x010 => s.setPart p { x with sroot := v &&& 0x000FFFFFFFFFF001 }
  | 0x018 => s.setPart p { x with qtab := v }
  | 0x020 => s.setPart p { x with ctab := v }
  | 0x028 => s.setPart p { x with hot := v }
  | 0x030 => if vf || x.state = 1 || s.clusTaken p v then s else s.setPart p { x with clus := v }
  | 0x038 => if vf || !s.dshareOk p v then s else s.setPart p { x with dshare := v }
  | 0x040 => if vf || bitsOf v.toNat 16 8 > 128 then s else s.setPart p { x with pool := v.truncate 24 }
  | 0x048 => s.setPart p { x with entry := v }
  | 0x050 => s.setPart p { x with tring := v.truncate 32 }
  | 0x060 =>
    let n : BitVec 32 := v.truncate 32
    { s.setPart p { x with ended := n } with
      launches := s.launches.map (fun e =>
        if e.2.part = p && e.2.num = n && !e.2.done then (e.1, { e.2 with outcome := some (e.2.outcome.getD 4) }) else e) }
  | 0x068 => if v.extractLsb' 8 2 = 1 then { s with reqs := s.reqs ++ [.qreset p (bitsOf v.toNat 0 8)] } else s
  | 0x070 =>
    if bitsOf v.toNat 0 3 ≤ 4 then { s with reqs := s.reqs ++ [.ereset p (bitsOf v.toNat 0 3) (bitsOf v.toNat 8 8)] }
    else s
  | 0x078 => s.setPart p { x with spare := v.truncate 32 }
  | 0x080 => s.setPart p { x with errdata := s.errSelect v.toNat }
  | 0x090 => if vf || bitsOf v.toNat 0 9 > 383 then s else s.setPart p { x with b2base := v.truncate 9 }
  | _ => s

/-- A register's value with the `n` bytes at byte `o` replaced; a write-only register has zeros around them. -/
def mergeReg (old o n v : Nat) : Nat := setBits old (8 * o) (8 * n) v

/-- A write of the register at a place (R353). -/
def regWriteAt (s : State) (ctl vf : Bool) (a : RegAddr) (o n v : Nat) : State :=
  match a with
  | .control off =>
    if !ctl then s
    else controlWrite s off (mergeReg (if off = 0x018 then bitNat s.dev.keep else controlRead s off) o n v)
  | .code p off => if off = 0 then { s with reqs := s.reqs ++ [.code p (BitVec.ofNat 64 (mergeReg 0 o n v))] } else s
  | .doorbell p q => { s with reqs := s.reqs ++ [.doorbell p q (BitVec.ofNat 64 (mergeReg 0 o n v))] }
  | .block p off => blockWrite s vf p off (BitVec.ofNat 64 (mergeReg (blockRead (s.part p) off) o n v))
  | .none => s

/-- A write of `n` bytes at an offset of the physical function's registers. -/
def regWrite (s : State) (ctl : Bool) (off n v : Nat) : State :=
  regWriteAt s ctl false (regAddr (alignReg off)) (off % 8) n v

/-- What a read of `n` bytes at an offset of virtual function v's BAR0 returns to the host (R353). -/
def regReadVf (s : State) (v off n : Nat) : Nat :=
  bitsOf (regValue s false (regAddrVf v (alignReg off))) (8 * (off % 8)) (8 * n)

/-- REGISTER_WRITE (R353 to R355): a host write to a BAR0 offset; an offset of 2^32 × (v + 1) + x is offset x of virtual
function v's BAR0. -/
def execRegisterWrite (off n : Nat) (value : BitVec 64) (s : State) : Host.Outcome State Fault Refusal :=
  .next (if off < 2 ^ 32 then regWrite s true off n value.toNat
    else regWriteAt s false true (regAddrVf (off / 2 ^ 32 - 1) (alignReg (off % 2 ^ 32))) (off % 8) n value.toNat)

end Sys2Proof.Machine
end

