-- ==== Sys2Proof/Machine/Access.lean ====
section
/-! DEFINITION. Accesses of threads to storage (R95 to R100, R163 to R165, R244 to R254, R277, R281): what a load reads and
a store writes, with the L1's dirty STRM bytes, the copy a lease holds, the device registers, the ranking of sequentially
consistent accesses, the mixed-size check and the hotness counters. -/
namespace Sys2Proof.Machine

/-- An order with its scope (R62, R63). -/
structure Order where
  acq : Bool
  rel : Bool
  sc : Bool
  scope : Nat
  deriving DecidableEq, Repr

/-- No order. -/
def Order.relaxed : Order := ⟨false, false, false, 0⟩
/-- Whether an order is relaxed. -/
def Order.isRelaxed (o : Order) : Bool := !o.acq && !o.rel && !o.sc

/-- The order field of LS and ST, which applies at package scope (R62). -/
def lsOrder (o : BitVec 2) : Order := ⟨o == 1 || o == 3, o == 2 || o == 3, o == 3, 4⟩

/-- OS5 (R63). -/
def os5Order (o : BitVec 5) : Order :=
  if o = 7 then Order.relaxed
  else
    let k := (o.extractLsb' 3 2).toNat
    ⟨k != 1, k != 0, k == 3, (o.extractLsb' 0 3).toNat⟩

/-! ## The L1's dirty STRM bytes (R250) -/

/-- The 32-bit words that the bytes [a, a+n) lie in. -/
def wordsIn (a n : Nat) : List Nat := (List.range ((a + n + 3) / 4 - a / 4)).map (fun i => (a / 4 + i) * 4)

/-- The poisoned words of an L1 after a clean store to [a, a+n): a word that it covers whole is clean, and one that it covers
in part is poisoned where `before` finds a byte of it poisoned (R281). -/
def partialBad (bad : List Nat) (before : Nat → Bool) (a n : Nat) : List Nat :=
  let whole (w : Nat) : Bool := a ≤ w && w + 4 ≤ a + n
  bad.filter (fun w => !whole w) ++
    (wordsIn a n).filter (fun w => !whole w && !bad.contains w && (List.range 4).any (fun i => before (w + i)))

/-- Writes a core's dirty STRM bytes of the lines `p` selects to their homes, with their poison. -/
def State.flushStrm (s : State) (core : Nat) (p : Nat → Bool) : State :=
  let c := s.core core
  let out := c.strm.filter (fun e => p (lineOf e.1))
  if out.isEmpty then s
  else
    let bad (e : Nat × Byte) : Bool := c.strmBad.contains (e.1 / 4 * 4)
    let s := s.setCore core { c with strm := c.strm.filter (fun e => !p (lineOf e.1)), strmBad := c.strmBad.filter (fun w => !p (lineOf w)) }
    let s := out.foldl (fun s e => s.write none e.1 1 e.2.toNat) s
    (s.clearCovered (out.map Prod.fst)).addPoison ((out.filter bad).map (fun e => granuleOf e.1))

/-- Whether a dirty STRM byte of a core is homed on a die in reset, which holds its way home (R364). -/
def State.flushHeld (s : State) (core : Nat) : Bool := (s.core core).strm.any (fun e => s.homeDown e.1 1)

/-- The release part of an order: at cluster scope or wider every dirty STRM byte of the core goes home first (R250). -/
def State.release (s : State) (core scope : Nat) : State := if scope ≥ 2 then s.flushStrm core (fun _ => true) else s

/-- Whether a release at a scope must wait for a die in reset (R364). -/
def State.releaseHeld (s : State) (core scope : Nat) : Bool := scope ≥ 2 && s.flushHeld core

/-- What an order does before its access (R100, R250). -/
def State.before (s : State) (o : Order) : State := if o.rel then s.release (coreOf s.cur) o.scope else s

/-! ## Reading and writing one part of an access -/

/-- Whether a part lies in this package's device registers (R265). -/
def State.isReg (s : State) (pa attr : Nat) : Bool :=
  attr != 3 && pa < 2 ^ 52 && paPkg pa == s.dev.pkg.toNat && isDevReg (paOff pa)

/-- Whether a slot reaches the device control block (R353): through the supervisor root of partition 0. -/
def State.reachesControl (s : State) (k : Nat) : Bool := isSpring k && (s.thread k).part == 0

/-- One byte as the threads of a core read it, whatever their pages' attributes: its dirty STRM byte, or the byte at home
(R245, R250). -/
def State.coreByte (s : State) (core a : Nat) : Byte := (s.core core).strm.getD a (memByte s.mem a)

/-- `n` bytes as the threads of a core read them. -/
def State.coreNat (s : State) (core a : Nat) : Nat → Nat
  | 0 => 0
  | n + 1 => (s.coreByte core a).toNat + 256 * s.coreNat core (a + 1) n

/-- `n` bytes of a lease's copy over storage (R170). -/
def leaseNat (m : List Host.Cell) (buf : Tab Byte) (a : Nat) : Nat → Nat
  | 0 => 0
  | n + 1 => (buf.getD a (memByte m a)).toNat + 256 * leaseNat m buf (a + 1) n

/-- Whether the slot's own lease region covers an address, and holds it (R170). -/
def State.ownLease (s : State) (k pa : Nat) : Option Bool :=
  match (s.thread k).region with
  | some l => if l.lines.contains (lineOf pa) then some (l.holds s.clk) else none
  | none => none

/-- The value a slot's load reads from one part (R95, R170, R250, R264). -/
def State.loadPart (s : State) (k pa attr n : Nat) : Nat :=
  if s.isReg pa attr then
    (if n ≤ 8 then regRead s (s.reachesControl k) (paOff pa - 0x100000000000) n
     else regBytes s (s.reachesControl k) (paOff pa - 0x100000000000) n)
  else match (s.thread k).region with
    | some l =>
      if l.lines.contains (lineOf pa) && l.holds s.clk then leaseNat s.mem l.buf pa n
      else s.coreNat (coreOf k) pa n
    | none => s.coreNat (coreOf k) pa n

/-- Whether a byte is poisoned as a slot reads it: in its lease's copy, among its core's dirty STRM bytes, or at home
(R280). -/
def State.byteBad (s : State) (k a : Nat) : Bool :=
  let c := s.core (coreOf k)
  let base := if (c.strm.get? a).isSome then c.strmBad.contains (a / 4 * 4) else s.poison.contains (granuleOf a)
  match (s.thread k).region with
  | some l => if l.holds s.clk && (l.buf.get? a).isSome then l.bad.contains (a / 4 * 4) else base
  | none => base

/-- Whether the L1 of a slot's core holds a byte as the slot reads it: in its lease's copy, or as a dirty STRM byte. -/
def State.inL1 (s : State) (k a : Nat) : Bool :=
  (s.thread k).region.any (fun l => l.holds s.clk && (l.buf.get? a).isSome) || ((s.core (coreOf k)).strm.get? a).isSome

/-- The word of 32 bits of an L1, or of the width of its home's words, that a byte lies in as a slot reads it (R280). -/
def State.wordOf (s : State) (k a : Nat) : Nat := if s.inL1 k a then a / 4 * 4 else granuleOf a

/-- The machine-check tval of a poisoned word of storage (R283). -/
def memTval (pa : Nat) : Word :=
  if pa < 2 ^ 56 then BitVec.ofNat 64 (6 * 2 ^ 56 + pa)
  else if pa < 2 ^ 57 then BitVec.ofNat 64 (5 * 2 ^ 56 + pa % 2 ^ 20)
  else BitVec.ofNat 64 (6 * 2 ^ 56 + pa % 2 ^ 30)

/-- The machine-check tval of a byte that a slot reads poisoned (R283); a word of an L1 is one of the core pool (R280, log entry
101). -/
def State.byteTval (s : State) (k a : Nat) : Word :=
  if s.inL1 k a then BitVec.ofNat 64 (5 * 2 ^ 56 + a / 4 * 4 % 2 ^ 56) else memTval (granuleOf a)

/-- The first poisoned byte among the `n` bytes at an address, as a slot reads them. -/
def State.firstBad (s : State) (k pa n : Nat) : Option Nat := ((List.range n).map (· + pa)).find? (s.byteBad k)

/-- The first poisoned word among the `n` bytes at an address, as a slot reads them (R283). -/
def State.badWord (s : State) (k pa n : Nat) : Option Nat := (s.firstBad k pa n).map (s.wordOf k)

/-- The machine-check tval of the first poisoned word among the `n` bytes at an address, as a slot reads them (R283). -/
def State.badTval (s : State) (k pa n : Nat) : Option Word := (s.firstBad k pa n).map (s.byteTval k)

/-- The first poisoned granule among the `n` bytes at an address as they stand at home, as agents read them (R280, R283). -/
def State.homeBad (s : State) (pa n : Nat) : Option Nat := ((List.range n).map (fun i => granuleOf (pa + i))).find? s.poison.contains

/-- `n` bytes at an address as an agent reads them: registers, or storage at home. -/
def State.homeRead (s : State) (ctl : Bool) (pa attr n : Nat) : Nat :=
  if s.isReg pa attr then regBytes s ctl (paOff pa - 0x100000000000) n else s.read pa n

/-- Puts bytes into a table of bytes. -/
def bufPut (b : Tab Byte) (a : Nat) : Nat → Nat → Tab Byte
  | 0, _ => b
  | n + 1, v => bufPut (b.set a (BitVec.ofNat 8 v)) (a + 1) n (v / 256)

/-- A write of a slot performed at home: dirty STRM bytes of its lines in the slot's core, which are earlier writes, go there
first (R243, R245). -/
def State.storeHome (s : State) (k pa n v : Nat) : State :=
  (s.flushStrm (coreOf k) (linesOf pa n).contains).write (some k) pa n v

/-- Tells the other slots of a slot's core of its store to an STRM line, which is performed for them (R245): it breaks their links
(R177, R258) and starts comparison passes (R181). The rest of the device is told when the bytes go home. -/
def State.noteCore (s : State) (k : Nat) (lines : List Nat) : State :=
  { s with threads := s.threads.map (fun e =>
      (e.1, if coreOf e.1 == coreOf k then e.2.noteWrite (e.1 == k) lines else e.2)) }

/-- Puts a store's bytes among the dirty STRM bytes of the slot's core (R250). -/
def State.storeStrm (s : State) (k pa n v : Nat) : State :=
  let c := s.core (coreOf k)
  s.setCore (coreOf k) { c with strm := bufPut c.strm pa n v, strmBad := partialBad c.strmBad (s.byteBad k) pa n }

/-- What a slot's store does to one part (R95, R170, R172, R250). -/
def State.storePart (s : State) (k pa attr n v : Nat) : State :=
  if s.isReg pa attr then regWrite s (s.reachesControl k) (paOff pa - 0x100000000000) n v
  else match s.ownLease k pa, (s.thread k).lease with
    | some true, some l =>
      s.setThread k { s.thread k with
        lease := some { l with buf := bufPut l.buf pa n v, bad := partialBad l.bad (s.byteBad k) pa n } }
    | some false, _ => s
    | _, _ =>
      if attr = 1 then (s.noteCore k (linesOf pa n)).storeStrm k pa n v else s.storeHome k pa n v

/-- Parts of one byte, as a misaligned relaxed access is performed (R99). -/
def bytePieces (sp : List Span) : List Span :=
  sp.flatMap (fun p => (List.range p.n).map (fun i => ⟨p.pa + i, p.attr, 1⟩))

/-- The parts a scalar access is performed in (R99). -/
def pieces (va n : Nat) (sp : List Span) : List Span := if va % n = 0 then sp else bytePieces sp

/-- The value a load of several parts reads. -/
def State.loadParts (s : State) (k : Nat) : List Span → Nat
  | [] => 0
  | p :: t => s.loadPart k p.pa p.attr p.n + 2 ^ (8 * p.n) * s.loadParts k t

/-- The stores of several parts. -/
def State.storeParts (s : State) (k : Nat) : List Span → Nat → State
  | [], _ => s
  | p :: t, v => (s.storePart k p.pa p.attr p.n (v % 2 ^ (8 * p.n))).storeParts k t (v / 2 ^ (8 * p.n))

/-- Whether some part holds poison, as a slot reads it (R281). -/
def State.partsPoisoned (s : State) (k : Nat) (sp : List Span) : Bool := sp.any (fun p => (s.badWord k p.pa p.n).isSome)

/-- Poisons what a slot has stored to one part (R281): in its lease's copy, among its core's dirty STRM bytes, or at home. -/
def State.poisonPart (s : State) (k : Nat) (p : Span) : State :=
  match s.ownLease k p.pa, (s.thread k).lease with
  | some true, some l => s.setThread k { s.thread k with lease := some { l with bad := (l.bad ++ wordsIn p.pa p.n).eraseDups } }
  | some false, _ => s
  | _, _ =>
    if p.attr = 1 then
      let c := s.core (coreOf k)
      s.setCore (coreOf k) { c with strmBad := (c.strmBad ++ wordsIn p.pa p.n).eraseDups }
    else s.addPoison ((bytePieces [p]).map (fun b => granuleOf b.pa))

/-- Poisons what a slot has stored to several parts. -/
def State.poisonParts (s : State) (k : Nat) (sp : List Span) : State := sp.foldl (fun s p => s.poisonPart k p) s

/-! ## What holds an access back -/

/-- Whether another slot's lease holds a line (R170). -/
def State.leaseHeld (s : State) (k line : Nat) : Bool :=
  s.threads.any (fun e => e.1 != k && (match e.2.lease with
    | some l => l.lines.contains line && l.holds s.clk
    | none => false))

/-- Whether the parts cannot be performed: for another slot's lease, or for a die in reset. -/
def State.awayHeld (s : State) (k : Nat) (sp : List Span) : Bool :=
  sp.any (fun p => s.homeDown p.pa p.attr || (linesOf p.pa p.n).any (s.leaseHeld k))

/-- Whether the parts lie behind an atomic that another slot of the core has issued to one of their lines and that waits at its
home: the core's accesses are performed in port order for its threads (R100, R245). The slot's own leased copy lies behind none. -/
def State.portBehind (s : State) (k : Nat) (sp : List Span) : Bool :=
  s.amoq.any (fun e => e.core == coreOf k && e.slot != k &&
    sp.any (fun p => s.ownLease k p.pa != some true && (linesOf p.pa p.n).contains (lineOf e.pa)))

/-- Whether the parts must wait: for another slot's lease, for a die in reset, or behind an earlier atomic of the core. -/
def State.partsHeld (s : State) (k : Nat) (sp : List Span) : Bool := s.awayHeld k sp || s.portBehind k sp

/-- Whether an .sc access of a slot's core is still to be performed, which holds the core's port (R249), or an AMO of the slot
waits at its home, behind which the slot's own accesses stay (R100, R166). -/
def State.portHeld (s : State) (k : Nat) : Bool :=
  s.scq.any (fun e => e.core == coreOf k) || s.amoq.any (fun e => e.slot == k)

/-- Whether an access of a slot has issued and is still to be performed. -/
def State.unperformed (s : State) (k : Nat) : Bool := s.scq.any (fun e => e.slot == k) || s.amoq.any (fun e => e.slot == k)

/-- Whether every part lies on lines that the slot's own lease holds: such an access acts on the thread's copy and waits for
nothing (R170, R175). -/
def State.ownCopy (s : State) (k : Nat) (sp : List Span) : Bool := sp.all (fun p => s.ownLease k p.pa == some true)

/-! ## The mixed-size check and the hotness counters -/

/-- Whether a strong access differs in size from the last strong access recorded for its line and shares a byte with it
(R254). -/
def State.mixes (s : State) (pa n : Nat) : Bool :=
  match s.strong.get? (lineOf pa) with
  | some (a, z, c) => z != n && a < pa + n && pa < a + z && s.clk ≤ c + 2 ^ 16
  | none => false

/-- Records a strong access (R254). -/
def State.noteStrong (s : State) (pa n : Nat) : State := { s with strong := s.strong.set (lineOf pa) (pa, n, s.clk) }

/-- The kinds of hotness counter (R277). -/
inductive Heat where
  | unit
  | strided
  | indexed
  deriving DecidableEq, Repr

/-- Adds one to a 16-bit counter that saturates (R277). -/
def sat16 (n : Nat) : Nat := min (n + 1) 0xFFFF

/-- The epoch of a clk (R278). -/
def epochAt (clk : Nat) : Nat := clk / 65536

/-- One more count in a hotness entry (R277). -/
def HotEntry.bump (e : HotEntry) (h : Heat) : HotEntry :=
  match h with
  | .unit => { e with u := sat16 e.u }
  | .strided => { e with t := sat16 e.t }
  | .indexed => { e with i := sat16 e.i }

/-- Counts an access in the region of its first byte at its home slice, by partition, while the partition's hotness table is on
(R277, R278). An entry of an earlier epoch is put aside to be written; so is the least recently counted region of a slice
that holds 8,192. -/
def State.count (s : State) (part pa attr : Nat) (h : Heat) : State :=
  if attr = 3 || (s.part part).hot = 0 || paPkg pa != s.dev.pkg.toNat || !(isNear (paOff pa) || isFar (paOff pa)) then s
  else
    let slice := homeDie pa * 16 + homeSlice pa
    let region := paOff pa / 65536
    let here (e : HotEntry) : Bool := e.part == part && e.slice == slice && e.region == region
    let rest := s.hotness.filter (fun e => !here e)
    let fresh : HotEntry := ⟨part, slice, region, epochAt s.clk, 0, 0, 0⟩
    match s.hotness.find? here with
    | some e =>
      if e.epoch = fresh.epoch then { s with hotness := rest ++ [e.bump h] }
      else { s with hotness := rest ++ [fresh.bump h], hotOut := s.hotOut ++ [e] }
    | none =>
      if (s.hotness.filter (fun e => e.slice == slice)).length < 8192 then { s with hotness := s.hotness ++ [fresh.bump h] }
      else match s.hotness.find? (fun e => e.slice == slice) with
        | some e => { s with hotness := s.hotness.erase e ++ [fresh.bump h], hotOut := s.hotOut ++ [e] }
        | none => { s with hotness := s.hotness ++ [fresh.bump h] }

/-- Whether the core's L1 satisfies an access: on the thread's leased copy, or on a line of which it holds dirty STRM bytes
(R277). -/
def State.servedByL1 (s : State) (k : Nat) (p : Span) : Bool :=
  s.ownLease k p.pa == some true || (p.attr == 1 && (s.core (coreOf k)).strm.any (fun e => lineOf e.1 == lineOf p.pa))

/-- Counts a part that a slot reads or writes, unless its L1 serves it (R277). -/
def State.countPart (s : State) (k : Nat) (h : Heat) (p : Span) : State :=
  if s.servedByL1 k p then s else s.count (s.thread k).part p.pa p.attr h

/-- Counts a part that a slot has its home perform (R277): every one, but for the thread's own leased copy. -/
def State.countHome (s : State) (k : Nat) (h : Heat) (sp : List Span) : State :=
  match sp with
  | [] => s
  | p :: _ => if s.ownLease k p.pa == some true then s else s.count (s.thread k).part p.pa p.attr h

/-- Counts a scalar access, by its first part. -/
def State.countParts (s : State) (k : Nat) (h : Heat) : List Span → State
  | [] => s
  | p :: _ => s.countPart k h p

/-! ## Scalar loads and stores -/

/-- The checks of R97 on the current slot's access, with what holds it back after them (R98, R105, R170, R249, R364). -/
def checkAccess (s : State) (need : Need) (o : Order) (va n : Nat) : Res (List Span) :=
  if s.thr.memQueued || (o.rel && s.releaseHeld (coreOf s.cur) o.scope) then stall s
  else match s.resolve s.cur need (!o.isRelaxed) va n with
    | .error e => .error ⟨s, e⟩
    | .ok sp =>
      if s.ownCopy s.cur sp then .ok (pieces va n sp)
      else if s.portHeld s.cur || s.partsHeld s.cur sp then stall s
      else .ok (pieces va n sp)

/-- A strong access (R253): the mixed-size check of R254 on it. -/
def strongCheck (s : State) (strong : Bool) (va n : Nat) (sp : List Span) : Res Unit :=
  match sp with
  | [] => .ok ()
  | p :: _ =>
    if strong && s.thr.dbg.getLsbD 1 && s.mixes p.pa n then trapNow s 0x06 (BitVec.ofNat 64 (va + 2 ^ 63)) else .ok ()

/-- The home's record of a strong access that it performs (R254): none of one to the thread's own leased copy, nor of a store that
its expired lease discards. -/
def State.noteParts (s : State) (strong : Bool) (n : Nat) (sp : List Span) : State :=
  match sp with
  | [] => s
  | p :: _ => if strong then s.noteStrong p.pa n else s

/-- A loaded value extended to 64 bits (R95). -/
def extendLoad (signed : Bool) (n v : Nat) : Word :=
  if signed then BitVec.ofInt 64 (signedOf v (8 * n)) else BitVec.ofNat 64 v

/-- The registers a load's result writes: g[d], with its poison where the loaded bytes hold any (R281). -/
def loadRegs (d : Nat) (v : Word) (poisoned : Bool) : List (Nat × Word) :=
  if d = 0 then [] else if poisoned then [(d, v), (codePoison + d, 1)] else [(d, v)]

/-- Announces an .sc access (R249). -/
def State.announce (s : State) (sp : List Span) (n d : Nat) (kind : ScKind) : State :=
  match sp with
  | [] => s
  | p :: _ =>
    { s with scq := s.scq ++ [⟨s.uid + 1, s.cur, s.clk / 8, coreOf s.cur, p.pa, p.attr, n, d, kind⟩], uid := s.uid + 1 }

/-- Adds the pending result of an announced access to the registers it writes (R21, R249). -/
def State.addScPend (s : State) (id : Nat) (rs : List Nat) : State :=
  let t := s.thr
  let rs := rs.filter (· != 0)
  s.putThr { t with pend := rs.foldl (fun ps r => ps.map (Pend.drop r)) t.pend ++ [.sc id rs] }

/-- A scalar load of `n` bytes at a virtual address into g[d] (R95, R97). An .sc load of the thread's own leased copy reads it at
issue. -/
def loadScalar (s : State) (d va n : Nat) (signed : Bool) (o : Order) : Res State := do
  let sp ← checkAccess s .load o va n
  strongCheck s (!o.isRelaxed) va n sp
  let s := s.before o
  if o.sc && !s.ownCopy s.cur sp then
    let s := s.countHome s.cur .unit sp
    .ok ((s.announce sp n d (.load signed)).addScPend (s.uid + 1) [d])
  else
    let s := (s.countParts s.cur .unit sp).noteParts (!o.isRelaxed && !s.ownCopy s.cur sp) n sp
    let v := extendLoad signed n (s.loadParts s.cur sp)
    let s := if o.sc then s.announce sp n 0 .done else s
    .ok (s.addPend (loadRegs d v (s.partsPoisoned s.cur sp)))

/-- A scalar store of the low `n` bytes of a value (R95, R97). An .sc store to the thread's own leased copy, or one that its
expired lease discards, has its effect at issue. -/
def storeScalar (s : State) (va n : Nat) (v : Word) (poisoned : Bool) (o : Order) : Res State := do
  let sp ← checkAccess s .store o va n
  strongCheck s (!o.isRelaxed) va n sp
  let s := s.before o
  let x := v.toNat % 2 ^ (8 * n)
  let leased := sp.all (fun p => (s.ownLease s.cur p.pa).isSome)
  if o.sc && !leased then .ok ((s.countHome s.cur .unit sp).announce sp n 0 (.store x poisoned))
  else
    let s := ((s.countParts s.cur .unit sp).noteParts (!o.isRelaxed && !leased) n sp).storeParts s.cur sp x
    let s := if poisoned then s.poisonParts s.cur sp else s
    .ok (if o.sc then s.announce sp n 0 .done else s)

/-- The effective address of LS and ST (R95). -/
def ea10 (x : Word) (i : BitVec 10) : Nat := (x + i.signExtend 64).toNat

/-- A load of major 0x10 (R95). -/
def loadLs (w : Bool) (d a : BitVec 5) (o : BitVec 2) (i : BitVec 10) (n : Nat) (signed : Bool) (s : State) : Res State := do
  let s ← waitW w s
  let (x, s) ← readG s a.toNat
  let s ← loadScalar s d.toNat (ea10 x i) n signed (lsOrder o)
  .ok (s.advance 4)

/-- A store of major 0x11 (R95): g[b] is read at issue. -/
def storeSt (w : Bool) (o : BitVec 2) (a b : BitVec 5) (i : BitVec 10) (n : Nat) (s : State) : Res State := do
  let s ← waitW w s
  let (x, s) ← readG s a.toNat
  let (v, poisoned, s) ← readGData s b.toNat
  let s ← storeScalar s (ea10 x i) n v poisoned (lsOrder o)
  .ok (s.advance 4)

/-- The width in bytes of a size code (R64). -/
def sizeBytes (c : Nat) : Nat := 2 ^ (c % 4)

end Sys2Proof.Machine
end

