-- ==== Sys2Proof/Machine/LoadStore.lean ====
section
/-! DEFINITION. Scalar loads and stores (R95, R96). -/
namespace Sys2Proof.Machine

/-- LB (R95). -/
def execLb (w : Bool) (d a : BitVec 5) (o : BitVec 2) (i : BitVec 10) (s : State) : Host.Outcome State Fault Refusal :=
  finish s (loadLs w d a o i 1 true s)

/-- LH (R95). -/
def execLh (w : Bool) (d a : BitVec 5) (o : BitVec 2) (i : BitVec 10) (s : State) : Host.Outcome State Fault Refusal :=
  finish s (loadLs w d a o i 2 true s)

/-- LW (R95). -/
def execLw (w : Bool) (d a : BitVec 5) (o : BitVec 2) (i : BitVec 10) (s : State) : Host.Outcome State Fault Refusal :=
  finish s (loadLs w d a o i 4 true s)

/-- LD (R95). -/
def execLd (w : Bool) (d a : BitVec 5) (o : BitVec 2) (i : BitVec 10) (s : State) : Host.Outcome State Fault Refusal :=
  finish s (loadLs w d a o i 8 false s)

/-- LBN (R95). -/
def execLbn (w : Bool) (d a : BitVec 5) (o : BitVec 2) (i : BitVec 10) (s : State) : Host.Outcome State Fault Refusal :=
  finish s (loadLs w d a o i 1 false s)

/-- LHN (R95). -/
def execLhn (w : Bool) (d a : BitVec 5) (o : BitVec 2) (i : BitVec 10) (s : State) : Host.Outcome State Fault Refusal :=
  finish s (loadLs w d a o i 2 false s)

/-- LWN (R95). -/
def execLwn (w : Bool) (d a : BitVec 5) (o : BitVec 2) (i : BitVec 10) (s : State) : Host.Outcome State Fault Refusal :=
  finish s (loadLs w d a o i 4 false s)

/-- SB (R95). -/
def execSb (w : Bool) (o : BitVec 2) (a b : BitVec 5) (i : BitVec 10) (s : State) : Host.Outcome State Fault Refusal :=
  finish s (storeSt w o a b i 1 s)

/-- SH (R95). -/
def execSh (w : Bool) (o : BitVec 2) (a b : BitVec 5) (i : BitVec 10) (s : State) : Host.Outcome State Fault Refusal :=
  finish s (storeSt w o a b i 2 s)

/-- SW (R95). -/
def execSw (w : Bool) (o : BitVec 2) (a b : BitVec 5) (i : BitVec 10) (s : State) : Host.Outcome State Fault Refusal :=
  finish s (storeSt w o a b i 4 s)

/-- SD (R95). -/
def execSd (w : Bool) (o : BitVec 2) (a b : BitVec 5) (i : BitVec 10) (s : State) : Host.Outcome State Fault Refusal :=
  finish s (storeSt w o a b i 8 s)

/-- LOAD_SCOPED (R96): a load ordered by OS5, with no offset. -/
def execLoadScoped (w : Bool) (d a : BitVec 5) (sz : BitVec 3) (o : BitVec 5) (s : State) : Host.Outcome State Fault Refusal :=
  finish s do
    let s ← waitW w s
    let (x, s) ← readG s a.toNat
    let s ← loadScalar s d.toNat x.toNat (sizeBytes sz.toNat) (sz.toNat < 3) (os5Order o)
    .ok (s.advance 4)

/-- STORE_SCOPED (R96): a store ordered by OS5, with no offset. -/
def execStoreScoped (w : Bool) (a b : BitVec 5) (sz : BitVec 2) (o : BitVec 5) (s : State) : Host.Outcome State Fault Refusal :=
  finish s do
    let s ← waitW w s
    let (x, s) ← readG s a.toNat
    let (v, poisoned, s) ← readGData s b.toNat
    let s ← storeScalar s x.toNat (sizeBytes sz.toNat) v poisoned (os5Order o)
    .ok (s.advance 4)

end Sys2Proof.Machine
end

