-- ==== Sys2Proof/Machine/Num.lean ====
section
/-! DEFINITION. Number formats and arithmetic (02, R31 to R58): the tag codes, the values of the codes, rounding and
overflow, the correctly rounded functions, stochastic rounding and the derivation of block scales. A finite value is an
exact fraction of natural numbers with a sign; an instruction computes exactly and rounds once at the end (R43). -/
namespace Sys2Proof

/-- A binary floating-point format of R34. -/
structure Fp where
  width : Nat
  fbits : Nat
  bias : Nat
  /-- The largest finite code, sign bit excluded. -/
  maxCode : Nat
  /-- Whether the format has infinities. -/
  hasInf : Bool
  /-- Whether the format has NaN codes. -/
  hasNan : Bool
  /-- The canonical NaN of R37. -/
  canonNan : Nat
  deriving DecidableEq, Repr

/-- binary16. -/
def Fp.fp16 : Fp := ⟨16, 10, 15, 0x7BFF, true, true, 0x7E00⟩
/-- bfloat16. -/
def Fp.bf16 : Fp := ⟨16, 7, 127, 0x7F7F, true, true, 0x7FC0⟩
/-- binary32. -/
def Fp.fp32 : Fp := ⟨32, 23, 127, 0x7F7FFFFF, true, true, 0x7FC00000⟩
/-- binary64. -/
def Fp.fp64 : Fp := ⟨64, 52, 1023, 0x7FEFFFFFFFFFFFFF, true, true, 0x7FF8000000000000⟩
/-- E4M3: no infinity, and the one NaN magnitude 0x7F (R34). -/
def Fp.e4m3 : Fp := ⟨8, 3, 7, 0x7E, false, true, 0x7F⟩
/-- E5M2. -/
def Fp.e5m2 : Fp := ⟨8, 2, 15, 0x7B, true, true, 0x7E⟩
/-- E2M1: neither infinity nor NaN (R34, R36). -/
def Fp.e2m1 : Fp := ⟨4, 1, 1, 0x7, false, false, 0⟩

/-- The kind of a format (R31). -/
inductive Kind where
  /-- The untagged code 0x00. -/
  | untagged
  /-- Sn. -/
  | sint
  /-- Nn. -/
  | nint
  /-- A binary floating-point format. -/
  | float (f : Fp)
  /-- VF4. -/
  | vf4
  /-- SCALE8. -/
  | scale8
  /-- VSCALE. -/
  | vscale
  /-- 0x13 to 0x1F. -/
  | reserved
  deriving DecidableEq, Repr

/-- The kind of a tag code (R31). -/
def fmtKind (c : Nat) : Kind :=
  match c with
  | 0x00 => .untagged
  | 0x01 => .sint | 0x02 => .nint | 0x03 => .sint | 0x04 => .nint
  | 0x05 => .sint | 0x06 => .nint | 0x07 => .sint | 0x08 => .nint
  | 0x09 => .float Fp.fp16 | 0x0A => .float Fp.bf16 | 0x0B => .float Fp.fp32 | 0x0C => .float Fp.fp64
  | 0x0D => .float Fp.e4m3 | 0x0E => .float Fp.e5m2 | 0x0F => .float Fp.e2m1
  | 0x10 => .vf4 | 0x11 => .scale8 | 0x12 => .vscale
  | _ => .reserved

/-- The width in bits of a tag code's elements (R31); 0 for untagged and reserved codes. -/
def fmtWidth (c : Nat) : Nat :=
  match c with
  | 0x01 => 8 | 0x02 => 8 | 0x03 => 16 | 0x04 => 16 | 0x05 => 32 | 0x06 => 32 | 0x07 => 64 | 0x08 => 64
  | 0x09 => 16 | 0x0A => 16 | 0x0B => 32 | 0x0C => 64 | 0x0D => 8 | 0x0E => 8 | 0x0F => 4
  | 0x10 => 4 | 0x11 => 8 | 0x12 => 8
  | _ => 0

/-- Whether a code is an integer format, S or N (R31). -/
def fmtIsInt (c : Nat) : Bool := 1 ≤ c && c ≤ 8
/-- Whether a code is a signed integer format. -/
def fmtIsSigned (c : Nat) : Bool := fmtIsInt c && c % 2 == 1
/-- Whether a code is FP16, BF16, FP32 or FP64. -/
def fmtIsFloat (c : Nat) : Bool := 9 ≤ c && c ≤ 0xC
/-- The parameters of a floating-point code; binary32 where the code is none. -/
def fmtFp (c : Nat) : Fp :=
  match fmtKind c with
  | .float f => f
  | _ => Fp.fp32

/-- The value of a code or of an exact result: NaN, an infinity, a signed zero, or (−1)^neg × n ÷ d with n, d > 0. -/
inductive Val where
  | nan
  | inf (neg : Bool)
  | zero (neg : Bool)
  | fin (neg : Bool) (n d : Nat)
  deriving DecidableEq, Repr

/-- The flags of c.fflags as a number: NV 16, DZ 8, OF 4, UF 2, NX 1 (R26). -/
abbrev Flags := Nat
def flagNV : Flags := 16
def flagDZ : Flags := 8
def flagOF : Flags := 4
def flagUF : Flags := 2
def flagNX : Flags := 1

/-- The fraction in lowest terms. -/
def Val.frac (neg : Bool) (n d : Nat) : Val :=
  if n = 0 then .zero neg else let g := Nat.gcd n d; .fin neg (n / g) (d / g)

/-- n × 2^e as a value. -/
def Val.scaled (neg : Bool) (n : Nat) (e : Int) : Val :=
  if n = 0 then .zero neg
  else match e with
    | .ofNat k => .fin neg (n <<< k) 1
    | .negSucc k => Val.frac neg n (1 <<< (k + 1))

/-- An integer as a value; 0 is +0. -/
def Val.ofInt (x : Int) : Val := if x = 0 then .zero false else .fin (x < 0) x.natAbs 1

/-- The sign of a value; false for NaN (R37). -/
def Val.neg? : Val → Bool
  | .nan => false
  | .inf s => s
  | .zero s => s
  | .fin s _ _ => s

/-- The value with the sign turned. -/
def Val.negate : Val → Val
  | .nan => .nan
  | .inf s => .inf (!s)
  | .zero s => .zero (!s)
  | .fin s n d => .fin (!s) n d

/-- The numerator of a finite value over its denominator, with sign. -/
def Val.numer : Val → Int
  | .fin s n _ => if s then -(n : Int) else n
  | _ => 0
/-- The denominator of a finite value. -/
def Val.denom : Val → Nat
  | .fin _ _ d => d
  | _ => 1

/-- Decode(fmt, bits) of R35 for a floating-point format. -/
def decodeFp (f : Fp) (bits : Nat) : Val :=
  let x := bits % 2 ^ f.width
  let s := bitAt x (f.width - 1)
  let m := x % 2 ^ (f.width - 1)
  if m > f.maxCode then
    (if f.hasInf && m == f.maxCode + 1 then .inf s else .nan)
  else
    let e := m >>> f.fbits
    let fr := m % 2 ^ f.fbits
    if e = 0 then Val.scaled s fr (1 - (f.bias : Int) - f.fbits)
    else Val.scaled s (fr + 2 ^ f.fbits) ((e : Int) - f.bias - f.fbits)

/-- A rounding mode (R43); `sr u` is stochastic rounding with the drawn number u (R49). -/
inductive RMode where
  | rne
  | rtz
  | rdn
  | rup
  | sr (u : Nat)
  deriving DecidableEq, Repr

/-- The mode of c.frm[2:0] (R25). -/
def frmMode (c : Nat) : RMode :=
  match c with
  | 0 => .rne
  | 1 => .rtz
  | 2 => .rdn
  | _ => .rup

/-- Whether the magnitude goes to the upper of its two neighbours, which lie at `m` and `m + 1` with the value
`r ÷ q` of the way between them (R43 step 1, R49). -/
def roundUp (mode : RMode) (neg : Bool) (m r q : Nat) : Bool :=
  if r = 0 then false else
  match mode with
  | .rne => 2 * r > q || (2 * r == q && m % 2 == 1)
  | .rtz => false
  | .rdn => neg
  | .rup => !neg
  | .sr u =>
    if neg then !((((q - r) * 2 ^ 32) / q + u) ≥ 2 ^ 32)
    else ((r * 2 ^ 32) / q + u) ≥ 2 ^ 32

/-- ⌊log2 (n ÷ d)⌋ for n, d > 0. -/
def log2Frac (n d : Nat) : Int :=
  let k : Int := (Nat.log2 n : Int) - Nat.log2 d
  let below : Bool := match k with
    | .ofNat j => n < d <<< j
    | .negSucc j => (n <<< (j + 1)) < d
  if below then k - 1 else k

/-- (n ÷ d) × 2^e as numerator and denominator. -/
def scaleFrac (n d : Nat) (e : Int) : Nat × Nat :=
  match e with
  | .ofNat k => (n <<< k, d)
  | .negSucc k => (n, d <<< (k + 1))

/-- The magnitude n ÷ d rounded to a format whose exponent is unbounded above (R43 step 1): the code without its sign,
which may exceed the largest finite code, and whether the value was off the grid. -/
def roundMag (f : Fp) (mode : RMode) (neg : Bool) (n d : Nat) : Nat × Bool :=
  let emin : Int := 1 - (f.bias : Int)
  let e := max (log2Frac n d) emin
  let (num, den) := scaleFrac n d ((f.fbits : Int) - e)
  let m := num / den
  let r := num % den
  let base := ((e - emin).toNat <<< f.fbits) + m
  (if roundUp mode neg base r den then base + 1 else base, r != 0)

/-- The overflow rule of R44 for a floating-point format: whether an infinity results. -/
def overflowInf (f : Fp) (mode : RMode) (neg : Bool) : Bool :=
  f.hasInf && (match mode with
    | .rne => true
    | .rtz => false
    | .rdn => neg
    | .rup => !neg
    | .sr _ => true)

/-- The code of a sign and a magnitude. -/
def signCode (f : Fp) (neg : Bool) (m : Nat) : Nat := (if neg then 2 ^ (f.width - 1) else 0) + m

/-- RoundTo(x, fmt, mode) of R43 to R46: the code and the flags it raises. -/
def roundTo (f : Fp) (mode : RMode) : Val → Nat × Flags
  | .nan => if f.hasNan then (f.canonNan, 0) else (0, flagNV)
  | .inf s => if f.hasInf then (signCode f s (f.maxCode + 1), 0) else (signCode f s f.maxCode, flagNV)
  | .zero s => (signCode f s 0, 0)
  | .fin s n d =>
    let (m, inexact) := roundMag f mode s n d
    if m > f.maxCode then
      (signCode f s (if overflowInf f mode s then f.maxCode + 1 else f.maxCode), flagOF + flagNX)
    else
      (signCode f s m,
        (if inexact then flagNX + (if m < 2 ^ f.fbits then flagUF else 0) else 0))

/-- A floating-point value rounded to an integer of `n` bits, signed or natural (R43, R46): the code and the flags. -/
def roundToInt (signed : Bool) (n : Nat) (mode : RMode) : Val → Nat × Flags
  | .nan => (0, flagNV)
  | .zero _ => (0, 0)
  | .inf s => (if signed then (if s then 2 ^ (n - 1) else 2 ^ (n - 1) - 1) else (if s then 0 else 2 ^ n - 1), flagNV)
  | .fin s p q =>
    let m := p / q
    let r := p % q
    let m' := if roundUp mode s m r q then m + 1 else m
    let x : Int := if s then -(m' : Int) else m'
    let lo : Int := if signed then -(2 ^ (n - 1) : Nat) else 0
    let hi : Int := if signed then (2 ^ (n - 1) : Nat) - 1 else (2 ^ n : Nat) - 1
    if x < lo then (truncInt lo n, flagNV)
    else if x > hi then (truncInt hi n, flagNV)
    else (truncInt x n, if r = 0 then 0 else flagNX)

/-- SatS of R33, as an integer. -/
def satS (x : Int) (n : Nat) : Int := max (-(2 ^ (n - 1) : Nat)) (min x ((2 ^ (n - 1) : Nat) - 1))
/-- SatN of R33, as an integer. -/
def satN (x : Int) (n : Nat) : Int := max 0 (min x ((2 ^ n : Nat) - 1))

/-- The sum of two values before rounding; `down` says that the mode is RDN, which makes an exact zero sum of operands
of opposite sign −0 (R43, R52). -/
def Val.add (down : Bool) : Val → Val → Val × Flags
  | .nan, _ => (.nan, 0)
  | _, .nan => (.nan, 0)
  | .inf s, .inf t => if s = t then (.inf s, 0) else (.nan, flagNV)
  | .inf s, _ => (.inf s, 0)
  | _, .inf t => (.inf t, 0)
  | .zero s, .zero t => (if s = t then .zero s else .zero down, 0)
  | .zero _, y => (y, 0)
  | x, .zero _ => (x, 0)
  | .fin s n d, .fin t m e =>
    let z : Int := (if s then -((n * e : Nat) : Int) else (n * e : Nat)) + (if t then -((m * d : Nat) : Int) else (m * d : Nat))
    if z = 0 then (.zero down, 0) else (Val.frac (z < 0) z.natAbs (d * e), 0)

/-- The product of two values before rounding (R52). -/
def Val.mul : Val → Val → Val × Flags
  | .nan, _ => (.nan, 0)
  | _, .nan => (.nan, 0)
  | .inf _, .zero _ => (.nan, flagNV)
  | .zero _, .inf _ => (.nan, flagNV)
  | .inf s, y => (.inf (s != y.neg?), 0)
  | x, .inf t => (.inf (x.neg? != t), 0)
  | .zero s, y => (.zero (s != y.neg?), 0)
  | x, .zero t => (.zero (x.neg? != t), 0)
  | .fin s n d, .fin t m e => (Val.frac (s != t) (n * m) (d * e), 0)

/-- a × b + c with one rounding to come; a 0 × ∞ product sets NV whatever the addend (R52). -/
def Val.fma (down : Bool) (a b c : Val) : Val × Flags :=
  let (p, f) := Val.mul a b
  let (r, g) := Val.add down p c
  (r, f ||| g)

/-- The quotient before rounding (R52). -/
def Val.div : Val → Val → Val × Flags
  | .nan, _ => (.nan, 0)
  | _, .nan => (.nan, 0)
  | .inf _, .inf _ => (.nan, flagNV)
  | .zero _, .zero _ => (.nan, flagNV)
  | .inf s, y => (.inf (s != y.neg?), 0)
  | x, .inf t => (.zero (x.neg? != t), 0)
  | .zero s, y => (.zero (s != y.neg?), 0)
  | x, .zero t => (.inf (x.neg? != t), flagDZ)
  | .fin s n d, .fin t m e => (Val.frac (s != t) (n * e) (d * m), 0)

/-- One round of Newton's iteration towards ⌊√n⌋ from above. -/
def isqrtLoop : Nat → Nat → Nat → Nat
  | 0, _, x => x
  | k + 1, n, x =>
    let y := (x + n / x) / 2
    if y < x then isqrtLoop k n y else x

/-- ⌊√n⌋. -/
def isqrt (n : Nat) : Nat :=
  if n = 0 then 0 else isqrtLoop (Nat.log2 n + 8) n (1 <<< (Nat.log2 n / 2 + 1))

/-- A value that rounds as the exact m ÷ 2^k does, when `exact` says that it is one, and otherwise as any value strictly
between m ÷ 2^k and (m + 1) ÷ 2^k does, where `k` is so large that no rounding boundary lies between. -/
def sticky (neg exact : Bool) (m k : Nat) : Val :=
  if exact then Val.frac neg m (1 <<< k) else Val.frac neg (2 * m + 1) (1 <<< (k + 1))

/-- √(n ÷ d), to round: 160 bits past the leading bit decide every rounding (R52). -/
def sqrtFrac (n d : Nat) : Val :=
  let e := log2Frac n d
  let k := (160 - e / 2).toNat
  let num := n <<< (2 * k)
  let q := num / d
  let m := isqrt q
  sticky false (m * m == q && num % d == 0) m k

/-- The square root before rounding (R52). -/
def Val.sqrt : Val → Val × Flags
  | .nan => (.nan, 0)
  | .inf s => if s then (.nan, flagNV) else (.inf false, 0)
  | .zero s => (.zero s, 0)
  | .fin true _ _ => (.nan, flagNV)
  | .fin false n d => (sqrtFrac n d, 0)

/-- The reciprocal before rounding (R52). -/
def Val.recip : Val → Val × Flags
  | .nan => (.nan, 0)
  | .inf s => (.zero s, 0)
  | .zero s => (.inf s, flagDZ)
  | .fin s n d => (.fin s d n, 0)

/-- The reciprocal square root before rounding (R52). -/
def Val.rsqrt : Val → Val × Flags
  | .nan => (.nan, 0)
  | .inf s => if s then (.nan, flagNV) else (.zero false, 0)
  | .zero s => (.inf s, flagDZ)
  | .fin true _ _ => (.nan, flagNV)
  | .fin false n d => (sqrtFrac d n, 0)

/-- The working precision of exp2 and log2, far past what decides a rounding. -/
def fnBits : Nat := 320

/-- Multiplies `acc` by 2^(2^−1), 2^(2^−2), … for the bits of a fraction, highest first; `r` is the current root. All
numbers have `fnBits` + 64 bits after the point. -/
def exp2Loop : List Bool → Nat → Nat → Nat
  | [], _, acc => acc
  | b :: bs, r, acc =>
    let r' := isqrt (r <<< (fnBits + 64))
    exp2Loop bs r' (if b then (acc * r') >>> (fnBits + 64) else acc)

/-- The first `k` bits after the point of r ÷ q, r < q. -/
def fracBits : Nat → Nat → Nat → List Bool
  | 0, _, _ => []
  | k + 1, r, q => (2 * r ≥ q) :: fracBits k (if 2 * r ≥ q then 2 * r - q else 2 * r) q

/-- 2^x before rounding for a finite x (R52): exact for an integer, else to `fnBits` bits, so that it rounds as the exact
value does (log entry 114). -/
def exp2Frac (neg : Bool) (n d : Nat) : Val :=
  let x : Int := if neg then -(n : Int) else n
  let i := x / (d : Int)
  let r := (x % (d : Int)).toNat
  if i > 4000 then .fin false (1 <<< 4000) 1
  else if i < -4000 then .fin false 1 (1 <<< 4000)
  else if r = 0 then Val.scaled false 1 i
  else
    let y := exp2Loop (fracBits fnBits r d) (2 <<< (fnBits + 64)) (1 <<< (fnBits + 64))
    let m := min (max (y >>> 64) (1 <<< fnBits)) ((2 <<< fnBits) - 1)
    Val.scaled false (2 * m + 1) (i - (fnBits + 1 : Nat))

/-- exp2 before rounding (R52). -/
def Val.exp2 : Val → Val × Flags
  | .nan => (.nan, 0)
  | .inf s => (if s then .zero false else .inf false, 0)
  | .zero _ => (.fin false 1 1, 0)
  | .fin s n d => (exp2Frac s n d, 0)

/-- The first bits after the point of log2 y, for y in [1, 2) with 2 × `fnBits` + 64 bits after the point, as a number. -/
def log2Loop : Nat → Nat → Nat → Nat
  | 0, _, acc => acc
  | k + 1, y, acc =>
    let y2 := (y * y) >>> (2 * fnBits + 64)
    if y2 ≥ 2 <<< (2 * fnBits + 64) then log2Loop k (y2 >>> 1) (2 * acc + 1) else log2Loop k y2 (2 * acc)

/-- log2 (n ÷ d) before rounding (R52): exact for a power of two, else to `fnBits` bits. -/
def log2FracVal (n d : Nat) : Val :=
  let e := log2Frac n d
  let (num, den) := scaleFrac n d (-e)
  if num = den then Val.ofInt e
  else
    let l := log2Loop fnBits ((num <<< (2 * fnBits + 64)) / den) 0
    let z : Int := e * (2 <<< fnBits : Nat) + (2 * l + 1 : Nat)
    Val.scaled (z < 0) z.natAbs (-((fnBits + 1 : Nat) : Int))

/-- log2 before rounding (R52). -/
def Val.log2 : Val → Val × Flags
  | .nan => (.nan, 0)
  | .inf s => if s then (.nan, flagNV) else (.inf false, 0)
  | .zero _ => (.inf true, flagDZ)
  | .fin true _ _ => (.nan, flagNV)
  | .fin false n d => (log2FracVal n d, 0)

/-- Whether x < y for values that are no NaN; zeros of both signs are equal. -/
def Val.lt : Val → Val → Bool
  | .nan, _ => false
  | _, .nan => false
  | .inf s, .inf t => s && !t
  | .inf s, _ => s
  | _, .inf t => !t
  | x, y => x.numer * (y.denom : Int) < y.numer * (x.denom : Int)

/-- Whether x = y for values that are no NaN; zeros of both signs are equal. -/
def Val.eqv : Val → Val → Bool
  | .nan, _ => false
  | _, .nan => false
  | .inf s, .inf t => s == t
  | .inf _, _ => false
  | _, .inf _ => false
  | x, y => x.numer * (y.denom : Int) == y.numer * (x.denom : Int)

/-- Minimum (R37): the other operand for one NaN, −0 below +0. -/
def Val.min2 : Val → Val → Val
  | .nan, y => y
  | x, .nan => x
  | .zero s, .zero t => .zero (s || t)
  | x, y => if Val.lt y x then y else x

/-- Maximum (R37). -/
def Val.max2 : Val → Val → Val
  | .nan, y => y
  | x, .nan => x
  | .zero s, .zero t => .zero (s && t)
  | x, y => if Val.lt x y then y else x

/-- One step of a lane generator (R47). -/
def lfsrStep (s : BitVec 32) : BitVec 32 :=
  if s.getLsbD 0 then (s >>> 1) ^^^ 0x80200003#32 else s >>> 1

/-- Lane L's seed (R48). -/
def lfsrSeed (srseed : Word) (lane : Nat) : BitVec 32 :=
  let s := srseed.truncate 32 ^^^ BitVec.ofNat 32 (lane * 0x9E3779B9)
  if s = 0 then 1 else s

/-- E8M0: 2^(b − 127), or NaN for 0xFF (R38). -/
def e8m0 (b : Nat) : Val := if b % 256 = 0xFF then .nan else Val.scaled false 1 ((b % 256 : Nat) - (127 : Int))

/-- The magnitude of a VF4 code of each type in sixteenths (R40). -/
def vf4Mag (ty code : Nat) : Nat :=
  let x := code % 8
  match ty % 4 with
  | 0 => if code % 16 < 8 then 16 * x else 16 * (16 - code % 16)
  | 1 => match x with
    | 0 => 0 | 1 => 8 | 2 => 16 | 3 => 24 | 4 => 32 | 5 => 48 | 6 => 64 | _ => 96
  | 2 => if code % 16 = 0 then 0 else 2 ^ x
  | _ => match x with
    | 0 => 0 | 1 => 16 | 2 => 32 | 3 => 48 | 4 => 64 | 5 => 96 | 6 => 128 | _ => 192

/-- The value of a VF4 code before the block scale (R40). -/
def vf4Code (ty code : Nat) : Val :=
  let neg := code % 16 ≥ 8 && !(ty % 4 == 3 && code % 16 == 8)
  Val.scaled neg (vf4Mag ty code) (-4)

/-- The value of a VF4 code under a scale byte (R39, R40). -/
def vf4Value (scale code : Nat) : Val :=
  (Val.mul (vf4Code (bitsOf scale 6 2) code) (Val.scaled false 1 ((bitsOf scale 0 6 : Int) - 31))).1

/-- ScaledValue of R41: the value of a code of a format under its scale byte, where it has one. -/
def scaledValue (fmt : Nat) (scale : Option Nat) (code : Nat) : Val :=
  match fmtKind fmt, scale with
  | .vf4, some b => vf4Value b code
  | .vf4, none => .nan
  | .float f, some b => (Val.mul (decodeFp f code) (e8m0 b)).1
  | .float f, none => decodeFp f code
  | _, _ => .nan

/-- Emax of R50. -/
def mxEmax (fmt : Nat) : Int :=
  match fmt with
  | 0x0D => 8
  | 0x0E => 15
  | _ => 2

/-- The larger of two magnitudes given as fractions. -/
def maxMag (a b : Nat × Nat) : Nat × Nat := if a.1 * b.2 < b.1 * a.2 then b else a

/-- amax of a block (R50) as a fraction; 0 ÷ 1 for a block of zeros. -/
def blockAmax : List Val → Nat × Nat
  | [] => (0, 1)
  | .fin _ n d :: t => maxMag (n, d) (blockAmax t)
  | _ :: t => blockAmax t

/-- Whether a block holds a NaN or an infinity. -/
def blockBad : List Val → Bool
  | [] => false
  | .nan :: _ => true
  | .inf _ :: _ => true
  | _ :: t => blockBad t

/-- One element of an MX block: R50's rounding, which clamps to ±max in every mode. -/
def mxElem (f : Fp) (mode : RMode) (b : Int) : Val → Nat × Flags
  | .fin s n d =>
    let (n', d') := scaleFrac n d (127 - b)
    let (m, inexact) := roundMag f mode s n' d'
    if m > f.maxCode then (signCode f s f.maxCode, flagOF + flagNX)
    else (signCode f s m, if inexact then flagNX + (if m < 2 ^ f.fbits then flagUF else 0) else 0)
  | .zero s => (signCode f s 0, 0)
  | .nan => (f.canonNan, 0)
  | .inf s => (signCode f s f.maxCode, 0)

/-- The scale byte of an MX block and whether the block is bad (R50). -/
def mxScale (fmt : Nat) (xs : List Val) : Nat :=
  if blockBad xs then 0xFF
  else
    let a := blockAmax xs
    if a.1 = 0 then 0x7F
    else (max 0 (min (log2Frac a.1 a.2 - mxEmax fmt + 127) 254)).toNat

/-- An MX block (R50): the scale byte, the codes and the flags. Each element comes with its rounding mode, which holds
the drawn number under SR. -/
def mxBlock (fmt : Nat) (xs : List (Val × RMode)) : Nat × List Nat × Flags :=
  let f := fmtFp fmt
  let b := mxScale fmt (xs.map (·.1))
  if b = 0xFF then (0xFF, xs.map (fun _ => f.canonNan), flagNV)
  else
    let r := xs.map (fun x => mxElem f x.2 b x.1)
    (b, r.map (·.1), r.foldl (fun a x => a ||| x.2) 0)

/-- Mt of R51 in sixteenths. -/
def vf4Max (ty : Nat) : Nat :=
  match ty with
  | 0 => 7 * 16
  | 1 => 6 * 16
  | 2 => 8 * 16
  | _ => 12 * 16

/-- The smallest e from `e` on with amax ≤ Mt × 2^(e − 31), or 63 (R51 step 1). -/
def vf4Exp (ty : Nat) (a : Nat × Nat) : Nat → Nat → Nat
  | 0, _ => 63
  | k + 1, e =>
    let (n, d) := scaleFrac a.1 a.2 (35 - (e : Int))
    if n ≤ vf4Max ty * d then e else vf4Exp ty a k (e + 1)

/-- The value of a VF4 code in sixteenths. -/
def vf4Int (ty code : Nat) : Int :=
  if code % 16 ≥ 8 then -(vf4Mag ty code : Int) else vf4Mag ty code

/-- The codes of a type from the lowest value to the highest; one code for each value, zero being 0x0. -/
def vf4Codes (ty : Nat) : List Nat :=
  match ty with
  | 0 => [8, 9, 10, 11, 12, 13, 14, 15, 0, 1, 2, 3, 4, 5, 6, 7]
  | 2 => [15, 14, 13, 12, 11, 10, 9, 8, 0, 1, 2, 3, 4, 5, 6, 7]
  | _ => [15, 14, 13, 12, 11, 10, 9, 0, 1, 2, 3, 4, 5, 6, 7]

/-- The neighbouring codes of the value n ÷ d sixteenths in a rising list of codes: the last not above and the first
not below it. -/
def vf4Near (ty : Nat) (n : Int) (d : Nat) : List Nat → Option Nat → Option Nat × Option Nat
  | [], lo => (lo, none)
  | c :: cs, lo =>
    let v := vf4Int ty c * (d : Int)
    if v = n then (some c, some c)
    else if v < n then vf4Near ty n d cs (some c)
    else (lo, some c)

/-- Step 2 of R51 for the value n ÷ d sixteenths: the code, and whether it saturated. -/
def vf4Pick (ty : Nat) (mode : RMode) (n : Int) (d : Nat) : Nat × Bool :=
  match vf4Near ty n d (vf4Codes ty) none with
  | (some lo, some hi) =>
    if lo = hi then (lo, false)
    else
      let x := (n - vf4Int ty lo * (d : Int)).natAbs
      let q := ((vf4Int ty hi - vf4Int ty lo) * (d : Int)).natAbs
      (match mode with
        | .rne =>
          if 2 * x < q then lo else if 2 * x > q then hi
          else if lo % 2 = 1 then hi else if hi % 2 = 1 then lo
          else if vf4Mag ty lo < vf4Mag ty hi then lo else hi
        | .rtz => if n < 0 then hi else lo
        | .rdn => lo
        | .rup => hi
        | .sr u => if (x * 2 ^ 32) / q + u ≥ 2 ^ 32 then hi else lo, false)
  | (some lo, none) => (lo, true)
  | (none, some hi) => (hi, true)
  | (none, none) => (0, false)

/-- Steps 2 and 3 of R51 for one element: the code and whether it saturated. -/
def vf4Quant (ty e : Nat) (mode : RMode) (x : Val) : Nat × Bool :=
  match x with
  | .fin s n d =>
    let (p, q) := scaleFrac n d (35 - (e : Int))
    let r := vf4Pick ty mode (if s then -(p : Int) else p) q
    if vf4Mag ty r.1 = 0 then ((if ty = 1 && s then 8 else 0), r.2) else r
  | .zero s => ((if ty = 1 && s then 8 else 0), false)
  | .nan => (0, false)
  | .inf _ => (0, false)

/-- |x − q × 2^(e − 31)| of R51 step 4 as a fraction. -/
def vf4Err (ty e : Nat) (x : Val) (code : Nat) : Nat × Nat :=
  let q : Val := (Val.mul (vf4Code ty code) (Val.scaled false 1 ((e : Int) - 31))).1
  match (Val.add false x q.negate).1 with
  | .fin _ n d => (n, d)
  | _ => (0, 1)

/-- The sum of fractions. -/
def sumFrac : List (Nat × Nat) → Nat × Nat
  | [] => (0, 1)
  | (n, d) :: t =>
    let (m, e) := sumFrac t
    let g := Nat.gcd (n * e + m * d) (d * e)
    ((n * e + m * d) / g, (d * e) / g)

/-- One type's try at a block (R51 steps 1 to 4): the exponent, the codes with their saturation, and the error. -/
def vf4Try (ty : Nat) (xs : List (Val × RMode)) : Nat × List (Nat × Bool) × (Nat × Nat) :=
  let a := blockAmax (xs.map (·.1))
  let e := if a.1 = 0 then 31 else vf4Exp ty a 64 0
  let cs := xs.map (fun x => vf4Quant ty e x.2 x.1)
  (e, cs, sumFrac (List.zipWith (fun x c => vf4Err ty e x.1 c.1) xs cs))

/-- The best type from `ty` on, the least error and then the lowest code (R51). -/
def vf4Best (xs : List (Val × RMode)) :
    List Nat → Nat × Nat × List (Nat × Bool) × (Nat × Nat) → Nat × Nat × List (Nat × Bool) × (Nat × Nat)
  | [], best => best
  | ty :: t, best =>
    let r := vf4Try ty xs
    let e₀ := best.2.2.2
    vf4Best xs t (if r.2.2.1 * e₀.2 < e₀.1 * r.2.2.2 then (ty, r.1, r.2.1, r.2.2) else best)

/-- A VF4 block (R51): the scale byte, the codes and the flags. -/
def vf4Block (xs : List (Val × RMode)) : Nat × List Nat × Flags :=
  if blockBad (xs.map (·.1)) then (0x1F, xs.map (fun _ => 0), flagNV)
  else
    let r0 := vf4Try 0 xs
    let (ty, e, cs, err) := vf4Best xs [1, 2, 3] (0, r0.1, r0.2.1, r0.2.2)
    let sat := cs.any (·.2)
    (ty * 64 + e, cs.map (·.1), (if err.1 = 0 then 0 else flagNX) ||| (if sat then flagOF + flagNX else 0))

/-! ## Exact arithmetic on values (R191, R198, R199, R292) -/

/-- Whether a value is NaN or infinite. -/
def Val.bad : Val → Bool
  | .nan => true
  | .inf _ => true
  | _ => false

/-- A value rounded to FP32 under RNE, as a value (R198, R199). -/
def round32 (v : Val) : Val := decodeFp Fp.fp32 (roundTo Fp.fp32 .rne v).1
/-- x − y exactly. -/
def Val.sub (x y : Val) : Val := (Val.add false x y.negate).1
/-- x × y exactly. -/
def Val.times (x y : Val) : Val := (Val.mul x y).1
/-- x + y exactly. -/
def Val.plus (x y : Val) : Val := (Val.add false x y).1
/-- x ÷ y exactly. -/
def Val.over (x y : Val) : Val := (Val.div x y).1
/-- Whether a value is a zero. -/
def Val.isZero : Val → Bool
  | .zero _ => true
  | _ => false
/-- x ≤ y. -/
def Val.le (x y : Val) : Bool := Val.lt x y || Val.eqv x y
/-- |x|. -/
def Val.abs : Val → Val
  | .nan => .nan
  | .inf _ => .inf false
  | .zero _ => .zero false
  | .fin _ n d => .fin false n d

end Sys2Proof
end

