-- ==== Sys2Proof/Machine/Atomics.lean ====
section
/-! DEFINITION. What an atomic access does (R162 to R166), the lease table and the homes' queues (R168, R169), shared by the
scalar AMOs, the leases, CLAIM and the vector atomics. -/
namespace Sys2Proof.Machine

/-- The memory value after an AMO of `n` bytes on the old value `m` with operand `y` and comparand `c` (R162); none where
nothing is written, a failed CAS. Codes are those of fn10[9:6]. -/
def amoNew (code n m y c : Nat) : Option Nat :=
  let b := 8 * n
  let sm := signedOf m b
  let sy := signedOf y b
  match code with
  | 0x0 => some ((m + y) % 2 ^ b)
  | 0x1 => some (m &&& y)
  | 0x2 => some (m ||| y)
  | 0x3 => some (m ^^^ y)
  | 0x4 => some (if sm ≤ sy then m else y)
  | 0x5 => some (if sm ≤ sy then y else m)
  | 0x6 => some (min m y)
  | 0x7 => some (max m y)
  | 0x8 => some y
  | 0xA =>
    let f := if n = 4 then Fp.fp32 else Fp.fp64
    some (roundTo f .rne (Val.add false (decodeFp f m) (decodeFp f y)).1).1
  | _ => if m = c then some y else none

/-- Performs an AMO on one part: the old value and the state after (R163). But for a copy that the slot leases, it is performed
at home on every page (R165); `drop` discards its write (R172). -/
def State.amo (s : State) (k pa attr n code y c : Nat) (drop : Bool) : Nat × State :=
  let m := s.loadPart k pa attr n
  match amoNew code n m y c with
  | some v => (m, if drop then s else s.storePart k pa (if attr = 1 then 2 else attr) n v)
  | none => (m, s)

/-- What a CLAIM does to its block (R187): the count it grants, the old next and the state after. -/
def State.claim (s : State) (k pa attr r : Nat) : Nat × Nat × State :=
  let m := s.loadPart k pa attr 16
  let next := m % 2 ^ 64
  let n := min (min r (m / 2 ^ 64 - next)) 2048
  (n, next, s.storePart k pa (if attr = 1 then 2 else attr) 8 ((next + n) % 2 ^ 64))

/-- Whether an announced access is an AMO, which holds an entry of the lease table until it is performed (R165). -/
def ScKind.isAmo : ScKind → Bool
  | .amo _ _ _ _ => true
  | _ => false

/-- The lease table entries of a core in use (R165, R168). -/
def State.leaseEntries (s : State) (core : Nat) : Nat :=
  s.threads.foldl (fun n e =>
    if coreOf e.1 = core then
      match e.2.lease with
      | some l => if l.granted.isNone || l.holds s.clk then n + l.lines.length else n
      | none => n
    else n) 0 +
  (s.scq.filter (fun e => e.core == core && e.kind.isAmo)).length + (s.amoq.filter (fun e => e.core == core)).length

/-- Whether the core's lease table has `n` free entries of its 8 (R168). -/
def State.leaseRoom (s : State) (core n : Nat) : Bool := s.leaseEntries core + n ≤ 8

/-- The place of a waiting AMO in the homes' queues. -/
def amoKey (id : Nat) : Nat := 2 ^ 32 + id

/-- Whether a request in a home's queue is still live: an AMO that waits, one of .sc order among them, or a lease that waits for its
grant or holds (R169, R172). -/
def State.requestLive (s : State) (k : Nat) : Bool :=
  if k ≥ 2 ^ 32 then s.amoq.any (fun e => amoKey e.id == k) || s.scq.any (fun e => e.kind.isAmo && amoKey e.id == k)
  else match (s.thread k).lease with
    | some l => l.granted.isNone || l.holds s.clk
    | none => false

/-- The live requests at a line's home, in order (R169). -/
def State.fifo (s : State) (line : Nat) : List Nat := (s.homes.getD line []).filter s.requestLive

/-- Whether a request of another slot stands at the line's home, behind which an AMO queues (R169). -/
def State.queuedBehind (s : State) (k line : Nat) : Bool := (s.fifo line).any (· != k)

/-- Appends a request to the queue of a line's home (R169). -/
def State.enqueue (s : State) (line key : Nat) : State := { s with homes := s.homes.set line (s.fifo line ++ [key]) }

/-- Whether a request leads the queue of a line's home, or would with none before it (R169). -/
def State.leads (s : State) (line key : Nat) : Bool := ((s.fifo line).head?.getD key) == key

/-- Whether a slot is inside a lease region (R173). -/
def State.inRegion (s : State) : Bool := s.thr.region.isSome

/-- The lease trap of R173, tval 3, for an instruction a lease region forbids. -/
def noRegion (s : State) : Res State := if s.inRegion then trapNow s 0x0B 3 else .ok s

/-- An instruction that consumes the parts of storage it reads takes the machine check on the first poisoned word (R281,
R283). -/
def consumeParts (s : State) (sp : List Span) : Res State :=
  match sp.findSome? (fun p => s.badTval s.cur p.pa p.n) with
  | some v => trapNow s 0x0F v
  | none => .ok s

/-- The checks of R164 on an atomic of `n` bytes, aligned under every order. -/
def checkAtomic (s : State) (va n : Nat) : Res (List Span) :=
  if va ≥ 2 ^ 57 || va + n > 2 ^ 57 then trapNow s 0x06 (BitVec.ofNat 64 va)
  else if va + n > winBase && (s.window s.cur va n).isNone then trapNow s 0x06 (BitVec.ofNat 64 va)
  else if va % n ≠ 0 then trapNow s 0x07 (BitVec.ofNat 64 va)
  else match s.resolve s.cur .update true va n with
    | .error e => .error ⟨s, e⟩
    | .ok sp => .ok sp

/-- Whether an atomic waits at its home: a line that another slot leases, requests ahead of it in the home's queue, or a die in
reset (R165, R169, R170, R364). It does not hold its thread (R166). -/
def State.amoWaits (s : State) (k : Nat) (sp : List Span) : Bool :=
  s.partsHeld k sp || sp.any (fun p => s.queuedBehind k (lineOf p.pa))

/-- An AMO's issue (R164 to R166, R168, R173): an entry of the lease table, which an AMO to the lines that the thread's lease holds
has already, then its checks, the lease trap outside the region's lines, and the mixed-size check. -/
def issueAmo (s : State) (va n : Nat) (o : Order) : Res (List Span × State) := do
  let has : Bool := match s.resolve s.cur .update true va n with
    | .ok sp => s.ownCopy s.cur sp
    | .error _ => false
  if !has && !s.leaseRoom (coreOf s.cur) 1 then stall s
  else
    let sp ← checkAtomic s va n
    if s.inRegion && !sp.all (fun p => (s.ownLease s.cur p.pa).isSome) then trapNow s 0x0B 3
    else if !s.ownCopy s.cur sp && (s.thr.memQueued || s.portHeld s.cur || (o.rel && s.releaseHeld (coreOf s.cur) o.scope)) then stall s
    else
      let s ← consumeParts s sp
      strongCheck s true va n sp
      .ok (sp, (s.before o).countHome s.cur .unit sp)

/-- An atomic that waits at its home (R166, R169): it takes its place in the home's queue, and its result is pending. -/
def State.queueAmo (s : State) (p : Span) (n d : Nat) (kind : AmoKind) (rs : List Nat) : State :=
  let id := s.uid + 1
  let s := { s with uid := id, amoq := s.amoq ++ [AmoReq.mk id s.cur (coreOf s.cur) p.pa p.attr n d kind] }
  (s.enqueue (lineOf p.pa) (amoKey id)).addScPend id rs

/-- The registers an AMO's old value goes to (R163). -/
def amoRegs (code n d m : Nat) : List (Nat × Word) :=
  if code = 0xB then [(d, BitVec.ofNat 64 m), (d + 1, BitVec.ofNat 64 (m / 2 ^ 64))]
  else if n = 4 then [(d, BitVec.ofInt 64 (signedOf m 32))]
  else [(d, BitVec.ofNat 64 m)]

/-- A scalar AMO (R162, R163): `y` and `c` are its operand and comparand. On the thread's own leased lines it acts at issue; else an
.sc AMO is announced, and one that must wait at its home waits there. -/
def amoScalar (s : State) (d va n code y c : Nat) (o : Order) : Res State := do
  let (sp, s) ← issueAmo s va n o
  let rs := if code = 0xB then [d, d + 1] else [d]
  match sp with
  | [] => .ok s
  | p :: _ =>
    let drop := s.ownLease s.cur p.pa == some false
    let copy := s.ownCopy s.cur sp
    if o.sc && !copy then .ok ((s.announce sp n d (.amo code y c drop)).addScPend (s.uid + 1) rs)
    else if !copy && s.amoWaits s.cur sp then .ok (s.queueAmo p n d (.amo code y c drop) rs)
    else
      let (m, s) := (s.noteParts (!copy) n sp).amo s.cur p.pa p.attr n code y c drop
      let s := if o.sc then s.announce sp n 0 .done else s
      .ok (s.addPend ((amoRegs code n d m).filter (fun e => e.1 != 0)))

/-- An AMO of the sizes W and D (R162); CAS reads its comparand g[d] at issue. -/
def amoRR (code : Nat) (w : Bool) (d a b : BitVec 5) (z : BitVec 1) (o : BitVec 5) (s : State) : Res State := do
  let s ← waitW w s
  let n := if z = 1 then 8 else 4
  let (x, s) ← readG s a.toNat
  let (y, s) ← readG s b.toNat
  let (c, s) ← if code = 9 then readG s d.toNat else .ok (0, s)
  let s ← amoScalar s d.toNat x.toNat n code (y.toNat % 2 ^ (8 * n)) (c.toNat % 2 ^ (8 * n)) (os5Order o)
  .ok (s.advance 4)

end Sys2Proof.Machine
end

