-- ==== Sys2Proof/Machine/LeaseOps.lean ====
section
/-! DEFINITION. Leases: LEASE, LEASE.N and LEND (R167 to R175), CLAIM (R187), and the steps of the homes and of time that a
lease sees (R169, R172), with the ranked accesses of the notification network (R249). -/
namespace Sys2Proof.Machine

/-- The distinct line addresses a lease names, first the line of g[a] (R167). -/
def leaseLines (x y : Word) : List Nat :=
  let base := x.toNat / 64 * 64
  let off (i : Nat) : Nat := (BitVec.ofNat 64 base + 64 * (y.extractLsb' (16 * i) 16).signExtend 64).toNat
  let cnt := (y.extractLsb' 0 2).toNat
  (base :: ((List.range cnt).map (fun i => off (i + 1)))).eraseDups

/-- Inserts a number into a rising list. -/
def insertUp (x : Nat) : List Nat → List Nat
  | [] => [x]
  | y :: t => if x ≤ y then x :: y :: t else y :: insertUp x t

/-- A list in rising order. -/
def sortUp (l : List Nat) : List Nat := l.foldr insertUp []

/-- The check of one line of a lease (R164, R168): its physical address. The line of g[a] is checked as the 8 B access; a line
in the window range takes the lease-attribute trap, granted or not. -/
def checkLine (s : State) (x : Word) (line : Nat) : Res Nat :=
  let own := x.toNat / 64 * 64 = line
  let va := if own then x.toNat else line
  let n := if own then 8 else 64
  if va + n ≤ 2 ^ 57 && va + n > winBase then trapNow s 0x0C (BitVec.ofNat 64 va)
  else match s.resolve s.cur .update true va n with
  | .error e => .error ⟨s, e⟩
  | .ok [] => .ok 0
  | .ok (p :: _) =>
    if p.attr ≠ 0 || paPkg p.pa ≠ s.dev.pkg.toNat then trapNow s 0x0C (BitVec.ofNat 64 va) else .ok p.pa

/-- The checks of the lines in ascending address order (R168): the physical addresses. -/
def checkLines (s : State) (x : Word) : List Nat → Res (List Nat)
  | [] => .ok []
  | l :: t => do
    let pa ← checkLine s x l
    let r ← checkLines s x t
    .ok (pa :: r)

/-- The issue of LEASE and LEASE.N (R168, R169): the thread waits, and its request goes to the home of its lowest line.
Inside a region the lease trap comes before all else (log entry 105). -/
def leaseIssue (s : State) (d : Nat) (x y : Word) (many : Bool) (o : Order) : Res State := do
  let s ← noRegion s
  let lines := leaseLines x y
  if s.thr.lease.isSome || s.thr.memQueued || s.portHeld s.cur || !s.leaseRoom (coreOf s.cur) lines.length then stall s
  else if many && y.extractLsb' 2 14 ≠ 0 then trapNow s 0x0B 1
  else if x.toNat % 8 ≠ 0 then trapNow s 0x07 x
  else
    let pas ← checkLines s x (sortUp lines)
    let addr ← checkLine s x (x.toNat / 64 * 64)
    if o.rel && s.releaseHeld (coreOf s.cur) o.scope then stall s
    else
      strongCheck s true x.toNat 8 [⟨addr, 0, 8⟩]
      let s := s.before o
      let todo := sortUp (pas.map lineOf).eraseDups
      let t := s.thr
      let l : Lease := { pc := t.pc, dest := d, addr := addr, lines := todo, todo := todo, granted := none,
                         budget := t.leasemax.toNat, expired := false, buf := [], bad := [], ending := none }
      .ok { s.putThr { t with lease := some l, st := .waiting .lease, pc := t.pc + 4 } with
        homes := match todo with
          | f :: _ => s.homes.set f (s.fifo f ++ [s.cur])
          | [] => s.homes }

/-- LEASE (R167). -/
def execLease (w : Bool) (d a o : BitVec 5) (s : State) : Host.Outcome State Fault Refusal :=
  finish s do
    let s ← waitW w s
    let (x, s) ← readG s a.toNat
    leaseIssue s d.toNat x 0 false (os5Order o)

/-- LEASE_N (R167): g[b] lists up to three more lines. -/
def execLeaseN (w : Bool) (d a b o : BitVec 5) (s : State) : Host.Outcome State Fault Refusal :=
  finish s do
    let s ← waitW w s
    let (x, s) ← readG s a.toNat
    let (y, s) ← readG s b.toNat
    leaseIssue s d.toNat x y true (os5Order o)

/-- Writes the bytes a region stored to its leased lines, all in one step, with their poison (R171, R281). -/
def State.commit (s : State) (k : Nat) (l : Lease) : State :=
  let s := l.buf.foldl (fun s e => s.write (some k) e.1 1 e.2.toNat) s
  (s.clearCovered (l.buf.map Prod.fst)).addPoison
    ((l.buf.filter (fun e => l.bad.contains (e.1 / 4 * 4))).map (fun e => granuleOf e.1))

/-- A slot's lease is over: its request leaves the homes' queues. -/
def State.dropLease (s : State) (k : Nat) : State :=
  { s.setThread k { s.thread k with lease := none } with
    homes := (s.homes.map (fun e => (e.1, e.2.filter (· != k)))).filter (fun e => !e.2.isEmpty) }

/-- LEND (R171): commits a lease that still holds and writes 1, else writes 0; the region ends. A commit comes after the .sc
accesses that the thread has announced before it. -/
def execLend (w : Bool) (d o : BitVec 5) (s : State) : Host.Outcome State Fault Refusal :=
  finish s do
    let s ← waitW w s
    match s.thr.region with
    | none => trapNow s 0x0B 2
    | some l =>
      let ord := os5Order o
      let ok := l.holds s.clk
      if ord.rel && s.releaseHeld (coreOf s.cur) ord.scope then stall s
      else
        let s := s.before ord
        if ok && s.unperformed s.cur then
          let id := s.uid + 1
          let s := { s with uid := id }
          .ok (((s.putThr { s.thr with lease := some { l with ending := some id } }).addScPend id [d.toNat]).advance 4)
        else
          let s := if ok then s.commit s.cur l else s
          .ok (((s.dropLease s.cur).addPend (if d = 0 then [] else [(d.toNat, ofBool ok)])).advance 4)

/-- The commit of a slot whose LEND waited for its announced accesses, once these have been performed (R171). -/
def State.endLend (s : State) (k : Nat) : State :=
  match (s.thread k).lease with
  | none => s
  | some l =>
    match l.ending with
    | none => s
    | some id =>
      if s.unperformed k then s
      else
        let s := (s.commit k l).dropLease k
        let t := s.thread k
        s.setThread k { t with pend := t.pend.map (fun p => match p with
          | .sc j rs => if j = id then .vals (rs.map (fun r => (r, 1))) else .sc j rs
          | p => p) }

/-- The registers of a CLAIM's result (R187). -/
def claimRegs (d n next : Nat) : List (Nat × Word) :=
  let rs := [(codeVl, BitVec.ofNat 64 n), (codeVstart, 0)]
  if d = 0 then rs else (d, BitVec.ofNat 64 next) :: rs

/-- CLAIM (R187): an atomic on a 16 B claim block that grants up to 2,048 elements. -/
def execClaim (w : Bool) (d a b : BitVec 5) (s : State) : Host.Outcome State Fault Refusal :=
  finish s do
    let s ← waitW w s
    let (x, s) ← readG s a.toNat
    let (r, s) ← readG s b.toNat
    let s ← noRegion s
    if !s.leaseRoom (coreOf s.cur) 1 then stall s
    else
      let sp ← checkAtomic s x.toNat 16
      if s.thr.memQueued || s.portHeld s.cur then stall s
      else
        let s ← consumeParts s sp
        match sp with
        | [] => .ok s
        | p :: _ =>
          let s := s.countHome s.cur .unit sp
          if s.amoWaits s.cur sp then
            .ok ((s.queueAmo p 16 d.toNat (.claim r.toNat) [d.toNat, codeVl, codeVstart]).advance 4)
          else
            let (n, next, s) := s.claim s.cur p.pa p.attr r.toNat
            .ok ((s.addPend (claimRegs d.toNat n next)).advance 4)

/-- The grant of a lease (R169): the 8 bytes are read, the thread runs from its first turn after the grant, every thread's links
on the lines break, and the cores' dirty STRM bytes of them, which are earlier writes, go home: no write of them reaches the lines while
the lease holds (R257). -/
def State.grantLease (s : State) (k : Nat) (l : Lease) : State :=
  let s := s.cores.foldl (fun s e => s.flushStrm e.1 l.lines.contains) s
  let v := BitVec.ofNat 64 (memNat s.mem l.addr 8)
  let poisoned := s.poisonedAt l.addr 8
  let s' : State := { s.noteStrong l.addr 8 with threads := s.threads.map (fun (e : Nat × Thread) =>
    (e.1, { e.2 with links := e.2.links.filter (fun x => !l.lines.contains x) })) }
  let t : Thread := s'.thread k
  s'.setThread k { t with
    st := .running, ready := s.clk + 1, lease := some { l with todo := [], granted := some s.clk },
    pend := t.pend.map (Pend.drop l.dest) ++ [Pend.vals (loadRegs l.dest v poisoned)] }

/-- LEASE_HOME_RECORD (R169): the request at the head of a line's queue is recorded and passed to the next home; the last
record is the grant. -/
def execLeaseHomeRecord (line : Nat) (s : State) : Host.Outcome State Fault Refusal :=
  match s.fifo line with
  | [] => .next s
  | k :: rest =>
    match (s.thread k).lease with
    | none => .next s
    | some l =>
      match l.todo with
      | [] => .next s
      | f :: todo =>
        if f ≠ line || (if todo.isEmpty then l.lines else [line]).any (fun x => s.homeDown (x * 64) 0) then .next s
        else
          let s := { s with homes := s.homes.set line (k :: rest) }
          match todo with
          | [] => .next (s.grantLease k l)
          | n :: _ =>
            .next { s.setThread k { s.thread k with lease := some { l with todo := todo } } with
              homes := s.homes.set n (s.fifo n ++ [k]) }

/-- LEASE_EXPIRE (R172): at clk g + B without a LEND, the buffered stores are discarded and the entries freed. -/
def execLeaseExpire (slot : Nat) (s : State) : Host.Outcome State Fault Refusal :=
  match (s.thread slot).lease with
  | none => .next s
  | some l =>
    if l.granted.isNone || l.expired || l.holds s.clk then .next s
    else
      let s := s.setThread slot { s.thread slot with lease := some { l with expired := true, buf := [] } }
      .next { s with homes := (s.homes.map (fun e => (e.1, e.2.filter (· != slot)))).filter (fun e => !e.2.isEmpty) }

/-- Whether one announced access ranks before another: by window, then core number, then port order (R249). -/
def ScAccess.before (a b : ScAccess) : Bool :=
  a.window < b.window || (a.window == b.window && (a.core < b.core || (a.core == b.core && a.id < b.id)))

/-- The announced access of the lowest rank (R249). -/
def firstSc : List ScAccess → Option ScAccess
  | [] => none
  | e :: t =>
    match firstSc t with
    | none => some e
    | some f => if f.before e then some f else some e

/-- The result of a performed access goes to its slot's pending registers. -/
def State.fixPend (s : State) (k id : Nat) (vs : List (Nat × Word)) : State :=
  let t := s.thread k
  s.setThread k { t with pend := t.pend.map (Pend.fix id vs) }

/-- Whether an announced access cannot be performed yet: its line is leased away, or its home is in reset (R170, R364). -/
def State.scHeld (s : State) (e : ScAccess) : Bool :=
  match e.kind with
  | .done => false
  | _ => s.awayHeld e.slot [⟨e.pa, e.attr, e.n⟩]

/-- Whether an announced AMO comes behind requests in the queue of its line's home (R169). -/
def State.scBehind (s : State) (e : ScAccess) : Bool := e.kind.isAmo && !s.leads (lineOf e.pa) (amoKey e.id)

/-- An announced AMO whose turn has come takes its place in the queue of its line's home, once (R169). -/
def State.scQueue (s : State) (e : ScAccess) : State :=
  if !e.kind.isAmo || (s.fifo (lineOf e.pa)).contains (amoKey e.id) then s else s.enqueue (lineOf e.pa) (amoKey e.id)

/-- SC_PERFORM (R249): the lowest-ranked announced access is performed at package scope, no earlier than clk 8k + 48 of its
window. An AMO that cannot be performed then waits in the queue of its line's home (R169), and the accesses that rank after it
behind it. -/
def execScPerform (s : State) : Host.Outcome State Fault Refusal :=
  match firstSc s.scq with
  | none => .next s
  | some e =>
    if s.clk < 8 * e.window + 48 then .next s
    else if s.scHeld e || s.scBehind e then .next (s.scQueue e)
    else
      let s := { s with scq := s.scq.filter (fun f => f.id != e.id) }
      let home := if e.attr = 1 then 2 else e.attr
      let s := match e.kind with
        | .done => s
        | .load sg =>
          let s := (s.flushStrm (coreOf e.slot) (linesOf e.pa e.n).contains).noteStrong e.pa e.n
          let v := extendLoad sg e.n (s.loadPart e.slot e.pa e.attr e.n)
          s.fixPend e.slot e.id (loadRegs e.d v (s.badWord e.slot e.pa e.n).isSome)
        | .store v poisoned =>
          let s := (s.noteStrong e.pa e.n).storePart e.slot e.pa home e.n v
          if poisoned then s.poisonPart e.slot ⟨e.pa, home, e.n⟩ else s
        | .amo code y c drop =>
          let (m, s) := (s.noteStrong e.pa e.n).amo e.slot e.pa e.attr e.n code y c drop
          s.fixPend e.slot e.id (amoRegs code e.n e.d m)
      .next (s.endLend e.slot)

/-- Whether a waiting atomic may be performed: it leads its home's queue, and nothing holds its line. -/
def State.amoReady (s : State) (r : AmoReq) : Bool :=
  (s.fifo (lineOf r.pa)).head? == some (amoKey r.id) && !s.awayHeld r.slot [⟨r.pa, r.attr, r.n⟩]

/-- A waiting atomic is performed at its home (R165, R169). -/
def State.performAmo (s : State) (r : AmoReq) : State :=
  let s := { s with amoq := s.amoq.filter (fun e => e.id != r.id) }
  let s := { s with homes := s.homes.set (lineOf r.pa) (s.fifo (lineOf r.pa)) }
  let s := match r.kind with
    | .amo code y c drop =>
      let (m, s) := (s.noteStrong r.pa r.n).amo r.slot r.pa r.attr r.n code y c drop
      s.fixPend r.slot r.id (amoRegs code r.n r.d m)
    | .claim q =>
      let (n, next, s) := s.claim r.slot r.pa r.attr q
      s.fixPend r.slot r.id (claimRegs r.d n next)
  s.endLend r.slot

end Sys2Proof.Machine
end

