-- ==== Sys2Proof/Machine/Threads.lean ====
section
/-! DEFINITION. The launches' bookkeeping that instructions of threads reach: barrier instances (R185, R186), the gang of a
quad (R19, R140, R141, R161), pre-emption notices (R346) and the end of a thread (R225, R235). -/
namespace Sys2Proof.Machine

/-! ## Barriers (R185, R186, R408) -/

/-- The unit of a scope that holds a slot: quad, cluster, die, package or pod (R185). -/
def unitOf (scope k : Nat) : Nat :=
  match scope with
  | 1 => quadOfCore (coreOf k)
  | 2 => clusterOf k
  | 3 => dieOf k
  | _ => 0

/-- The name of a barrier instance: launch (a Spring slot counts as one of its own, R408), scope, unit and number. -/
def barrierKey (lid scope unit n : Nat) : Nat := ((lid * 8 + scope) * 4096 + unit) * 16 + n

/-- The launch of a barrier instance's name; 2^40 + key for a Spring slot. -/
def barrierLaunch (bkey : Nat) : Nat := bkey / 524288
/-- The scope of a barrier instance's name. -/
def barrierScope (bkey : Nat) : Nat := bkey / 65536 % 8
/-- The unit of a barrier instance's name. -/
def barrierUnit (bkey : Nat) : Nat := bkey / 16 % 4096
/-- The place of a barrier instance among a thread's pending arrivals (R237). -/
def arrivalIndex (bkey : Nat) : Nat := 16 * (barrierScope bkey - 1) + bkey % 16

/-- The participants of a barrier instance that have not halted, by c.tid, as the placement at dispatch counts them (R185,
R343). -/
def State.participants (s : State) (bkey : Nat) : List Nat :=
  match s.launches.get? (barrierLaunch bkey) with
  | none => [0]
  | some l =>
    (l.place.filter (fun e =>
      unitOf (barrierScope bkey) e.2 == barrierUnit bkey && !l.halted.contains e.1)).map Prod.fst

/-- A barrier instance as it stands. -/
def State.barrier (s : State) (bkey : Nat) : Barrier := s.barriers.getD bkey ⟨false, [], none⟩

/-- The time from the last arrival to the release of the waiting threads (R186); in a pod it is at most 2,720 clk. -/
def releaseDelay (scope : Nat) : Nat :=
  match scope with
  | 1 => 2
  | 2 => 4
  | 3 => 24
  | 4 => 120
  | _ => 0

/-- A phase that every participant has arrived in completes, and the next opens (R185). -/
def State.settleBarrier (s : State) (bkey : Nat) : State :=
  let b := s.barrier bkey
  if !b.arrived.isEmpty && (s.participants bkey).all b.arrived.contains then
    { s with barriers := s.barriers.set bkey ⟨!b.parity, [], some (s.clk + releaseDelay (barrierScope bkey))⟩ }
  else s

/-- Settles every barrier instance of a launch, after one of its threads has halted (R185). -/
def State.settleBarriers (s : State) (lid : Nat) : State :=
  (s.barriers.filter (fun e => barrierLaunch e.1 == lid)).foldl (fun s e => s.settleBarrier e.1) s

/-- The barrier instance a slot's thread names (R185, R408). -/
def State.barrierOf (s : State) (k scope n : Nat) : Nat :=
  let t := s.thread k
  match t.launch, s.launchOf t with
  | some lid, some l => barrierKey lid scope (unitOf scope (l.place.getD t.tid.toNat k)) n
  | _, _ => barrierKey (2 ^ 40 + k) scope 0 n

/-- A slot's thread arrives in the current phase (R185); the arrival is a release at the scope (R186). -/
def State.arrive (s : State) (k bkey : Nat) : State :=
  let s := s.release (coreOf k) (barrierScope bkey)
  let b := s.barrier bkey
  let t := s.thread k
  let s := s.setThread k { t with arrivals := t.arrivals.set (arrivalIndex bkey) b.parity }
  ({ s with barriers := s.barriers.set bkey { b with arrived := b.arrived ++ [t.tid.toNat] } }).settleBarrier bkey

/-- Whether a pending arrival's phase has completed (R185, R237). -/
def State.arrivalDone (s : State) (k bkey : Nat) : Bool :=
  match (s.thread k).arrivals.get? (arrivalIndex bkey) with
  | some p => p != (s.barrier bkey).parity
  | none => true

/-- BARW at an instance (R185): a thread whose arrival is still open waits at the instruction; else it goes on. -/
def State.awaitBarrier (s : State) (k bkey : Nat) : State :=
  let t := s.thread k
  if s.arrivalDone k bkey then
    s.setThread k { t with arrivals := t.arrivals.erase (arrivalIndex bkey), pc := t.pc + 4 }
  else s.setThread k { t with st := .waiting (.barrier bkey) }

/-! ## Gangs (R19, R140, R141, R161) -/

/-- Whether a slot holds its core's accumulator store (R19). -/
def State.ownsAcc (s : State) (k : Nat) : Bool :=
  match (s.core (coreOf k)).accOwner, (s.thread k).launch with
  | some (i, lid), some l => i == slotOf k && lid == l && !isSpring k
  | _, _ => false

/-- The slots of a gang, by core of the quad: the same slot index on the quad's four cores (R19). -/
def gangSlots (k : Nat) : List Nat :=
  (List.range 4).map (fun c => (quadOfCore (coreOf k) * 4 + c) * 16 + slotOf k)

/-- The c.tids of a thread's gang: those placed in its quad at dispatch. -/
def gangTids (l : Launch) (tid : Nat) : List Nat :=
  let q := quadOfCore (coreOf (l.place.getD tid 0))
  (l.place.filter (fun e => quadOfCore (coreOf e.2) == q)).map Prod.fst

/-- Whether a thread of the slot's gang has halted (R141). -/
def State.gangHalted (s : State) (k : Nat) : Bool :=
  match s.launchOf (s.thread k) with
  | none => false
  | some l => (gangTids l (s.thread k).tid.toNat).any l.halted.contains

/-- Releases the accumulator stores of a quad; their contents are lost (R161). -/
def State.releaseAcc (s : State) (q : Nat) : State :=
  let s := (List.range 4).foldl (fun s c =>
    let x := s.core (q * 4 + c)
    s.setCore (q * 4 + c) { x with accOwner := none, acc := [], accPoison := [] }) s
  { s with quads := s.quads.erase q }

/-- What the halt of a gang thread does (R141, R161): siblings that wait in MGANG take the gang trap with tval 2, and when
all four have halted the stores are released. A KILL during an operation drops the operation (log entry 119). -/
def State.gangHalt (s : State) (k lid : Nat) : State :=
  let q := quadOfCore (coreOf k)
  let waiting := (gangSlots k).filter (fun j => j != k && (s.thread j).st == .waiting .gang)
  let g := s.quad q
  let s := s.setQuad q { g with arrived := [], joinAt := none, parts := g.parts.erase (coreOf k % 4), step := none }
  let s := waiting.foldl (fun s j => s.takeTrap j 0x0A 2 none 0) s
  match s.launches.get? lid with
  | none => s
  | some l => if (gangTids l (s.thread k).tid.toNat).all l.halted.contains then s.releaseAcc q else s

/-! ## The end of a thread -/

/-- A slot that its thread has left: its registers stand as the thread left them, until a dispatch or a context load sets them
(R28, R225). -/
def Thread.vacated (t : Thread) : Thread :=
  { t with
    st := .empty, held := false, saving := false, launch := none, ringPos := none, pend := [], vq := [], replay := false,
    latch := false, links := [], lease := none, arrivals := [], joined := false, inGang := false, err := [], serial := 0,
    gone := false, timewait := none }

/-- A slot becomes EMPTY; its lease is discarded, or committed where its LEND has issued, and the h registers of a core are zeroed
when its last thread leaves (R20). -/
def State.vacate (s : State) (k : Nat) : State :=
  let s := match (s.thread k).lease with
    | some l => if l.ending.isSome then (s.commit k l).dropLease k else s.dropLease k
    | none => s
  let s := s.setThread k (s.thread k).vacated
  let c := coreOf k
  if s.threads.any (fun e => coreOf e.1 == c && e.2.st != .empty) then s
  else s.setCore c { s.core c with h := [], hw := [] }

/-- A Spring slot halts: the record it handles is freed, and records that wait are written (R227). -/
def State.freeRecord (s : State) (k : Nat) : State :=
  match (s.thread k).ringPos with
  | none => s
  | some p =>
    let c := clusterOf k
    let x := s.cluster c
    (s.setCluster c { x with ring := x.ring.erase p }).pumpRing c 64

/-- The end of a slot's thread as HALT and KILL give it (R225, R235): the slot becomes EMPTY, the thread leaves every
barrier, its latch, links, monitors and pending results go, and its engine entries continue (R215). -/
def State.endThread (s : State) (k : Nat) : State :=
  let t := s.thread k
  if isSpring k then (s.freeRecord k).vacate k
  else match t.launch with
    | none => s.vacate k
    | some lid =>
      let own := s.ownsAcc k
      let s := { s with launches := match s.launches.get? lid with
        | some l => s.launches.set lid { l with halted := l.halted ++ [t.tid.toNat] }
        | none => s.launches }
      let s := if own then s.gangHalt k lid else s
      (s.vacate k).settleBarriers lid

/-! ## Pre-emption (R346) -/

/-- Holds a slot's thread and sends its pre-emption notice (R346). -/
def State.preemptSlot (s : State) (waiting : BitVec 32) (k : Nat) : State :=
  let t := s.thread k
  let pc := t.resumePc t.pc
  let s := s.setThread k { t with held := true }
  let s := match t.launch.bind (fun lid => (s.launches.get? lid).map (fun l => (lid, l))) with
    | some (lid, l) => { s with launches := s.launches.set lid { l with preempted := true } }
    | none => s
  s.postRec (clusterOf k) none (s.threadRec k 0x42 pc pc (waiting.zeroExtend 64) 0)

/-- The slots a pre-emption of a slot's thread holds: the four of a gang (R154), else its own. -/
def State.preemptSlots (s : State) (k : Nat) : List Nat :=
  if s.ownsAcc k then (gangSlots k).filter (fun j => (s.thread j).launch == (s.thread k).launch) else [k]

/-- The number of the waiting launch of the highest priority in a partition, where it is above `prio` (R224). -/
def State.waitingAbove (s : State) (part prio : Nat) : Option (BitVec 32) :=
  let ws := (s.part part).queues.filterMap (fun e =>
    match e.2.waiting with
    | some w => if e.2.prio > prio then some (e.2.prio, w) else none
    | none => none)
  match ws.foldl (fun (best : Option (Nat × Started)) e => match best with
    | some b => if e.1 > b.1 then some e else best
    | none => some e) none with
  | none => none
  | some (_, w) => match w.ref with
    | some lid => (s.launches.get? lid).map (fun l => l.num)
    | none => none

end Sys2Proof.Machine
end

