-- ==== Sys2Proof/Machine/ControlRegs.lean ====
section
/-! DEFINITION. The control registers: their indices, views and access rules (R24 to R27, R48, R260, R261, R360). -/
namespace Sys2Proof.Machine

/-- The indices of R24. -/
def cregKnown (i : Nat) : Bool :=
  [0x000, 0x001, 0x002, 0x003, 0x008, 0x009, 0x00A, 0x00C, 0x00D, 0x010, 0x011, 0x012, 0x018, 0x019, 0x020, 0x021, 0x022,
   0x023, 0x028, 0x029, 0x02A, 0x030, 0x800, 0x801, 0x802].contains i

/-- Whether an index is read-only at a privilege level (R24). -/
def cregReadOnly (spring : Bool) (i : Nat) : Bool :=
  [0x020, 0x021, 0x023, 0x028, 0x029, 0x02A].contains i || (!spring && [0x003, 0x022, 0x030].contains i)

/-- Pod time as a core observes it, at most 4 ns late (R222, R226). -/
def State.seenTime (s : State) : Nat := s.podTime - Config.timeLate s.fresh % 5

/-- c.sgrant (R26): the launch's core scratch grant, 0 where it has none. -/
def State.sgrant (s : State) (k : Nat) : Word :=
  match s.launchOf (s.thread k) with
  | none => 0
  | some l => if (l.grantOn (coreOf k)).2 = 0 then 0 else BitVec.ofNat 64 (l.scr * 65536 + l.scrBase.getD (clusterOf k) 0)

/-- The view of a control register of a slot other than c.vl, c.vstart and c.gtime, at a clk (R24, R26). -/
def State.cregView (s : State) (k i : Nat) : Word :=
  let t := s.thread k
  match i with
  | 0x002 => t.mstart.zeroExtend 64
  | 0x003 => t.mdepth.zeroExtend 64
  | 0x008 => t.fmtA.zeroExtend 64
  | 0x009 => t.fmtB.zeroExtend 64
  | 0x00A => t.fmtC.zeroExtend 64
  | 0x00C => t.scaleA.zeroExtend 64
  | 0x00D => t.scaleB.zeroExtend 64
  | 0x010 => t.frm.zeroExtend 64
  | 0x011 => t.fflags.zeroExtend 64
  | 0x012 => t.srseed
  | 0x018 => t.leasemax.zeroExtend 64
  | 0x019 => t.marchLimit.zeroExtend 64
  | 0x020 => t.tid.zeroExtend 64
  | 0x021 => (s.place k).zeroExtend 64
  | 0x022 => (s.core (coreOf k)).pool.zeroExtend 64
  | 0x023 => s.sgrant k
  | 0x028 => BitVec.ofNat 64 s.clk
  | 0x02A => 0x204040
  | 0x030 => t.dbg.zeroExtend 64
  | 0x800 => t.cause
  | 0x801 => t.tval
  | 0x802 => t.epc
  | _ => 0

/-- Whether an A or B format code is accepted (R25). -/
def fmtAB (c : Nat) : Bool := [0x09, 0x0A, 0x0D, 0x0E, 0x0F, 0x10].contains c
/-- Whether a down-converter format code is accepted (R25). -/
def fmtTarget (c : Nat) : Bool := [0x0A, 0x0D, 0x0E, 0x0F, 0x10].contains c
/-- Whether a scale register value is accepted: RSV bits 0, src not 0b11, the offset a multiple of 128 (R7, R26). -/
def scaleOk (v : Nat) : Bool := v < 2 ^ 27 && !bitAt v 7 && v % 4 ≠ 3 && bitsOf v 8 19 % 128 == 0

/-- Whether MTS accepts a value: its range and reserved bits (R7, R15, R18, R25, R26, R48, R153). c.cause holds a cause of 2 B, as
a record does (R228); its higher bits are reserved (log entry 95). -/
def cregAccepts (i v : Nat) : Bool :=
  match i with
  | 0x000 => v ≤ 2048
  | 0x001 => v ≤ 2047
  | 0x002 => v ≤ 15
  | 0x003 => v ≤ 16
  | 0x008 => fmtAB v
  | 0x009 => fmtAB v
  | 0x00A => fmtTarget v
  | 0x00C => scaleOk v
  | 0x00D => scaleOk v
  | 0x010 => v ≤ 3
  | 0x011 => v < 32
  | 0x012 => v < 2 ^ 32
  | 0x018 => 1 ≤ v && v ≤ 256
  | 0x019 => 1 ≤ v && v ≤ 2 ^ 20
  | 0x022 => v < 2 ^ 24
  | 0x030 => v < 4
  | 0x800 => v < 2 ^ 16
  | _ => true

/-- The total size in bytes of the register files of a core's occupied slots (R260). -/
def State.fileBytes (s : State) (core : Nat) : Nat :=
  s.threads.foldl (fun n e => if coreOf e.1 = core && e.2.st != .empty then n + e.2.budget * 128 else n) 0

/-- The live core scratch grants of a core, as base and size in 4 KiB units (R260). -/
def State.coreGrants (s : State) (core : Nat) : List (Nat × Nat) :=
  s.launches.filterMap (fun e =>
    let l := e.2
    if !l.done && !l.away && l.scr ≠ 0 && l.cores.contains core then some (l.scrBase.getD (clusterOfCore core) 0, l.scr) else none)

/-- Whether a value is a layout of the pool, whatever the core holds (R26). -/
def poolForm (v : Nat) : Bool :=
  bitsOf v 0 8 ≤ bitsOf v 8 8 && bitsOf v 8 8 ≤ bitsOf v 16 8 && bitsOf v 16 8 ≤ 128 && bitsOf v 16 8 - bitsOf v 8 8 ≥ 4

/-- Whether a core's c.pool may take a value (R26, R261). -/
def State.poolOk (s : State) (core v : Nat) : Bool :=
  let reg := bitsOf v 0 8
  let scr := bitsOf v 8 8
  let grants := s.coreGrants core
  poolForm v &&
    (grants.isEmpty || reg == ((s.core core).pool.extractLsb' 0 8).toNat) &&
    s.fileBytes core ≤ reg * 4096 && grants.all (fun g => reg + g.1 + g.2 ≤ scr)

/-- Where the bytes of a core's scratch stand after its pool layout has changed: a pool unit keeps its contents while it stays in
the scratchpad region, and holds nothing once it has left it (R260, R261). -/
def poolMove (core old new a : Nat) : Option Nat :=
  let u := bitsOf old 0 8 + (a - scratchAddr core 0) / 4096
  if bitsOf new 0 8 ≤ u && u < bitsOf new 8 8 then some (a + bitsOf old 0 8 * 4096 - bitsOf new 0 8 * 4096) else none

/-- Whether a store address lies in a core's scratch. -/
def inScratch (core a : Nat) : Bool := scratchAddr core 0 ≤ a && a < scratchAddr core 0 + 2 ^ 20

/-- Writes a core's c.pool; L1 gives up its dirty lines when it shrinks, and what leaves the scratchpad region is lost (R261). -/
def State.setPool (s : State) (core v : Nat) : State :=
  let c := s.core core
  let old := c.pool
  let s := if bitsOf v 8 8 > (old.extractLsb' 8 8).toNat || bitsOf v 16 8 < (old.extractLsb' 16 8).toNat then
    s.flushStrm core (fun _ => true) else s
  let move (a : Nat) : Option Nat := if inScratch core a then poolMove core old.toNat v a else some a
  { s.setCore core { s.core core with pool := BitVec.ofNat 24 v } with
    mem := s.mem.filterMap (fun e => (move e.1).map (fun a => (a, e.2))), poison := s.poison.filterMap move }

/-- Whether a change of a core's c.pool must wait for a die in reset that L1's dirty lines must reach (R364). -/
def State.poolHeld (s : State) (core v : Nat) : Bool :=
  let old := (s.core core).pool
  (bitsOf v 8 8 > (old.extractLsb' 8 8).toNat || bitsOf v 16 8 < (old.extractLsb' 16 8).toNat) && s.flushHeld core

/-- The generators of the 32 lanes as a seed sets them (R48). -/
def seedLfsr (seed : Word) : Tab (BitVec 32) :=
  (List.range 32).map (fun l => (l, lfsrSeed seed l))

/-- Writes a control register of a slot with a value MTS accepts (R24 to R27). -/
def State.setCreg (s : State) (k i : Nat) (v : Word) : State :=
  let t := s.thread k
  match i with
  | 0x000 => s.setThread k { t with vl := v.truncate 12, pend := t.pend.map (Pend.drop codeVl) }
  | 0x001 => s.setThread k { t with vstart := v.truncate 12, pend := t.pend.map (Pend.drop codeVstart) }
  | 0x002 => s.setThread k { t with mstart := v.truncate 4 }
  | 0x003 => s.setThread k { t with mdepth := v.truncate 5 }
  | 0x008 => s.setThread k { t with fmtA := v.truncate 5 }
  | 0x009 => s.setThread k { t with fmtB := v.truncate 5 }
  | 0x00A => s.setThread k { t with fmtC := v.truncate 5 }
  | 0x00C => s.setThread k { t with scaleA := v.truncate 27 }
  | 0x00D => s.setThread k { t with scaleB := v.truncate 27 }
  | 0x010 => s.setThread k { t with frm := v.truncate 3 }
  | 0x011 => s.setThread k { t with fflags := v.truncate 5 }
  | 0x012 => s.setThread k { t with srseed := v, lfsr := seedLfsr v }
  | 0x018 => s.setThread k { t with leasemax := v.truncate 9 }
  | 0x019 => s.setThread k { t with marchLimit := v.truncate 21 }
  | 0x022 => s.setPool (coreOf k) v.toNat
  | 0x030 => s.setThread k { t with dbg := v.truncate 2 }
  | 0x800 => s.setThread k { t with cause := v }
  | 0x801 => s.setThread k { t with tval := v }
  | 0x802 => s.setThread k { t with epc := v }
  | _ => s

/-- The checks of R24 and R67 on an index. -/
def checkCreg (s : State) (i : Nat) : Res Unit :=
  if !isSpring s.cur && i ≥ 0x800 then privilege s
  else if !cregKnown i then illegal s
  else .ok ()

/-- The value MFS reads (R222). -/
def readCreg (s : State) (i : Nat) : Res (Word × State) :=
  match i with
  | 0x000 => do
    let (n, s) ← readVl s
    .ok (BitVec.ofNat 64 n, s)
  | 0x001 => do
    let (n, s) ← readVstart s
    .ok (BitVec.ofNat 64 n, s)
  | 0x029 => .ok (BitVec.ofNat 64 s.seenTime, { s with fresh := s.fresh + 1 })
  | _ => .ok (s.cregView s.cur i, s)

end Sys2Proof.Machine
end

