-- ==== Sys2Proof/Machine/Flags.lean ====
section
/-! DEFINITION. The element operations of the vector instructions on bit patterns (R116 to R123, R129, R130), each with the
flags of c.fflags it raises (R26, R43 to R46, R52, R53), and the sticky register itself. -/
namespace Sys2Proof.Machine

/-- ORs flags into c.fflags (R53). -/
def Thread.addFlags (t : Thread) (f : Flags) : Thread := { t with fflags := t.fflags ||| BitVec.ofNat 5 f }

/-- Quo of R92 on integers: truncated towards zero. -/
def quoInt (x y : Int) : Int := x.tdiv y

/-- The integer operations of R116, by fn7, on w-bit patterns. -/
def vecInt (c w ua ub ud : Nat) : Nat :=
  let sa := signedOf ua w
  let sb := signedOf ub w
  match c with
  | 0x00 => (ua + ub) % 2 ^ w
  | 0x01 => truncInt ((ua : Int) - ub) w
  | 0x02 => (ua * ub) % 2 ^ w
  | 0x03 => truncInt (sa * sb / (2 ^ w : Nat)) w
  | 0x04 => ua * ub / 2 ^ w
  | 0x05 => (ua * ub + ud) % 2 ^ w
  | 0x06 => if ub = 0 then 2 ^ w - 1 else truncInt (quoInt sa sb) w
  | 0x07 => if ub = 0 then 2 ^ w - 1 else ua / ub
  | 0x08 => if ub = 0 then ua else truncInt (sa - sb * quoInt sa sb) w
  | 0x09 => if ub = 0 then ua else ua % ub
  | 0x0A => ua &&& ub
  | 0x0B => ua ||| ub
  | 0x0C => ua ^^^ ub
  | 0x0D => (ua * 2 ^ (ub % w)) % 2 ^ w
  | 0x0E => ua / 2 ^ (ub % w)
  | 0x0F => truncInt (sa / (2 ^ (ub % w) : Nat)) w
  | 0x10 => truncInt (min sa sb) w
  | 0x11 => truncInt (max sa sb) w
  | 0x12 => min ua ub
  | 0x13 => max ua ub
  | 0x14 => truncInt (satS (sa + sb) w) w
  | 0x15 => truncInt (satN ((ua : Int) + ub) w) w
  | 0x16 => truncInt (satS (sa - sb) w) w
  | 0x17 => truncInt (satN ((ua : Int) - ub) w) w
  | _ => truncInt (sa.natAbs : Int) w

/-- The integer compares of R117, by fn7. -/
def vecCmpInt (c w ua ub : Nat) : Bool :=
  let sa := signedOf ua w
  let sb := signedOf ub w
  match c with
  | 0x20 => ua == ub
  | 0x21 => ua != ub
  | 0x22 => sa < sb
  | 0x23 => sa ≥ sb
  | 0x24 => ua < ub
  | _ => ua ≥ ub

/-- The widening forms of R118 from width w, by fn7. -/
def vecWide (c w : Nat) (signed : Bool) (ua ub : Nat) : Nat :=
  let x : Int := if signed then signedOf ua w else ua
  let y : Int := if signed then signedOf ub w else ub
  truncInt (if c = 0x28 then x + y else x * y) (2 * w)

/-- A value rounded into a format, with the flags of the operation that formed it. -/
def rounded (f : Fp) (mode : RMode) (r : Val × Flags) : Nat × Flags :=
  let (code, g) := roundTo f mode r.1
  (code, r.2 ||| g)

/-- A code with another sign bit; a NaN gives the canonical NaN (R119). -/
def withSign (f : Fp) (a : Nat) (neg : Bool) : Nat :=
  match decodeFp f a with
  | .nan => f.canonNan
  | _ => a % 2 ^ (f.width - 1) + (if neg then 2 ^ (f.width - 1) else 0)

/-- A value stored unrounded: an operand's own value (R37). -/
def exactCode (f : Fp) (v : Val) : Nat := (roundTo f .rne v).1

/-- The floating-point operations of R119, by fn7. -/
def vecFlt (f : Fp) (mode : RMode) (c a b d : Nat) : Nat × Flags :=
  let x := decodeFp f a
  let y := decodeFp f b
  let z := decodeFp f d
  let down := mode == .rdn
  match c with
  | 0x00 => rounded f mode (Val.add down x y)
  | 0x01 => rounded f mode (Val.add down x y.negate)
  | 0x02 => rounded f mode (Val.mul x y)
  | 0x03 => rounded f mode (Val.div x y)
  | 0x04 => rounded f mode (Val.fma down x y z)
  | 0x05 => rounded f mode (Val.fma down x y z.negate)
  | 0x06 => rounded f mode (Val.fma down x.negate y z)
  | 0x07 => (exactCode f (Val.min2 x y), 0)
  | 0x08 => (exactCode f (Val.max2 x y), 0)
  | 0x09 => (withSign f a (bitAt b (f.width - 1)), 0)
  | 0x0A => (withSign f a (!bitAt b (f.width - 1)), 0)
  | 0x10 => rounded f mode x.sqrt
  | 0x11 => rounded f mode x.recip
  | 0x12 => rounded f mode x.rsqrt
  | 0x13 => rounded f mode x.exp2
  | 0x14 => rounded f mode x.log2
  | 0x15 => (withSign f a false, 0)
  | _ => (withSign f a (!bitAt a (f.width - 1)), 0)

/-- The class code of R120. -/
def vecClass (f : Fp) (a : Nat) : Nat :=
  let sub := bitsOf a f.fbits (f.width - 1 - f.fbits) == 0
  match decodeFp f a with
  | .nan => 2 ^ 8
  | .inf s => if s then 1 else 2 ^ 7
  | .zero s => if s then 2 ^ 3 else 2 ^ 4
  | .fin s _ _ => if s then (if sub then 2 ^ 2 else 2) else (if sub then 2 ^ 5 else 2 ^ 6)

/-- The float compares of R121, by fn7: the relation and the flags. -/
def vecCmpFlt (f : Fp) (c a b : Nat) : Bool × Flags :=
  let x := decodeFp f a
  let y := decodeFp f b
  let un := x == .nan || y == .nan
  match c with
  | 0x20 => (Val.eqv x y, 0)
  | 0x21 => (Val.lt x y, if un then flagNV else 0)
  | 0x22 => (Val.lt x y || Val.eqv x y, if un then flagNV else 0)
  | _ => (un, 0)

/-- The value of a code of an integer or floating-point format. -/
def codeValue (fmt code : Nat) : Val :=
  if fmtIsInt fmt then Val.ofInt (if fmtIsSigned fmt then signedOf code (fmtWidth fmt) else code % 2 ^ fmtWidth fmt)
  else decodeFp (fmtFp fmt) code

/-- VCVT of one element (R46, R123). -/
def vecCvt (src dst : Nat) (mode : RMode) (code : Nat) : Nat × Flags :=
  if fmtIsInt src && fmtIsInt dst then
    (truncInt (if fmtIsSigned src then signedOf code (fmtWidth src) else (code : Int)) (fmtWidth dst), 0)
  else if fmtIsInt dst then roundToInt (fmtIsSigned dst) (fmtWidth dst) mode (codeValue src code)
  else roundTo (fmtFp dst) mode (codeValue src code)

/-- VCVT.SAT of one element (R123). -/
def vecSat (src dst code : Nat) : Nat :=
  let x : Int := if fmtIsSigned src then signedOf code (fmtWidth src) else (code : Int)
  truncInt (if fmtIsSigned dst then satS x (fmtWidth dst) else satN x (fmtWidth dst)) (fmtWidth dst)

/-- The smaller or larger of two patterns, signed for S tags (R129). -/
def pickInt (w : Nat) (signed larger : Bool) (x y : Nat) : Nat :=
  let lt : Bool := if signed then signedOf x w < signedOf y w else x < y
  if lt == larger then y else x

/-- The combining step of the integer reductions of R130, by fn7. -/
def reduceInt (c w x y : Nat) : Nat :=
  match c with
  | 0x10 => (x + y) % 2 ^ w
  | 0x11 => pickInt w true false x y
  | 0x12 => pickInt w true true x y
  | 0x13 => pickInt w false false x y
  | 0x14 => pickInt w false true x y
  | 0x15 => x &&& y
  | 0x16 => x ||| y
  | _ => x ^^^ y

/-- The combining step of the float reductions of R130, by fn7. -/
def reduceFlt (f : Fp) (mode : RMode) (c x y : Nat) : Nat × Flags :=
  match c with
  | 0x18 => vecFlt f mode 0x00 x y 0
  | 0x19 => vecFlt f mode 0x07 x y 0
  | _ => vecFlt f mode 0x08 x y 0

/-- One level of the tree of R54: positions 2j and 2j + 1 combine, and an absent one passes the other up. -/
def treeLevel {α : Type} (op : α → α → α) : List (Option α) → List (Option α)
  | [] => []
  | [x] => [x]
  | x :: y :: t =>
    (match x, y with
      | some a, some b => some (op a b)
      | some a, none => some a
      | none, b => b) :: treeLevel op t

/-- The root of the tree of R54 over a list of leaves; `n` levels. -/
def treeRoot {α : Type} (op : α → α → α) : Nat → List (Option α) → Option α
  | 0, l => (l.head?).join
  | n + 1, l => treeRoot op n (treeLevel op l)

end Sys2Proof.Machine
end

