-- ==== Sys2Proof/Machine/Vector.lean ====
section
/-! DEFINITION. What the vector instructions share: elements and masks (R14, R16, R17, R32), the issue checks (R13, R67, R106,
R407), the reading of operands with poison (R281 to R283), and the writing of results (R107). A vector instruction starts
when it issues where its thread's queue is empty and the vector unit is free, and else by the sequencer (R104, R345). -/
namespace Sys2Proof.Machine

/-! ## Elements, groups and masks -/

/-- The format code of a register's tag. -/
def Thread.fmt (t : Thread) (r : Nat) : Nat := (t.getV r).fmt.toNat
/-- The registers of the group that a register's tag names (R14). -/
def Thread.grp (t : Thread) (r : Nat) : Nat := 2 ^ (t.getV r).grp.toNat
/-- The width of a register's elements. -/
def Thread.ew (t : Thread) (r : Nat) : Nat := fmtWidth (t.fmt r)
/-- The element count of the group at a register. -/
def Thread.count (t : Thread) (r : Nat) : Nat := t.grp r * 1024 / t.ew r

/-- Elem(v[r], i) of width w as a pattern (R32). -/
def Thread.elem (t : Thread) (r i w : Nat) : Nat := bitsOf (t.getV (r + i * w / 1024)).bits.toNat (i * w % 1024) w

/-- Whether an element lies in a poisoned word. -/
def Thread.elemPoisoned (t : Thread) (r i w : Nat) : Bool :=
  t.poison.contains (vWord r i w) || (w == 64 && t.poison.contains (vWord r i w + 1))

/-- The element width of a BOUND mask's width code (R16, R131). -/
def maskWidth (code : Nat) : Nat := 2 ^ (code + 2)

/-- Whether mask m selects element i of width w in a group of `elems` elements (R16, R17). -/
def Thread.selects (t : Thread) (m w elems i : Nat) : Bool :=
  if m = 0 then true
  else
    let k := t.getM m
    if k.bound then i * w < k.n.toNat * maskWidth k.wc.toNat
    else k.bits.getLsbD (if elems > 1024 then i / 2 else i)

/-- The active elements in ascending order (R9, R17). -/
def Thread.actives (t : Thread) (m w elems vl vstart : Nat) : List Nat :=
  ((List.range vl).drop vstart).filter (t.selects m w elems)

/-! ## The issue part (R104, R67) -/

/-- The value of a control register that an instruction captures, for its checks; the trap of R23 comes after them. -/
def capture (s : State) (code : Nat) (old : Word) : Word × State :=
  match readPending s code old with
  | .ok r => r
  | .error _ => (old, s)

/-- The pending-read trap of the registers an instruction has captured (R23), after the checks of R67 (log entry 92). -/
def captured (s : State) (codes : List Nat) : Res Unit :=
  if s.thr.dbg.getLsbD 0 then
    match codes.find? (fun c => (pendingOf s.thr.pend c).isSome) with
    | some c => trapNow s 0x08 (BitVec.ofNat 64 c)
    | none => .ok ()
  else .ok ()

/-- What a vector instruction does first at issue: W, and the values of c.vl and c.vstart that it captures (R22, R23, R104). The
instructions whose entries use neither capture neither (log entry 92). -/
def vecBegin (w : Bool) (s : State) : Res (Nat × Nat × State) := do
  let s ← waitW w s
  let (vl, s) := capture s codeVl (s.thr.vl.zeroExtend 64)
  let (vs, s) := capture s codeVstart (s.thr.vstart.zeroExtend 64)
  .ok (vl.toNat, vs.toNat, s)

/-- The lowest number of a list, where there is one. -/
def least : List Nat → Option Nat
  | [] => none
  | x :: t => match least t with
    | some y => some (min x y)
    | none => some x

/-- The register-bound check of R13 on the groups at the registers named; the spans are register and count. -/
def boundCheck (s : State) (rs : List Nat) (spans : List (Nat × Nat)) : Res Unit :=
  let t := s.thr
  let all := rs.map (fun r => (r, if r < t.budget then t.grp r else 1)) ++ spans
  match least ((all.filter (fun e => e.1 + e.2 > t.budget)).map (fun e => max e.1 t.budget)) with
  | some r => trapNow s 0x03 (BitVec.ofNat 64 r)
  | none => .ok ()

/-- Whether a register starts a tagged group with a format and group that fit, holding `vl` elements (R14, R106); a reserved
format code, which only a context block can bring, does not fit (log entry 51). -/
def Thread.fits (t : Thread) (vl r : Nat) (p : Nat → Nat → Bool) : Bool :=
  fmtWidth (t.fmt r) != 0 && r % t.grp r == 0 && (List.range (t.grp r)).all (fun j => t.fmt (r + j) != 0) &&
    p (t.fmt r) (t.grp r) && vl * t.ew r ≤ t.grp r * 1024

/-- The tag check (R106): the first operand that fails, by its register number (R407). -/
def tagCheck (s : State) (vl : Nat) : List (Nat × (Nat → Nat → Bool)) → Res Unit
  | [] => .ok ()
  | (r, p) :: t => if s.thr.fits vl r p then tagCheck s vl t else trapNow s 0x04 (BitVec.ofNat 64 r)

/-- The tag trap of an operand where a condition fails. -/
def tagUnless (s : State) (r : Nat) (ok : Bool) : Res Unit := if ok then .ok () else trapNow s 0x04 (BitVec.ofNat 64 r)

/-- Whether two groups share a register. -/
def overlaps (a n b m : Nat) : Bool := a < b + m && b < a + n

/-- VF4, whose elements no instruction reads without a VSCALE source (R41). -/
def fmtVf4 : Nat := 0x10

/-- The form "same" (R106): the first register's tag satisfies `p`, and every other, a source, carries its format and group and is
not VF4 (R41). -/
def sameForm (s : State) (vl : Nat) (p : Nat → Bool) (r : Nat) (others : List Nat) : Res Unit := do
  boundCheck s (r :: others) []
  let f := s.thr.fmt r
  let n := s.thr.grp r
  tagCheck s vl ((r, fun x _ => p x) :: others.map (fun o => (o, fun x y => x == f && y == n && x != fmtVf4)))

/-- An issued vector instruction: its operation, fields and what it captured (R104). -/
def mkCmd (s : State) (op : VOp) (d a b m vl vs : Nat) : VCmd :=
  { op := op, d := d, a := a, b := b, m := m, r := 0, x := 0, y := 0, vl := vl, vstart := vs, frm := s.thr.frm.toNat, pc := s.thr.pc,
    id := 0, tags := [] }

/-! ## Reading operands -/

/-- An element that an instruction reads: its group's register, its index and its width. -/
structure ERead where
  r : Nat
  i : Nat
  w : Nat
  deriving DecidableEq, Repr

/-- The machine check of a poisoned element (R283). -/
def vecTval (e : ERead) : Word := BitVec.ofNat 64 (2 * 2 ^ 56 + e.i * 2 ^ 12 + 32 + (e.r + e.i * e.w / 1024))

/-- Logs deferred poison (R282): a poisoned word of a register that the instruction reads in part, whose own elements it
does not read; `t` is the thread as the instruction reads it. -/
def State.logDeferredOf (s : State) (t : Thread) (rs : List ERead) : State :=
  let regs := rs.map (fun e => e.r + e.i * e.w / 1024)
  let words := rs.flatMap (fun e => if e.w = 64 then [vWord e.r e.i e.w, vWord e.r e.i e.w + 1] else [vWord e.r e.i e.w])
  t.poison.foldl (fun s p =>
    if 0x10000 ≤ p && p < 0x20000 && regs.contains ((p - 0x10000) / 32) && !words.contains p then
      match rs.find? (fun e => e.r + e.i * e.w / 1024 == (p - 0x10000) / 32) with
      | some e =>
        let i := ((p - 0x10000) / 32 - e.r) * (1024 / e.w) + p % 32 * 32 / e.w
        s.logError (dieOf s.cur) ⟨2, i * 2 ^ 12 + 32 + (p - 0x10000) / 32, s.clk, 1⟩
      | none => s
    else s) s

/-- Logs the deferred poison of an instruction that reads the current thread's registers as they stand. -/
def State.logDeferred (s : State) (rs : List ERead) : State := s.logDeferredOf s.thr rs

/-- Whether the mask operand reads a poisoned word for some element from c.vstart to c.vl (R281). -/
def Thread.maskPoisoned (t : Thread) (m elems vl vstart : Nat) : Bool :=
  m != 0 && ((List.range vl).drop vstart).any (fun i =>
    t.poison.contains (0x20000 + m * 32 + (if (t.getM m).bound then 0 else (if elems > 1024 then i / 2 else i) / 32)))

/-- Consumes the mask operand of a vector instruction (R281, R283). -/
def consumeMask (s : State) (c : VCmd) (elems : Nat) : Res Unit :=
  if s.thr.maskPoisoned c.m elems c.vl c.vstart then .error ⟨s, .held (BitVec.ofNat 64 (3 * 2 ^ 56 + 96 + c.m)) c⟩ else .ok ()

/-- Consumes the elements that an instruction reads (R281). -/
def consumeElems (s : State) (c : VCmd) (rs : List ERead) : Res State :=
  match rs.find? (fun e => s.thr.elemPoisoned e.r e.i e.w) with
  | some e => .error ⟨s, .held (vecTval e) c⟩
  | none => .ok (s.logDeferred rs)

/-! ## Writing results -/

/-- Sets c.vstart to 0 (R107); the write is younger than a pending one (R23). -/
def Thread.clearVstart (t : Thread) : Thread := { t with vstart := 0, pend := t.pend.map (Pend.drop codeVstart) }

/-- An element-wise instruction (R107): for each element of `idx`, the elements `reads` gives are consumed, and `val` gives
the pattern to write, or none where the element keeps its value. -/
def vecMap (s : State) (c : VCmd) (wd : Nat) (idx : List Nat) (reads : Nat → List ERead)
    (val : Nat → List Nat → Option (Nat × Flags)) : Res State := do
  let s ← consumeElems s c (idx.flatMap reads)
  let t := s.thr
  let outs := idx.filterMap (fun i => (val i ((reads i).map (fun e => t.elem e.r e.i e.w))).map (fun r => (i, r)))
  let t := t.writeElems c.d wd (outs.map (fun e => (e.1, e.2.1)))
  .ok (s.putThr ((t.addFlags (outs.foldl (fun f e => f ||| e.2.2) 0)).clearVstart))

/-- The active elements of a command whose destination group is v[d] (R106). -/
def destActives (s : State) (c : VCmd) : Res (List Nat) := do
  let t := s.thr
  consumeMask s c (t.count c.d)
  .ok (t.actives c.m (t.ew c.d) (t.count c.d) c.vl c.vstart)

/-- The active elements of a command whose first source is v[a] (R106). -/
def sourceActives (s : State) (c : VCmd) : Res (List Nat) := do
  let t := s.thr
  consumeMask s c (t.count c.a)
  .ok (t.actives c.m (t.ew c.a) (t.count c.a) c.vl c.vstart)

/-- A mask in BITS form. -/
def bitsMask (b : BitVec 1024) : Mask := ⟨false, b, 0, 0⟩

/-- The number with the bits of a list set. -/
def bitSum (l : List Nat) : Nat := l.foldl (fun n i => n ||| 2 ^ i) 0

end Sys2Proof.Machine
end

