-- ==== Sys2Proof/Machine/VecRun.lean ====
section
/-! DEFINITION. The execution part of the vector instructions that touch registers only (R107, R112, R113, R116 to R132). -/
namespace Sys2Proof.Machine

/-! ## Moves (R112, R113) -/

/-- The poisoned words of the active elements of a group. -/
def Thread.poisonedElems (t : Thread) (r w : Nat) (idx : List Nat) : List Nat := idx.filter (fun i => t.elemPoisoned r i w)

/-- The g result of a vector instruction (R21): pending since its issue where it was queued, and from now on where it starts at
once. -/
def State.vecResult (s : State) (c : VCmd) (v : Word) : State :=
  if c.id = 0 then s.addPend [(c.d, v)]
  else s.putThr { s.thr with pend := s.thr.pend.map (Pend.fix c.id [(c.d, v)]) }

/-- VMV (R112): poison travels with the elements (R281). -/
def runMv (s : State) (c : VCmd) : Res State := do
  let idx ← destActives s c
  let t := s.thr
  let w := t.ew c.d
  let bad := t.poisonedElems c.a w idx
  let s := s.logDeferred (idx.map (fun i => ⟨c.a, i, w⟩))
  let t := t.writeElems c.d w (idx.map (fun i => (i, s.thr.elem c.a i w)))
  .ok (s.putThr (t.poisonElems c.d w bad).clearVstart)

/-- VSPLAT (R112). -/
def runSplat (s : State) (c : VCmd) : Res State := do
  let idx ← destActives s c
  let w := s.thr.ew c.d
  vecMap s c w idx (fun _ => []) (fun _ _ => some (c.x.toNat % 2 ^ w, 0))

/-- An element extended to 64 bits (R113). -/
def extendElem (fmt w x : Nat) : Word := if fmtIsSigned fmt then BitVec.ofInt 64 (signedOf x w) else BitVec.ofNat 64 x

/-- VGET (R113). -/
def runGet (s : State) (c : VCmd) : Res State := do
  let t := s.thr
  let w := t.ew c.a
  let i := c.y.toNat % t.count c.a
  let s ← consumeElems s c [⟨c.a, i, w⟩]
  .ok (s.vecResult c (extendElem (t.fmt c.a) w (t.elem c.a i w)))

/-- VPUT (R113). -/
def runPut (s : State) (c : VCmd) : Res State :=
  let t := s.thr
  let w := t.ew c.d
  .ok (s.putThr (t.writeElems c.d w [(c.y.toNat % t.count c.d, c.x.toNat % 2 ^ w)]))

/-- The poison codes of a whole register. -/
def regWords (r : Nat) : List Nat := (List.range 32).map (fun i => 0x10000 + r * 32 + i)

/-- A copy of a whole register's bits with their poison; the tag has been copied at issue (R114). -/
def runMoveReg (s : State) (src dst : Nat) : Res State :=
  let t := s.thr
  let bad := (List.range 32).filter (fun i => t.poison.contains (0x10000 + src * 32 + i))
  let x := t.getV dst
  let p := t.poison.filter (fun p => !(regWords dst).contains p) ++ bad.map (fun i => 0x10000 + dst * 32 + i)
  .ok (s.putThr { t.setV dst { x with bits := (t.getV src).bits } with poison := if src = dst then t.poison else p })

/-! ## Element-wise arithmetic (R116 to R122) -/

/-- Whether an integer operation reads v[d] (R116). -/
def readsDestInt (c : Nat) : Bool := c == 0x05
/-- Whether a floating-point operation reads v[d] (R119). -/
def readsDestFlt (c : Nat) : Bool := c == 0x04 || c == 0x05 || c == 0x06

/-- The reads of an operation with sources v[a] and, unless `scalar`, v[b], and v[d] where it is read. -/
def opReads (c : VCmd) (w : Nat) (unary scalar dest : Bool) (i : Nat) : List ERead :=
  [⟨c.a, i, w⟩] ++ (if unary || scalar then [] else [⟨c.b, i, w⟩]) ++ (if dest then [⟨c.d, i, w⟩] else [])

/-- The patterns of an operation's operands a, b and d from what it read. -/
def opArgs (unary scalar dest : Bool) (y : Nat) (xs : List Nat) : Nat × Nat × Nat :=
  let a := xs.headD 0
  let b := if unary then 0 else if scalar then y else (xs.drop 1).headD 0
  let d := if dest then xs.getLastD 0 else 0
  (a, b, d)

/-- The scalar operand of a .G form as a pattern of the source width (R122). -/
def scalarPattern (c : VCmd) (w : Nat) : Nat := c.y.toNat % 2 ^ w

/-- The operations of R116 on v[b] or g[b]. -/
def runInt (s : State) (c : VCmd) (code : Nat) (scalar : Bool) : Res State := do
  let idx ← destActives s c
  let w := s.thr.ew c.d
  let dest := readsDestInt code
  let unary := code == 0x18
  vecMap s c w idx (opReads c w unary scalar dest) (fun _ xs =>
    let (a, b, d) := opArgs unary scalar dest (scalarPattern c w) xs
    some (vecInt code w a b d, 0))

/-- The widening forms of R118 on v[b] or g[b]. -/
def runWide (s : State) (c : VCmd) (code : Nat) (scalar : Bool) : Res State := do
  let idx ← destActives s c
  let w := s.thr.ew c.a
  let signed := fmtIsSigned (s.thr.fmt c.a)
  vecMap s c (2 * w) idx (opReads c w false scalar false) (fun _ xs =>
    let (a, b, _) := opArgs false scalar false (scalarPattern c w) xs
    some (vecWide code w signed a b, 0))

/-- The operations of R119 on v[b] or g[b]. -/
def runFlt (s : State) (c : VCmd) (code : Nat) (scalar : Bool) : Res State := do
  let idx ← destActives s c
  let w := s.thr.ew c.d
  let f := fmtFp (s.thr.fmt c.d)
  let dest := readsDestFlt code
  let unary := code ≥ 0x10
  vecMap s c w idx (opReads c w unary scalar dest) (fun _ xs =>
    let (a, b, d) := opArgs unary scalar dest (scalarPattern c w) xs
    some (vecFlt f (frmMode c.frm) code a b d))

/-- VFCLASS (R120). -/
def runClass (s : State) (c : VCmd) : Res State := do
  let idx ← destActives s c
  let w := s.thr.ew c.d
  let f := fmtFp (s.thr.fmt c.a)
  vecMap s c w idx (fun i => [⟨c.a, i, w⟩]) (fun _ xs => some (vecClass f (xs.headD 0), 0))

/-- A compare's result (R117): the relation of each active element goes to m[d], every other bit is 0. -/
def runCompare (s : State) (c : VCmd) (scalar : Bool) (rel : Nat → Nat → Bool × Flags) : Res State := do
  let idx ← sourceActives s c
  let w := s.thr.ew c.a
  let reads := opReads c w false scalar false
  let s ← consumeElems s c (idx.flatMap reads)
  let t := s.thr
  let res := idx.map (fun i =>
    let (a, b, _) := opArgs false scalar false (scalarPattern c w) ((reads i).map (fun e => t.elem e.r e.i e.w))
    (i, rel a b))
  let bits := bitSum ((res.filter (fun e => e.2.1)).map Prod.fst)
  let t := t.setM c.d (bitsMask (BitVec.ofNat 1024 bits))
  .ok (s.putThr ((t.addFlags (res.foldl (fun f e => f ||| e.2.2) 0)).clearVstart))

/-- The compares of R117. -/
def runCmpInt (s : State) (c : VCmd) (code : Nat) (scalar : Bool) : Res State :=
  let w := s.thr.ew c.a
  runCompare s c scalar (fun a b => (vecCmpInt code w a b, 0))

/-- The compares of R121. -/
def runCmpFlt (s : State) (c : VCmd) (code : Nat) (scalar : Bool) : Res State :=
  let f := fmtFp (s.thr.fmt c.a)
  runCompare s c scalar (vecCmpFlt f code)

/-! ## Conversions (R123 to R125) -/

/-- Lane(i) at a width (R32). -/
def laneOf (w i : Nat) : Nat := i * w % 1024 / 32

/-- Steps the lane generators for elements in order (R49): the number each draws, and the generators after. -/
def drawLanes (w : Nat) : List Nat → Tab (BitVec 32) → List (Nat × Nat) × Tab (BitVec 32)
  | [], g => ([], g)
  | i :: t, g =>
    let u := lfsrStep (g.getD (laneOf w i) (lfsrSeed 0 (laneOf w i)))
    let (r, g') := drawLanes w t (g.set (laneOf w i) u)
    ((i, u.toNat) :: r, g')

/-- The rounding mode of a conversion's field: c.frm for 0b111 (R69, R123). -/
def cvtMode (r frm : Nat) : RMode := if r = 7 then frmMode frm else frmMode r

/-- The mode of each element, and the thread with its generators stepped under SR (R49). -/
def cvtModes (t : Thread) (r frm w : Nat) (idx : List Nat) : (Nat → RMode) × Thread :=
  if r = 4 then
    let (us, g) := drawLanes w idx t.lfsr
    (fun i => .sr (Tab.getD us i 0), { t with lfsr := g })
  else (fun _ => cvtMode r frm, t)

/-- A conversion of one element at a time. -/
def runConvert (s : State) (c : VCmd) (reads : Nat → List ERead) (val : RMode → List Nat → Nat × Flags) : Res State := do
  let idx ← destActives s c
  let _ ← consumeElems s c (idx.flatMap reads)
  let (mode, t) := cvtModes s.thr c.r c.frm (s.thr.ew c.a) idx
  vecMap (s.putThr t) c (t.ew c.d) idx reads (fun i xs => some (val (mode i) xs))

/-- VCVT (R123). -/
def runCvt (s : State) (c : VCmd) : Res State :=
  let t := s.thr
  runConvert s c (fun i => [⟨c.a, i, t.ew c.a⟩]) (fun m xs => vecCvt (t.fmt c.a) (t.fmt c.d) m (xs.headD 0))

/-- VCVT.SAT (R123). -/
def runSat (s : State) (c : VCmd) : Res State :=
  let t := s.thr
  runConvert s c (fun i => [⟨c.a, i, t.ew c.a⟩]) (fun _ xs => (vecSat (t.fmt c.a) (t.fmt c.d) (xs.headD 0), 0))

/-- The place of element i's scale byte in a scale register, for a group at register v (R42). -/
def scalePlace (v w i : Nat) : Nat :=
  let bpr := if w = 4 then 8 else 4
  (v + i * w / 1024) % (128 / bpr) * bpr + i / 32 % bpr

/-- VCVT.SC (R124). -/
def runSc (s : State) (c : VCmd) : Res State :=
  let t := s.thr
  let w := t.ew c.a
  runConvert s c (fun i => [⟨c.a, i, w⟩, ⟨c.b, scalePlace c.a w i, 8⟩])
    (fun m xs => roundTo (fmtFp (t.fmt c.d)) m (scaledValue (t.fmt c.a) (some ((xs.drop 1).headD 0)) (xs.headD 0)))

/-- One block of VCVT.DS (R50, R51, R125): its scale byte, codes and flags. -/
def dsBlock (t : Thread) (c : VCmd) (mode : Nat → RMode) (blk : Nat) : Nat × List Nat × Flags :=
  let f := fmtFp (t.fmt c.a)
  let xs := (List.range 32).map (fun j => (decodeFp f (t.elem c.a (32 * blk + j) f.width), mode (32 * blk + j)))
  if t.fmt c.d = 0x10 then vf4Block xs else mxBlock (t.fmt c.d) xs

/-- VCVT.DS (R125): whole blocks from c.vstart to c.vl, in order, the scale byte of each before its codes. -/
def runDs (s : State) (c : VCmd) : Res State := do
  let idx := (List.range c.vl).drop c.vstart
  let s ← consumeElems s c (idx.map (fun i => ⟨c.a, i, s.thr.ew c.a⟩))
  let (mode, t) := cvtModes s.thr c.r c.frm (s.thr.ew c.a) idx
  let w := t.ew c.d
  let blks := ((List.range (c.vl / 32)).drop (c.vstart / 32)).map (fun k => (k, dsBlock t c mode k))
  let put (t : Thread) (e : Nat × Nat × List Nat × Flags) : Thread :=
    (t.writeElems c.b 8 [(scalePlace c.d w (32 * e.1), e.2.1)]).writeElems c.d w
      ((List.range 32).zipWith (fun j x => (32 * e.1 + j, x)) e.2.2.1)
  let t := blks.foldl put t
  .ok (s.putThr ((t.addFlags (blks.foldl (fun f e => f ||| e.2.2.2) 0)).clearVstart))

/-! ## Movement (R126 to R128) -/

/-- VSHIFT and VROT (R126): the source index of element i, or none where zero is written. -/
def shiftSource (rotate : Bool) (vl : Nat) (amount : Int) (i : Nat) : Option Nat :=
  let j : Int := (i : Int) - amount
  if rotate then some ((j.emod vl).toNat) else if 0 ≤ j && j < vl then some j.toNat else none

/-- A movement form: the source index of each active element, or the pattern fed in (R126). -/
def runMove (s : State) (c : VCmd) (src : Nat → Option Nat) (feed : Nat) : Res State := do
  let idx ← destActives s c
  let w := s.thr.ew c.d
  vecMap s c w idx (fun i => match src i with
    | some j => [⟨c.a, j, w⟩]
    | none => []) (fun _ xs => some (xs.headD feed, 0))

/-- VSHIFT and VROT (R126). -/
def runShift (s : State) (c : VCmd) (rotate : Bool) : Res State :=
  runMove s c (shiftSource rotate c.vl c.y.toInt) 0

/-- VFEEDLO and VFEEDHI (R126). -/
def runFeed (s : State) (c : VCmd) (hi : Bool) : Res State :=
  let w := s.thr.ew c.d
  runMove s c (fun i => if hi then (if i + 1 = c.vl then none else some (i + 1)) else (if i = 0 then none else some (i - 1)))
    (c.y.toNat % 2 ^ w)

/-- VPICK (R127): an index at or above c.vl leaves the element as it was. -/
def runPick (s : State) (c : VCmd) : Res State := do
  let idx ← destActives s c
  let t := s.thr
  let w := t.ew c.d
  let wi := t.ew c.b
  let s ← consumeElems s c (idx.map (fun i => ⟨c.b, i, wi⟩))
  let live := idx.filter (fun i => t.elem c.b i wi < c.vl)
  vecMap s c w live (fun i => [⟨c.a, t.elem c.b i wi, w⟩]) (fun _ xs => some (xs.headD 0, 0))

/-- Pairs each number of a list with its place. -/
def ranked : List Nat → Nat → List (Nat × Nat)
  | [], _ => []
  | i :: t, k => (i, k) :: ranked t (k + 1)

/-- VPACK (R128): the active elements at the front, zeros behind them up to c.vl. -/
def runPack (s : State) (c : VCmd) : Res State := do
  let idx ← sourceActives s c
  let w := s.thr.ew c.a
  let s ← consumeElems s c (idx.map (fun i => ⟨c.a, i, w⟩))
  let t := s.thr
  let front := (ranked idx 0).map (fun e => (e.2, t.elem c.a e.1 w))
  let rest := ((List.range c.vl).drop idx.length).map (fun i => (i, 0))
  .ok (s.putThr (t.writeElems c.d w (front ++ rest)).clearVstart)

/-- VSPREAD (R128): element i takes the source element of its rank among the active ones, from element 0 on. -/
def runSpread (s : State) (c : VCmd) : Res State := do
  let c := { c with vstart := 0 }
  let idx ← destActives s c
  let w := s.thr.ew c.d
  let r := ranked idx 0
  vecMap s c w idx (fun i => [⟨c.a, Tab.getD r i 0, w⟩]) (fun _ xs => some (xs.headD 0, 0))

/-! ## Scans and reductions (R129, R130) -/

/-- The running results of a scan (R129), with the flags. -/
def scanList (op : Nat → Nat → Nat × Flags) : Nat → List (Nat × Nat) → List (Nat × Nat) × Flags
  | _, [] => ([], 0)
  | acc, (i, e) :: t =>
    let (x, f) := op acc e
    let (r, g) := scanList op x t
    ((i, x) :: r, f ||| g)

/-- A scan (R129). -/
def runScan (s : State) (c : VCmd) (op : Nat → Nat → Nat × Flags) : Res State := do
  let idx ← destActives s c
  let w := s.thr.ew c.a
  let s ← consumeElems s c (idx.map (fun i => ⟨c.a, i, w⟩))
  let t := s.thr
  let (xs, f) := scanList op (c.y.toNat % 2 ^ w) (idx.map (fun i => (i, t.elem c.a i w)))
  .ok (s.putThr (((t.writeElems c.d w xs).addFlags f).clearVstart))

/-- VSCANADD, VSCANMIN, VSCANMAX (R129), by fn7. -/
def runScanInt (s : State) (c : VCmd) (code : Nat) : Res State :=
  let w := s.thr.ew c.a
  let sg := fmtIsSigned (s.thr.fmt c.a)
  runScan s c (fun x y => (match code with
    | 0x08 => (x + y) % 2 ^ w
    | 0x09 => pickInt w sg false x y
    | _ => pickInt w sg true x y, 0))

/-- VFSCANADD (R129). -/
def runScanFlt (s : State) (c : VCmd) : Res State :=
  let f := fmtFp (s.thr.fmt c.a)
  runScan s c (fun x y => vecFlt f (frmMode c.frm) 0x00 x y 0)

/-- A reduction to g[d] (R54, R130): the tree over the elements, then the start value. -/
def runReduce (s : State) (c : VCmd) (op : Nat → Nat → Nat × Flags) : Res State := do
  let idx ← sourceActives s c
  let w := s.thr.ew c.a
  let s ← consumeElems s c (idx.map (fun i => ⟨c.a, i, w⟩))
  let t := s.thr
  let comb (x y : Nat × Flags) : Nat × Flags :=
    let r := op x.1 y.1
    (r.1, x.2 ||| y.2 ||| r.2)
  let leaves := (List.range c.vl).map (fun i => if idx.contains i then some (t.elem c.a i w, 0) else none)
  let init : Nat × Flags := (c.y.toNat % 2 ^ w, 0)
  let r := match treeRoot comb 11 leaves with
    | some x => comb init x
    | none => init
  .ok ((s.putThr ((t.addFlags r.2).clearVstart)).vecResult c (extendElem (t.fmt c.a) w r.1))

/-- The integer reductions of R130, by fn7. -/
def runRedInt (s : State) (c : VCmd) (code : Nat) : Res State :=
  let w := s.thr.ew c.a
  runReduce s c (fun x y => (reduceInt code w x y, 0))

/-- The float reductions of R130, by fn7. -/
def runRedFlt (s : State) (c : VCmd) (code : Nat) : Res State :=
  let f := fmtFp (s.thr.fmt c.a)
  runReduce s c (reduceFlt f (frmMode c.frm) code)

/-! ## Masks (R131, R132) -/

/-- All ones up to bit n. -/
def lowOnes (n : Nat) : BitVec 1024 := BitVec.ofNat 1024 (2 ^ (min n 1024) - 1)

/-- A mask read as BITS (R131); `vl` is the captured c.vl, which m0 shows. -/
def Thread.maskBits (t : Thread) (m vl : Nat) : BitVec 1024 :=
  if m = 0 then lowOnes vl
  else
    let k := t.getM m
    if k.bound then (if k.wc = 0 then lowOnes ((k.n.toNat + 1) / 2) else lowOnes k.n.toNat) else k.bits

/-- Consumes whole masks (R281). -/
def consumeMasks (s : State) (c : VCmd) (ms : List Nat) : Res Unit :=
  match ms.find? (fun m => m != 0 && s.thr.poison.any (fun p => 0x20000 + m * 32 ≤ p && p < 0x20000 + m * 32 + 32)) with
  | some m => .error ⟨s, .held (BitVec.ofNat 64 (3 * 2 ^ 56 + 96 + m)) c⟩
  | none => .ok ()

/-- The mask operations MAND to MNOT (R131), by fn7. -/
def maskOp (code : Nat) (x y : BitVec 1024) : BitVec 1024 :=
  match code with
  | 0x01 => x &&& y
  | 0x02 => x ||| y
  | 0x03 => x ^^^ y
  | 0x04 => x &&& ~~~y
  | _ => ~~~x

/-- MAND, MOR, MXOR, MANDN, MNOT (R131). -/
def runMlogic (s : State) (c : VCmd) (code : Nat) : Res State := do
  consumeMasks s c (if code = 0x05 then [c.a] else [c.a, c.b])
  let t := s.thr
  .ok (s.putThr (t.setM c.d (bitsMask (maskOp code (t.maskBits c.a c.vl) (t.maskBits c.b c.vl)))))

/-- MMV (R131). -/
def runMmv (s : State) (c : VCmd) : Res State := do
  consumeMasks s c [c.a]
  let t := s.thr
  .ok (s.putThr (t.setM c.d (if c.a = 0 then bitsMask (t.maskBits 0 c.vl) else t.getM c.a)))

/-- MBOUND (R131): `b` holds the width code and `x` the count. -/
def runMbound (s : State) (c : VCmd) : Res State :=
  let n := min c.x.toNat (8192 / maskWidth c.b)
  .ok (s.putThr (s.thr.setM c.d ⟨true, 0, BitVec.ofNat 12 n, BitVec.ofNat 3 c.b⟩))

/-- MCNT (R131). -/
def runMcnt (s : State) (c : VCmd) : Res State := do
  consumeMasks s c [c.a]
  let k := s.thr.getM c.a
  let n := if c.a = 0 then c.vl else if k.bound then k.n.toNat else oneBits 1024 k.bits.toNat
  .ok (s.vecResult c (BitVec.ofNat 64 n))

/-- MFIRST (R131). -/
def runMfirst (s : State) (c : VCmd) : Res State := do
  consumeMasks s c [c.a]
  let k := s.thr.getM c.a
  let none64 : Word := allOnes64
  let v : Word :=
    if c.a = 0 then (if c.vl > 0 then 0 else none64)
    else if k.bound then (if k.n = 0 then none64 else 0)
    else if k.bits = 0 then none64 else BitVec.ofNat 64 (trailingZeros 1024 k.bits.toNat)
  .ok (s.vecResult c v)

/-- MFROMV (R131). -/
def runMfromv (s : State) (c : VCmd) : Res State := do
  let w := s.thr.ew c.a
  let idx := List.range (min c.vl 1024)
  let s ← consumeElems s c (idx.map (fun i => ⟨c.a, i, w⟩))
  let t := s.thr
  .ok (s.putThr (t.setM c.d (bitsMask (BitVec.ofNat 1024 (bitSum (idx.filter (fun i => t.elem c.a i w != 0)))))))

/-- MTOV (R131). -/
def runMtov (s : State) (c : VCmd) : Res State := do
  consumeMasks s c [c.a]
  let t := s.thr
  let b := t.maskBits c.a c.vl
  .ok (s.putThr (t.writeElems c.d (t.ew c.d) ((List.range c.vl).map (fun i => (i, if b.getLsbD i then 1 else 0)))))

/-- The poison of a mask's or a stack entry's words, by word. -/
def poisonWords (ps : List Nat) (base : Nat) : List Nat :=
  (ps.filter (fun p => base ≤ p && p < base + 32)).map (· - base)

/-- MPUSH (R132): c.mdepth has risen at issue; `r` holds the depth before. -/
def runMpush (s : State) (c : VCmd) : Res State := do
  consumeMasks s c [1, c.a]
  let t := s.thr
  let new := t.maskBits 1 c.vl &&& t.maskBits c.a c.vl
  .ok (s.putThr ({ t with
    stack := t.stack.set c.r (t.getM 1),
    poison := t.poison.filter (fun p => !(0x30000 + c.r * 32 ≤ p && p < 0x30000 + c.r * 32 + 32)) }.setM 1 (bitsMask new)))

/-- A mask stack entry read as BITS (R131, R132). -/
def Thread.stackBits (t : Thread) (i : Nat) : BitVec 1024 :=
  let k := t.stack.getD i (bitsMask 0)
  if k.bound then (if k.wc = 0 then lowOnes ((k.n.toNat + 1) / 2) else lowOnes k.n.toNat) else k.bits

/-- Consumes a mask stack entry (R281, R283). -/
def consumeStack (s : State) (c : VCmd) (i : Nat) : Res Unit :=
  if (poisonWords s.thr.poison (0x30000 + i * 32)).isEmpty then .ok ()
  else .error ⟨s, .held (BitVec.ofNat 64 (3 * 2 ^ 56 + 104 + i)) c⟩

/-- MELSE (R132): `r` holds the depth. -/
def runMelse (s : State) (c : VCmd) : Res State := do
  consumeStack s c (c.r - 1)
  consumeMasks s c [1]
  let t := s.thr
  .ok (s.putThr (t.setM 1 (bitsMask (t.stackBits (c.r - 1) &&& ~~~(t.maskBits 1 c.vl)))))

/-- MPOP (R132): c.mdepth has fallen at issue; `r` holds the depth before. -/
def runMpop (s : State) (c : VCmd) : Res State := do
  consumeStack s c (c.r - 1)
  let t := s.thr
  .ok (s.putThr (t.setM 1 (t.stack.getD (c.r - 1) (bitsMask 0))))

end Sys2Proof.Machine
end

