-- ==== Sys2Proof/Machine/VecMem.lean ====
section
/-! DEFINITION. The execution part of the vector memory instructions: addresses, the run-ahead checks (R133 to R138), loads and
stores, gather-linked, scatter-conditional and the vector atomics (R176 to R179). -/
namespace Sys2Proof.Machine

/-- Why an element fails its checks (R136). -/
inductive ElemFail where
  /-- A trap. Its tval is the element's index (R136, R176, R180), or the virtual address that R265, R272 and R358 give instead. -/
  | trap (cause : Nat) (va : Option Nat)
  /-- Check 2: outside the granted part of the windows (R137). -/
  | scratch
  | park (va : Nat)
  /-- A table entry is homed on a die in reset, which holds the instruction (R364). -/
  | hold
  deriving DecidableEq, Repr

/-- The tval of a trap on element `e`. -/
def elemTval (e : Nat) (va : Option Nat) : Word := BitVec.ofNat 64 (va.getD e)

/-- What the checks of an element depend on: the access, whether a window or a page that is not COH fails (R176), and
whether alignment is required. -/
structure ElemRule where
  need : Need
  cohOnly : Bool
  aligned : Bool
  deriving DecidableEq, Repr

/-- The page checks of an element, whose bytes lie in one page where it is aligned (R136, checks 4 and 5; R272). -/
def elemPage (s : State) (k : Nat) (q : ElemRule) (va n : Nat) : Except ElemFail Span :=
  match s.walkFor k q.need va with
  | .ok pa attr => if q.cohOnly && attr ≠ 0 then .error (.trap 0x0C none) else .ok ⟨pa, attr, n⟩
  | .park => .error (.park va)
  | .held => .error .hold
  | .denied => .error (.trap 0x06 none)
  | .bad | .noRoute => .error (.trap 0x06 (some va))

/-- The checks of R136 on an element of `n` bytes, with R176's lease-attribute check for a window address before the alignment and
for a page that is not COH after the walk (log entry 93); `lone` says that a store of 4-bit elements finds it alone in its byte
(R135). -/
def checkElem (s : State) (k : Nat) (q : ElemRule) (va n : Nat) (lone : Bool) : Except ElemFail Span :=
  if va + n > 2 ^ 57 then .error (.trap 0x06 none)
  else if va + n > winBase then
    if q.cohOnly then .error (.trap 0x0C none)
    else match s.window k va n with
      | none => .error .scratch
      | some a => if (q.aligned && va % n ≠ 0) || lone then .error (.trap 0x07 none) else .ok ⟨a, 3, n⟩
  else if (q.aligned && va % n ≠ 0) || lone then .error (.trap 0x07 none)
  else elemPage s k q va n

/-- The run-ahead (R136): the elements that pass, in order, up to the first that fails. -/
def runAhead (f : Nat → Except ElemFail Span) : List Nat → List (Nat × Span) × Option (Nat × ElemFail)
  | [] => ([], none)
  | i :: t =>
    match f i with
    | .error e => ([], some (i, e))
    | .ok sp =>
      let (r, x) := runAhead f t
      ((i, sp) :: r, x)

/-- The bytes an element of a width takes in memory. -/
def elemBytes (w : Nat) : Nat := if w < 8 then 1 else w / 8

/-- The address of element i (R133): `mode` 0 unit stride, 1 strided, 2 indexed. -/
def elemAddr (t : Thread) (c : VCmd) (mode w i : Nat) : Nat :=
  match mode with
  | 0 => (c.x.toNat + i * w / 8) % 2 ^ 64
  | 1 => (c.x + BitVec.ofNat 64 i * c.y).toNat
  | _ => (c.x + extendElem (t.fmt c.b) (t.ew c.b) (t.elem c.b i (t.ew c.b))).toNat

/-- The reads of index elements. -/
def indexReads (t : Thread) (c : VCmd) (mode : Nat) (idx : List Nat) : List ERead :=
  if mode = 2 then idx.map (fun i => ⟨c.b, i, t.ew c.b⟩) else []

/-- The counter a vector access goes to (R277). -/
def heatOf (mode : Nat) : Heat :=
  match mode with
  | 0 => .unit
  | 1 => .strided
  | _ => .indexed

/-- Counts the accesses of elements (R277). -/
def State.countElems (s : State) (h : Heat) (es : List (Nat × Span)) : State :=
  es.foldl (fun s e => s.countPart s.cur h e.2) s

/-- Holds a vector access back while an .sc access of the core is unperformed or a line is leased away (R170, R249, R364). -/
def vecHeld (s : State) (es : List (Nat × Span)) : Bool :=
  s.portHeld s.cur || s.partsHeld s.cur (es.map Prod.snd)

/-- Sets c.vl to a trimmed count (R137). -/
def Thread.trim (t : Thread) (n : Nat) : Thread :=
  { t with vl := BitVec.ofNat 12 n, pend := t.pend.map (Pend.drop codeVl) }

/-- Sets c.vstart to the element that stops an instruction (R136). -/
def Thread.stopAt (t : Thread) (n : Nat) : Thread :=
  { t with vstart := BitVec.ofNat 12 n, pend := t.pend.map (Pend.drop codeVstart) }

/-- What a vector memory instruction does after its performed elements (R136, R137); `first` is its lowest active
element. -/
def vecOutcome (s : State) (first : Nat) : Option (Nat × ElemFail) → Res State
  | none => .ok (s.putThr s.thr.clearVstart)
  | some (e, .scratch) =>
    if e = first then trapNow (s.putThr (s.thr.stopAt e)) 0x06 (BitVec.ofNat 64 e)
    else .ok (s.putThr (s.thr.trim e).clearVstart)
  | some (e, .trap c va) => trapNow (s.putThr (s.thr.stopAt e)) c (elemTval e va)
  | some (e, .park va) => .error ⟨s.putThr (s.thr.stopAt e), .park va⟩
  | some (_, .hold) => stall s

/-- The pattern an element's load reads (R133). -/
def State.loadElem (s : State) (w i : Nat) (sp : Span) : Nat :=
  let x := s.loadPart s.cur sp.pa sp.attr sp.n
  if w < 8 then bitsOf x (i % 2 * 4) 4 else x

/-- An element's store (R133, R135). -/
def State.storeElem (s : State) (w i x : Nat) (sp : Span) : State :=
  if w < 8 then s.storePart s.cur sp.pa sp.attr 1 (setBits (s.loadPart s.cur sp.pa sp.attr 1) (i % 2 * 4) 4 x)
  else s.storePart s.cur sp.pa sp.attr sp.n x

/-- Elements that a memory instruction has read for v[d], with their poison: long-latency results (R21, R134, R281). -/
def State.addVecPend (s : State) (d w : Nat) (xs : List (Nat × Nat)) (bad : List Nat) : State :=
  s.putThr { s.thr with pend := s.thr.pend ++ [.vec d w xs bad] }

/-- The elements a load reads for v[d] with their poison (R281). -/
def loadElems (s : State) (d w : Nat) (es : List (Nat × Span)) : State :=
  let bad := (es.filter (fun e => (s.badWord s.cur e.2.pa e.2.n).isSome)).map Prod.fst
  s.addVecPend d w (es.map (fun e => (e.1, s.loadElem w e.1 e.2))) bad

/-- The bytes, one span each, whose last writer among a store's elements in order is clean (R281): each element comes with whether
its value is poisoned. -/
def cleanBytes (es : List (Span × Bool)) : List Span :=
  es.foldl (fun l e =>
    if e.2 then l.filter (fun b => !(e.1.pa ≤ b.pa && b.pa < e.1.pa + e.1.n)) else l ++ bytePieces [e.1]) []

/-- What a vector store's clean elements cover whole, all together, loses its poison (R281); `sp` are bytes. -/
def State.clearStored (s : State) (k : Nat) (sp : List Span) : State :=
  let c := s.core (coreOf k)
  let bytes (strm : Bool) : List Nat := (sp.filter (fun p => (p.attr == 1) == strm)).map (fun p => p.pa)
  let s := if s.poison.isEmpty then s else s.clearCovered (bytes false)
  if c.strmBad.isEmpty then s
  else s.setCore (coreOf k) { c with strmBad := c.strmBad.filter (fun w => !(List.range 4).all (fun i => (bytes true).contains (w + i))) }

/-- The stores of the elements of v[d] in order; poison travels with each (R281). -/
def storeElems (s : State) (t : Thread) (d w : Nat) (es : List (Nat × Span)) : State :=
  let s := es.foldl (fun s e =>
    let s := s.storeElem w e.1 (t.elem d e.1 w) e.2
    if t.elemPoisoned d e.1 w then s.poisonPart s.cur e.2 else s) s
  s.clearStored s.cur (cleanBytes (es.map (fun e => (e.2, t.elemPoisoned d e.1 w))))

/-- VLD, VLDS and VLDX (R133). -/
def runLoad (s : State) (c : VCmd) (mode : Nat) : Res State := do
  let idx ← destActives s c
  let s ← consumeElems s c (indexReads s.thr c mode idx)
  let t := s.thr
  let w := t.ew c.d
  let (es, fail) := runAhead (fun i =>
    checkElem s s.cur ⟨.load, false, w ≥ 8⟩ (elemAddr t c mode w i) (elemBytes w) false) idx
  if vecHeld s es then stall s
  else vecOutcome (loadElems (s.countElems (heatOf mode) es) c.d w es) (idx.headD 0) fail

/-- VST, VSTS and VSTX (R133, R135). -/
def runStore (s : State) (c : VCmd) (mode : Nat) : Res State := do
  let idx ← destActives s c
  let s ← consumeElems s c (indexReads s.thr c mode idx)
  let t := s.thr
  let w := t.ew c.d
  let lone (i : Nat) : Bool := w < 8 && !idx.contains (if i % 2 = 0 then i + 1 else i - 1)
  let (es, fail) := runAhead (fun i =>
    checkElem s s.cur ⟨.store, false, w ≥ 8⟩ (elemAddr t c mode w i) (elemBytes w) (lone i)) idx
  if vecHeld s es then stall s
  else
    let s := (s.countElems (heatOf mode) es).logDeferred (es.map (fun e => ⟨c.d, e.1, w⟩))
    let s := storeElems s t c.d w es
    vecOutcome s (idx.headD 0) fail

/-! ## Gather-linked and scatter-conditional (R176 to R178) -/

/-- The elements that a link table of 32 lines has room for, and the first that it has not (R177). -/
def linkRoom : List (Nat × Span) → List Nat → List (Nat × Span) × Option Nat
  | [], _ => ([], none)
  | e :: t, lines =>
    let l := lineOf e.2.pa
    if lines.contains l || lines.length < 32 then
      let (r, x) := linkRoom t (if lines.contains l then lines else lines ++ [l])
      (e :: r, x)
    else ([], some e.1)

/-- GLD (R176, R177). -/
def runGld (s : State) (c : VCmd) : Res State := do
  let idx ← destActives s c
  let s ← consumeElems s c (indexReads s.thr c 2 idx)
  let t := s.thr
  let w := t.ew c.d
  let (es, fail) := runAhead (fun i => checkElem s s.cur ⟨.load, true, true⟩ (elemAddr t c 2 w i) (elemBytes w) false) idx
  if vecHeld s es then stall s
  else
    let (es, full) := linkRoom es []
    let s := loadElems (s.countElems .indexed es) c.d w es
    let s := s.putThr { s.thr with links := (es.map (fun e => lineOf e.2.pa)).eraseDups }
    match full with
    | some e => .ok (s.putThr (s.thr.trim e).clearVstart)
    | none => vecOutcome s (idx.headD 0) fail

/-- The elements whose stores succeed (R178): their line's link is intact, and no lower active element overlaps them. -/
def scsWins (links : List Nat) (n : Nat) : List (Nat × Span) → List (Nat × Span) → List (Nat × Span)
  | _, [] => []
  | before, e :: t =>
    let ok := links.contains (lineOf e.2.pa) && !before.any (fun f => f.2.pa < e.2.pa + n && e.2.pa < f.2.pa + n)
    if ok then e :: scsWins links n (e :: before) t else scsWins links n (e :: before) t

/-- SCS (R176, R178): a trap or park stores no element and leaves m[k] and c.vstart. -/
def runScs (s : State) (c : VCmd) : Res State := do
  let idx ← destActives s c
  let s ← consumeElems s c (indexReads s.thr c 2 idx)
  let t := s.thr
  let w := t.ew c.d
  let n := elemBytes w
  let (es, fail) := runAhead (fun i => checkElem s s.cur ⟨.store, true, true⟩ (elemAddr t c 2 w i) n false) idx
  match fail with
  | some (e, .park va) => let _ := e; .error ⟨s, .park va⟩
  | some (e, .trap x va) => trapNow s x (elemTval e va)
  | some (e, .scratch) => trapNow s 0x06 (BitVec.ofNat 64 e)
  | some (_, .hold) => stall s
  | none =>
    if vecHeld s es then stall s
    else
      let s := (s.countElems .indexed es).logDeferred (es.map (fun e => ⟨c.d, e.1, w⟩))
      let wins := scsWins t.links n [] es
      let s := storeElems s t c.d w wins
      let m := bitsMask (BitVec.ofNat 1024 (bitSum (wins.map Prod.fst)))
      .ok (s.putThr { s.thr.setM c.m m with links := [] }.clearVstart)

/-! ## Vector atomics (R179) -/

/-- The atomics of a list of elements in order: the old values, the element that the mixed-size check stops (R254), and
the state after. -/
def vamoList (code w d : Nat) (t : Thread) : State → List (Nat × Span) → List (Nat × Nat) × Option Nat × State
  | s, [] => ([], none, s)
  | s, e :: r =>
    if t.dbg.getLsbD 1 && s.mixes e.2.pa e.2.n then ([], some e.1, s)
    else
      let (m, s) := (s.noteStrong e.2.pa e.2.n).amo s.cur e.2.pa e.2.attr e.2.n code (t.elem d e.1 w) 0 false
      let (ms, x, s) := vamoList code w d t s r
      ((e.1, m) :: ms, x, s)

/-- A VAMO (R179); `code` is mode[3:0], 0x8 being FADD. -/
def runVamo (s : State) (c : VCmd) (code : Nat) : Res State := do
  let idx ← destActives s c
  let s ← consumeElems s c (indexReads s.thr c 2 idx ++ idx.map (fun i => ⟨c.d, i, s.thr.ew c.d⟩))
  let t := s.thr
  let w := t.ew c.d
  let (es, fail) := runAhead (fun i => checkElem s s.cur ⟨.update, false, true⟩ (elemAddr t c 2 w i) (elemBytes w) false) idx
  if vecHeld s es || es.any (fun e => s.queuedBehind s.cur (lineOf e.2.pa)) then stall s
  else match es.findSome? (fun e => s.badTval s.cur e.2.pa e.2.n) with
    | some v => .error ⟨s, .held v c⟩
    | none =>
      let s := es.foldl (fun s e => s.countHome s.cur .indexed [e.2]) s
      let (olds, mix, s) := vamoList (if code = 8 then 0xA else code) w c.d t s es
      let s := s.addVecPend c.d w olds []
      match mix with
      | some e => trapNow (s.putThr (s.thr.stopAt e)) 0x06 (BitVec.ofNat 64 (elemAddr t c 2 w e + 2 ^ 63))
      | none => vecOutcome s (idx.headD 0) fail

end Sys2Proof.Machine
end

