-- ==== Sys2Proof/Machine/VecGfx.lean ====
section
/-! DEFINITION. The execution part of SAMPLE (R189 to R193), BOXTEST, TRITEST and PARTITION (R195 to R201). -/
namespace Sys2Proof.Machine

/-- The store address of a byte of an access, by its offset. -/
def spanAt : List Span → Nat → Option Nat
  | [], _ => none
  | p :: t, off => if off < p.n then some (p.pa + off) else spanAt t (off - p.n)

/-- The machine-check tval of the first poisoned word among the byte ranges, as offset and length, that an instruction reads of an
access (R281, R283). -/
def State.badIn (s : State) (k : Nat) (sp : List Span) (ranges : List (Nat × Nat)) : Option Word :=
  (ranges.flatMap (fun r => (List.range r.2).map (· + r.1))).findSome? (fun o =>
    (spanAt sp o).bind (fun a => if s.byteBad k a then some (s.byteTval k a) else none))

/-- Reads `n` bytes at a virtual address as one relaxed access checked as in R97 (R190, R195, R197); a poisoned word of the byte
ranges that the instruction uses is consumed (R281). -/
def readRecord (s : State) (c : VCmd) (va n : Nat) (ranges : List (Nat × Nat)) : Res Nat :=
  if s.portHeld s.cur then stall s
  else match s.resolve s.cur .load false va n with
    | .error e => .error ⟨s, e⟩
    | .ok sp =>
      if s.partsHeld s.cur sp then stall s
      else match s.badIn s.cur sp ranges with
        | some v => .error ⟨s, .held v c⟩
        | none => .ok (s.loadParts s.cur sp)

/-- A field of `n` bytes at an offset of a record. -/
def fieldOf (rec off n : Nat) : Nat := bitsOf rec (8 * off) (8 * n)

/-- The first failing entry of a list of checks by offset, as the descriptor trap's tval (R190, R195). -/
def descCheck (s : State) : List (Nat × Bool) → Res Unit
  | [] => .ok ()
  | (off, ok) :: t => if ok then descCheck s t else trapNow s 0x10 (BitVec.ofNat 64 off)

/-! ## SAMPLE -/

/-- A texture descriptor (R190). -/
structure Texture where
  base : Nat
  w : Nat
  h : Nat
  fmt : Nat
  levels : Nat
  umode : Nat
  vmode : Nat
  deriving DecidableEq, Repr

/-- The texture that a descriptor's 64 bytes give. -/
def texture (x : Nat) : Texture :=
  { base := fieldOf x 0 8, w := fieldOf x 8 2 + 1, h := fieldOf x 0xA 2 + 1, fmt := fieldOf x 0xC 1,
    levels := bitsOf x (8 * 0xD) 4 + 1, umode := bitsOf x (8 * 0xE) 2, vmode := bitsOf x (8 * 0xE + 2) 2 }

/-- The fields of a texture descriptor that R190 checks, in order of their offsets. -/
def textureChecks (x : Nat) : List (Nat × Bool) :=
  [(0x00, fieldOf x 0 8 % 64 == 0), (0x0C, fieldOf x 0xC 1 ≤ 2), (0x0D, bitsOf x (8 * 0xD + 4) 4 == 0),
   (0x0E, bitsOf x (8 * 0xE) 2 != 3 && bitsOf x (8 * 0xE + 2) 2 != 3 && bitsOf x (8 * 0xE + 4) 4 == 0),
   (0x0F, fieldOf x 0xF 49 == 0)]

/-- The bytes of a texel (R190). -/
def Texture.texel (t : Texture) : Nat := if t.fmt = 1 then 8 else 4
/-- The width of a level. -/
def Texture.lw (t : Texture) (l : Nat) : Nat := max (t.w >>> l) 1
/-- The height of a level. -/
def Texture.lh (t : Texture) (l : Nat) : Nat := max (t.h >>> l) 1
/-- The row pitch of a level. -/
def Texture.pitch (t : Texture) (l : Nat) : Nat := (t.lw l * t.texel + 63) / 64 * 64
/-- The address at which a level begins. -/
def Texture.start (t : Texture) (l : Nat) : Nat :=
  (List.range l).foldl (fun a j => a + t.pitch j * t.lh j) t.base
/-- The address of a texel of a level, modulo 2^64. -/
def Texture.addr (t : Texture) (l x y : Nat) : Nat := (t.start l + y * t.pitch l + x * t.texel) % 2 ^ 64

/-- A texel coordinate mapped by its axis's mode (R191). -/
def mapCoord (mode n : Nat) (c : Int) : Nat :=
  match mode with
  | 0 => (c.emod n).toNat
  | 1 => (min (max c 0) ((n : Int) - 1)).toNat
  | _ =>
    let m := (c.emod (2 * n : Nat)).toNat
    if m < n then m else 2 * n - 1 - m

/-- floor((u × N − 0.5) × 256) for a finite u (R191). -/
def fixedCoord (u : Val) (n : Nat) : Int := (256 * (n : Int) * u.numer) / (u.denom : Int) - 128

/-- The texels of one level with their weights (R191): bilinear, or nearest. -/
def levelTexels (t : Texture) (nearest : Bool) (u v : Val) (l : Nat) : List (Nat × Nat) :=
  let xs := fixedCoord u (t.lw l)
  let ys := fixedCoord v (t.lh l)
  let at' (x y : Int) : Nat := t.addr l (mapCoord t.umode (t.lw l) x) (mapCoord t.vmode (t.lh l) y)
  if nearest then [(at' ((xs + 128) / 256) ((ys + 128) / 256), 65536)]
  else
    let x0 := xs / 256
    let y0 := ys / 256
    let fu := (xs % 256).toNat
    let fv := (ys % 256).toNat
    [(at' x0 y0, (256 - fu) * (256 - fv)), (at' (x0 + 1) y0, fu * (256 - fv)),
     (at' x0 (y0 + 1), (256 - fu) * fv), (at' (x0 + 1) (y0 + 1), fu * fv)]

/-- The texels an element reads with their weights, and D (R191, R192): `filter` 0 nearest, 1 bilinear, 2 trilinear. -/
def sampleTexels (t : Texture) (filter : Nat) (u v lod : Val) : List (Nat × Nat) × Nat :=
  if u.bad || v.bad || lod.bad then ([], 1)
  else
    let top := (t.levels - 1) * 256
    let ls := (min (max (lod.numer * 256 / (lod.denom : Int)) 0) (top : Int)).toNat
    if filter = 2 then
      let l0 := ls / 256
      let fl := ls % 256
      let l1 := min (l0 + 1) (t.levels - 1)
      ((levelTexels t false u v l0).map (fun e => (e.1, e.2 * (256 - fl))) ++
        (levelTexels t false u v l1).map (fun e => (e.1, e.2 * fl)), 2 ^ 24)
    else (levelTexels t (filter == 0) u v (min ((ls + 128) / 256) (t.levels - 1)), 65536)

/-- A texel's channel before weighting (R192). -/
def channelValue (t : Texture) (ch x : Nat) : Val :=
  match t.fmt with
  | 0 => Val.ofInt (bitsOf x (8 * ch) 8)
  | 1 => decodeFp Fp.fp16 (bitsOf x (16 * ch) 16)
  | _ => decodeFp Fp.fp32 x

/-- The weighted sum of the texels of non-zero weight (R192). -/
def weightedSum : List (Val × Nat) → Option Val
  | [] => none
  | (v, w) :: t =>
    if w = 0 then weightedSum t
    else
      let x := (Val.mul v (Val.ofInt w)).1
      match weightedSum t with
      | some y => some (Val.add false x y).1
      | none => some x

/-- One channel of a sample from the texels read with their weights (R192). -/
def sampleChannel (t : Texture) (ch d : Nat) (xs : List (Nat × Nat)) : Nat :=
  if t.fmt = 2 && ch = 3 then 0x3F800000
  else
    let c := if t.fmt = 2 then 0 else ch
    let sum := (weightedSum (xs.map (fun e => (channelValue t c e.1, e.2)))).getD .nan
    (roundTo Fp.fp32 .rne (Val.div sum (Val.ofInt (if t.fmt = 0 then 255 * d else d : Nat))).1).1

/-- The checks of an element's texels (R193); where several fail, the first in the order the element names them decides (log entry
96). -/
def checkTexels (s : State) (n : Nat) : List Nat → Except ElemFail (List Span)
  | [] => .ok []
  | a :: t =>
    match checkElem s s.cur ⟨.load, false, false⟩ a n false with
    | .error e => .error e
    | .ok sp =>
      match checkTexels s n t with
      | .error e => .error e
      | .ok r => .ok (sp :: r)

/-- The elements whose texels all pass, with their spans, up to the first that fails (R193). -/
def texelAhead (s : State) (n : Nat) (f : Nat → List Nat) : List Nat → List (Nat × List Span) × Option (Nat × ElemFail)
  | [] => ([], none)
  | i :: t =>
    match checkTexels s n (f i) with
    | .error e => ([], some (i, e))
    | .ok sp =>
      let (r, x) := texelAhead s n f t
      ((i, sp) :: r, x)

/-- SAMPLE (R189 to R193): `filter` 0 nearest, 1 bilinear, 2 trilinear. Where no element lies from c.vstart to c.vl nothing is read
(R107). -/
def runSample (s : State) (c : VCmd) (filter : Nat) : Res State :=
  if c.vstart ≥ c.vl then .ok (s.putThr s.thr.clearVstart) else do
  let x ← readRecord s c c.x.toNat 64 [(0, 64)]
  descCheck s (textureChecks x)
  consumeMask s c 32
  let t := s.thr
  let idx := t.actives c.m 32 32 c.vl c.vstart
  let s ← consumeElems s c (idx.flatMap (fun i => [⟨c.b, i, 32⟩, ⟨c.b, 32 + i, 32⟩, ⟨c.b, 64 + i, 32⟩]))
  let tex := texture x
  let coord (p i : Nat) : Val := decodeFp Fp.fp32 (t.elem c.b (32 * p + i) 32)
  let texels (i : Nat) : List (Nat × Nat) × Nat := sampleTexels tex filter (coord 0 i) (coord 1 i) (coord 2 i)
  let (es, fail) := texelAhead s tex.texel (fun i => (texels i).1.map Prod.fst) idx
  let spans := es.flatMap (fun e => e.2.map (fun p => (e.1, p)))
  if vecHeld s spans then stall s
  else match spans.findSome? (fun e => s.badTval s.cur e.2.pa e.2.n) with
    | some v => .error ⟨s, .held v c⟩
    | none =>
      let out := es.flatMap (fun e =>
        let (ts, d) := texels e.1
        let xs := List.zipWith (fun p q => (s.loadPart s.cur p.pa p.attr p.n, q.2)) e.2 ts
        (List.range 4).map (fun ch => (32 * ch + e.1,
          if ts.isEmpty then Fp.fp32.canonNan else sampleChannel tex ch d xs)))
      let s := s.countElems .indexed spans
      vecOutcome (s.addVecPend c.d 32 out []) (idx.headD 0) fail

/-! ## Traversal steps -/

/-- The fields of a traversal descriptor that R195 checks, in order of their offsets. -/
def traversalChecks (x : Nat) : List (Nat × Bool) :=
  [(0x00, fieldOf x 0 8 % 64 == 0), (0x0C, fieldOf x 0xC 4 == 0), (0x10, fieldOf x 0x10 8 % 64 == 0),
   (0x1C, fieldOf x 0x1C 4 == 0), (0x20, fieldOf x 0x20 8 % 4 == 0), (0x2C, fieldOf x 0x2C 20 == 0)]

/-- The traversal-bound trap (R196). -/
def traversalTrap {α : Type} (s : State) (kind : Nat) (v : Word) : Res α :=
  trapNow s 0x11 (BitVec.ofNat 64 (kind * 2 ^ 62 + v.toNat % 2 ^ 32))

/-- Component `k` of ray i in a ray group (R197, R203). -/
def rayPart (t : Thread) (b i k : Nat) : Val := decodeFp Fp.fp32 (t.elem b (32 * k + i) 32)

/-- Three consecutive FP32 components of a record. -/
def vec3 (rec off : Nat) : List Val := (List.range 3).map (fun k => decodeFp Fp.fp32 (fieldOf rec (off + 4 * k) 4))

/-- One axis of BOXTEST (R198): the interval it leaves, or none for a miss. -/
def boxAxis (o d lo hi : Val) (tn tf : Val) : Option (Val × Val) :=
  if d.isZero then (if Val.lt o lo || Val.lt hi o then none else some (tn, tf))
  else
    let t1 := round32 ((lo.sub o).over d)
    let t2 := round32 ((hi.sub o).over d)
    some (Val.max2 tn (Val.min2 t1 t2), Val.min2 tf (Val.max2 t1 t2))

/-- The axes of BOXTEST in order. -/
def boxAxes : List (Val × Val × Val × Val) → Val → Val → Option (Val × Val)
  | [], tn, tf => some (tn, tf)
  | (o, d, lo, hi) :: t, tn, tf =>
    match boxAxis o d lo hi tn tf with
    | none => none
    | some (a, b) => boxAxes t a b

/-- BOXTEST on one ray (R198): the entry t of a hit. `ray` holds its eight components. -/
def boxHit (ray lo hi : List Val) : Option Val :=
  if ray.any Val.bad || lo.any Val.bad || hi.any Val.bad || (List.zipWith (fun l h => Val.lt h l) lo hi).any id then none
  else
    let o := ray.take 3
    let d := (ray.drop 3).take 3
    let axes := List.zipWith (fun (a : Val × Val) (b : Val × Val) => (a.1, a.2, b.1, b.2)) (List.zip o d) (List.zip lo hi)
    match boxAxes axes (ray.getD 6 .nan) (ray.getD 7 .nan) with
    | some (tn, tf) => if Val.le tn tf then some tn else none
    | none => none

/-- The reads of a ray's eight components. -/
def rayReads (b i : Nat) : List ERead := (List.range 8).map (fun k => ⟨b, 32 * k + i, 32⟩)

/-- Counts a record's read in its region (R277). -/
def State.countRecord (s : State) (va n : Nat) : State :=
  match s.resolve s.cur .load false va n with
  | .ok sp => s.countParts s.cur .indexed sp
  | .error _ => s

/-- BOXTEST and TRITEST with c.vl = 0 (R107, R197): nothing is read, and no ray hits. -/
def noRays (s : State) (c : VCmd) : Res State := .ok (s.putThr ((s.thr.setM c.m (bitsMask 0)).clearVstart))

/-- BOXTEST (R197, R198): `x` the descriptor's address, `y` the node index. -/
def runBox (s : State) (c : VCmd) : Res State :=
  if c.vl = 0 then noRays s c else do
  let desc ← readRecord s c c.x.toNat 64 [(0, 64)]
  descCheck s (traversalChecks desc)
  if c.y.toNat ≥ fieldOf desc 8 4 then traversalTrap s 0 c.y
  else
    let node ← readRecord s c ((fieldOf desc 0 8 + 32 * c.y.toNat) % 2 ^ 64) 32 [(0, 12), (16, 12)]
    consumeMask s c 32
    let idx := s.thr.actives c.m 32 32 c.vl 0
    let s ← consumeElems s c (idx.flatMap (rayReads c.b))
    let t := s.thr
    let res := idx.map (fun i => (i, boxHit ((List.range 8).map (rayPart t c.b i)) (vec3 node 0) (vec3 node 0x10)))
    let out := res.map (fun e => (e.1, match e.2 with
      | some v => (roundTo Fp.fp32 .rne v).1
      | none => 0x7F800000))
    let hits := (res.filter (fun e => e.2.isSome)).map Prod.fst
    let s := s.countRecord ((fieldOf desc 0 8 + 32 * c.y.toNat) % 2 ^ 64) 32
    .ok (s.putThr (((t.writeElems c.d 32 out).setM c.m (bitsMask (BitVec.ofNat 1024 (bitSum hits)))).clearVstart))
/-- The vertices and their edge functions are exact (R199): the sheared vertex, its three components rounded. -/
def shear (o : List Val) (kx ky kz : Nat) (sx sy sz : Val) (p : List Val) : Val × Val × Val :=
  let q := List.zipWith (fun a b => round32 (a.sub b)) p o
  let z := q.getD kz .nan
  (round32 ((q.getD kx .nan).sub (sx.times z)), round32 ((q.getD ky .nan).sub (sy.times z)), round32 (sz.times z))

/-- The axis of the largest magnitude, the lowest on a tie (R199). -/
def largestAxis (d : List Val) : Nat :=
  let x := (d.getD 0 .nan).abs
  let y := (d.getD 1 .nan).abs
  let z := (d.getD 2 .nan).abs
  if Val.lt x y then (if Val.lt y z then 2 else 1) else if Val.lt x z then 2 else 0

/-- TRITEST on one ray (R199): t, b1 and b2 of a hit as codes. -/
def triHit (ray p0 p1 p2 : List Val) : Option (Nat × Nat × Nat) :=
  let o := ray.take 3
  let d := (ray.drop 3).take 3
  if ray.any Val.bad || p0.any Val.bad || p1.any Val.bad || p2.any Val.bad || d.all Val.isZero then none
  else
    let kz := largestAxis d
    let dz := d.getD kz .nan
    let kx₀ := (kz + 1) % 3
    let ky₀ := (kx₀ + 1) % 3
    let (kx, ky) := if dz.neg? then (ky₀, kx₀) else (kx₀, ky₀)
    let one : Val := Val.ofInt 1
    let sx := round32 ((d.getD kx .nan).over dz)
    let sy := round32 ((d.getD ky .nan).over dz)
    let sz := round32 (one.over dz)
    let (ax, ay, az) := shear o kx ky kz sx sy sz p0
    let (bx, by', bz) := shear o kx ky kz sx sy sz p1
    let (cx, cy, cz) := shear o kx ky kz sx sy sz p2
    let u := (cx.times by').sub (cy.times bx)
    let v := (ax.times cy).sub (ay.times cx)
    let w := (bx.times ay).sub (by'.times ax)
    let z := Val.zero false
    let edges := [u, v, w]
    if edges.any (fun e => Val.lt e z) && edges.any (fun e => Val.lt z e) then none
    else
      let det := (u.plus v).plus w
      if Val.eqv det z then none
      else
        let t := ((u.times az).plus (v.times bz)).plus (w.times cz)
        let lo := (ray.getD 6 .nan).times det
        let hi := (ray.getD 7 .nan).times det
        let inside := if Val.lt z det then Val.lt lo t && Val.lt t hi else Val.lt t lo && Val.lt hi t
        if !inside then none
        else
          let code (x : Val) : Nat := (roundTo Fp.fp32 .rne x).1
          some (code (t.over det), code (v.over det), code (w.over det))

/-- TRITEST (R197, R199): `x` the descriptor's address, `y` the triangle index. -/
def runTri (s : State) (c : VCmd) : Res State :=
  if c.vl = 0 then noRays s c else do
  let desc ← readRecord s c c.x.toNat 64 [(0, 64)]
  descCheck s (traversalChecks desc)
  if c.y.toNat ≥ fieldOf desc 0x18 4 then traversalTrap s 1 c.y
  else
    let va := (fieldOf desc 0x10 8 + 64 * c.y.toNat) % 2 ^ 64
    let tri ← readRecord s c va 64 [(0, 36)]
    consumeMask s c 32
    let idx := s.thr.actives c.m 32 32 c.vl 0
    let s ← consumeElems s c (idx.flatMap (rayReads c.b))
    let t := s.thr
    let res := idx.filterMap (fun i =>
      (triHit ((List.range 8).map (rayPart t c.b i)) (vec3 tri 0) (vec3 tri 0xC) (vec3 tri 0x18)).map (fun h => (i, h)))
    let out := res.flatMap (fun e => [(e.1, e.2.1), (32 + e.1, e.2.2.1), (64 + e.1, e.2.2.2)])
    let s := s.countRecord va 64
    .ok (s.putThr (((t.writeElems c.d 32 out).setM c.m
      (bitsMask (BitVec.ofNat 1024 (bitSum (res.map Prod.fst))))).clearVstart))

/-- The stream entry that each element of PARTITION writes (R200), for the first `n` elements. -/
def partitionEntries (t : Thread) (m l h : Nat) (n : Nat) : List (Nat × Nat) :=
  let all := List.range n
  let yes := all.filter (t.selects m 32 32)
  let no := all.filter (fun i => !t.selects m 32 32 i)
  all.map (fun i =>
    match yes.findIdx? (· == i) with
    | some r => (i, l + r)
    | none => (i, h - 1 - (no.findIdx? (· == i)).getD 0))

/-- PARTITION (R200, R201): `x` the descriptor's address, `y` the cursor word. Where R137 cuts it short, the new cursors count the
elements below the cut (log entry 97); with c.vl = 0 nothing is read, and g[d] is what R200 gives for no element (R107). -/
def runPartition (s : State) (c : VCmd) : Res State :=
  if c.vl = 0 then .ok ((s.putThr s.thr.clearVstart).addPend [(c.d, c.y)]) else do
  let desc ← readRecord s c c.x.toNat 64 [(0, 64)]
  descCheck s (traversalChecks desc)
  consumeMask s c 32
  let t := s.thr
  let l := c.y.toNat % 2 ^ 32
  let h := c.y.toNat / 2 ^ 32
  let yes (n : Nat) : Nat := ((List.range n).filter (t.selects c.m 32 32)).length
  if l > h || h > fieldOf desc 0x28 4 || l + yes c.vl > h - (c.vl - yes c.vl) || h < c.vl - yes c.vl then
    traversalTrap s 2 c.y
  else
    let places := partitionEntries t c.m l h c.vl
    let (es, fail) := runAhead (fun i => checkElem s s.cur ⟨.store, false, true⟩
      ((fieldOf desc 0x20 8 + 4 * Tab.getD places i 0) % 2 ^ 64) 4 false) (List.range c.vl)
    if vecHeld s es then stall s
    else
      let s := storeElems ((s.countElems .indexed es).logDeferred (es.map (fun e => ⟨c.b, e.1, 32⟩))) t c.b 32 es
      let result (s : State) (n : Nat) : State :=
        s.addPend [(c.d, BitVec.ofNat 64 ((h - (n - yes n)) * 2 ^ 32 + (l + yes n)))]
      match fail with
      | none => .ok (result (s.putThr s.thr.clearVstart) c.vl)
      | some (0, .scratch) => trapNow s 0x06 0
      | some (e, .scratch) => .ok (result (s.putThr (s.thr.trim e).clearVstart) e)
      | some (e, .trap x va) => trapNow (s.putThr (s.thr.stopAt e)) x (elemTval e va)
      | some (_, .park va) => .error ⟨s, .park va⟩
      | some (_, .hold) => stall s

end Sys2Proof.Machine
end

