-- ==== Sys2Proof/Machine/AccRun.lean ====
section
/-! DEFINITION. The execution part of the accumulator instructions MZERO, MRD, MWR and MCVT (R156, R157), and the accumulator
store itself (R19, R139). -/
namespace Sys2Proof.Machine

/-- The place of a word in a core's accumulator store. -/
def accKey (slice row col : Nat) : Nat := slice * 16384 + row * 256 + col
/-- A word of the store; what nothing has written since the grant is zero (R19). -/
def Core.accWord (c : Core) (slice row col : Nat) : BitVec 32 := c.acc.getD (accKey slice row col) 0

/-- Writes words of the store, which lose their poison. -/
def Core.accWrite (c : Core) (xs : List (Nat × BitVec 32)) : Core :=
  { c with acc := xs.foldl (fun a e => a.set e.1 e.2) c.acc,
           accPoison := c.accPoison.filter (fun p => !xs.any (fun e => e.1 == p)) }

/-- The machine check of a poisoned accumulator word (R283). -/
def accTval (key : Nat) : Word :=
  BitVec.ofNat 64 (4 * 2 ^ 56 + key / 16384 * 2 ^ 16 + key / 256 % 64 * 2 ^ 8 + key % 256 / 32)

/-- The columns that c.vstart and c.vl leave (R156). -/
def accCols (c : VCmd) : List Nat := (List.range c.vl).drop c.vstart

/-- MZERO (R156). -/
def runMzero (s : State) (c : VCmd) : Res State :=
  let k := coreOf s.cur
  let x := s.core k
  let keep (p : Nat) : Bool := p / 16384 != c.d
  .ok (s.setCore k { x with acc := x.acc.filter (fun e => keep e.1), accPoison := x.accPoison.filter keep })

/-- MRD (R156): `a` the slice, `y` the row; poison travels (R281). -/
def runMrd (s : State) (c : VCmd) : Res State :=
  let x := s.core (coreOf s.cur)
  let key (i : Nat) : Nat := accKey c.a c.y.toNat i
  let bad := (accCols c).filter (fun i => x.accPoison.contains (key i))
  let t := s.thr.writeElems c.d 32 ((accCols c).map (fun i => (i, (x.accWord c.a c.y.toNat i).toNat)))
  .ok (s.putThr (t.poisonElems c.d 32 bad).clearVstart)

/-- MWR (R156): `d` the slice, `y` the row; poison travels (R281). -/
def runMwr (s : State) (c : VCmd) : Res State :=
  let t := s.thr
  let s := s.logDeferred ((accCols c).map (fun i => ⟨c.a, i, 32⟩))
  let k := coreOf s.cur
  let key (i : Nat) : Nat := accKey c.d c.y.toNat i
  let bad := ((accCols c).filter (fun i => t.elemPoisoned c.a i 32)).map key
  let x := (s.core k).accWrite ((accCols c).map (fun i => (key i, BitVec.ofNat 32 (t.elem c.a i 32))))
  .ok ((s.setCore k { x with accPoison := x.accPoison ++ bad }).putThr t.clearVstart)

/-- MCVT (R156): the row rounded into the format of v[d]; it sets no flag. -/
def runMcvt (s : State) (c : VCmd) : Res State :=
  let x := s.core (coreOf s.cur)
  let t := s.thr
  let f := fmtFp (t.fmt c.d)
  match (accCols c).find? (fun i => x.accPoison.contains (accKey c.a c.y.toNat i)) with
  | some i => .error ⟨s, .held (accTval (accKey c.a c.y.toNat i)) c⟩
  | none =>
    let val (i : Nat) : Nat := (roundTo f .rne (decodeFp Fp.fp32 (x.accWord c.a c.y.toNat i).toNat)).1
    .ok (s.putThr (t.writeElems c.d f.width ((accCols c).map (fun i => (i, val i)))).clearVstart)

end Sys2Proof.Machine
end

