-- ==== Sys2Proof/Machine/Sequencer.lean ====
section
/-! DEFINITION. The vector sequencer (R104, R345): the run of one command, the issue that starts its command at once
or puts it into its thread's queue, and VECTOR_SEQUENCER_START, which starts the head of a queue. -/
namespace Sys2Proof.Machine

/-- Runs a command of the current slot's thread. -/
def runCmd (s : State) (c : VCmd) : Res State :=
  match c.op with
  | .mv => runMv s c
  | .splat => runSplat s c
  | .get => runGet s c
  | .put => runPut s c
  | .movr => runMoveReg s c.a c.d
  | .movw => runMoveReg s c.d c.a
  | .int k => runInt s c k false
  | .cmpInt k => runCmpInt s c k false
  | .wide k => runWide s c k false
  | .abs => runInt s c 0x18 false
  | .flt k => runFlt s c k false
  | .cmpFlt k => runCmpFlt s c k false
  | .unary k => runFlt s c k false
  | .cls => runClass s c
  | .intG k => runInt s c k true
  | .cmpIntG k => runCmpInt s c k true
  | .wideG k => runWide s c k true
  | .fltG k => runFlt s c k true
  | .cmpFltG k => runCmpFlt s c k true
  | .cvt => runCvt s c
  | .cvtSat => runSat s c
  | .cvtSc => runSc s c
  | .cvtDs => runDs s c
  | .shift => runShift s c false
  | .rot => runShift s c true
  | .feedLo => runFeed s c false
  | .feedHi => runFeed s c true
  | .pick => runPick s c
  | .pack => runPack s c
  | .spread => runSpread s c
  | .scanInt k => runScanInt s c k
  | .scanFlt => runScanFlt s c
  | .redInt k => runRedInt s c k
  | .redFlt k => runRedFlt s c k
  | .mbound => runMbound s c
  | .mlogic k => runMlogic s c k
  | .mmv => runMmv s c
  | .mcnt => runMcnt s c
  | .mfirst => runMfirst s c
  | .mfromv => runMfromv s c
  | .mtov => runMtov s c
  | .mpush => runMpush s c
  | .melse => runMelse s c
  | .mpop => runMpop s c
  | .load m => runLoad s c m
  | .store m => runStore s c m
  | .gld => runGld s c
  | .scs => runScs s c
  | .vamo k => runVamo s c k
  | .sample f => runSample s c f
  | .boxtest => runBox s c
  | .tritest => runTri s c
  | .partition => runPartition s c
  | .mzero => runMzero s c
  | .mrd => runMrd s c
  | .mwr => runMwr s c
  | .mcvt => runMcvt s c
  | .cfg => .ok s

/-! ## The queue and the vector unit (R104, R105, R109, R345) -/

/-- The tags of a thread's registers as a queued command keeps them. -/
def tagsOf (v : Tab VReg) : Tab Nat := v.map (fun e => (e.1, e.2.fmt.toNat + 32 * e.2.grp.toNat))
/-- Registers with their bits as they are and their tags as listed. -/
def retag (v : Tab VReg) (tags : Tab Nat) : Tab VReg :=
  v.map (fun e => (e.1, ⟨e.2.bits, BitVec.ofNat 5 (tags.getD e.1 0), BitVec.ofNat 2 (tags.getD e.1 0 / 32)⟩))

/-- Whether an operation writes a g register (R21). -/
def VOp.toG : VOp → Bool
  | .get | .mcnt | .mfirst | .redInt _ | .redFlt _ | .partition => true
  | _ => false

/-- Whether an operation on registers sets c.vstart to 0 when it completes (R107); a memory instruction does so when it runs. -/
def VOp.endsVstart : VOp → Bool
  | .get | .put | .movr | .movw | .mbound | .mlogic _ | .mmv | .mcnt | .mfirst | .mfromv | .mtov | .mpush | .melse | .mpop
  | .mzero | .cfg => false
  | op => !op.isMem

/-- The occupancy in clk of each active element group at a source width (R109). -/
def VOp.clks (op : VOp) (w : Nat) : Nat :=
  let slow := w == 64
  match op with
  | .int c | .intG c =>
    if c = 0x02 || c = 0x03 || c = 0x04 || c = 0x05 then (if slow then 2 else 1)
    else if 0x06 ≤ c && c ≤ 0x09 then (if slow then 16 else 8)
    else 1
  | .flt c | .fltG c | .unary c =>
    if c = 0x03 || (0x10 ≤ c && c ≤ 0x14) then (if slow then 16 else 8) else if slow then 2 else 1
  | .cmpFlt _ | .cmpFltG _ | .cls => if slow then 2 else 1
  | .cvtDs | .pack | .spread | .scanInt _ | .scanFlt => 2
  | .pick => 4
  | _ => 1

/-- The registers of a group in which active elements lie (R108). -/
def activeGroups (w : Nat) (idx : List Nat) : Nat := ((idx.map (fun i => i * w / 1024)).eraseDups).length

/-- The clk for which a started command occupies the vector unit (R109, R157, R202). -/
def unitClks (t : Thread) (c : VCmd) : Nat :=
  let idx (r vstart : Nat) : List Nat := t.actives c.m (t.ew r) (t.count r) c.vl vstart
  let groups (r : Nat) : Nat := activeGroups (t.ew r) (idx r c.vstart)
  match c.op with
  | .mzero | .mrd | .mwr | .mcvt | .tritest => 8
  | .boxtest | .partition => 4
  | .get | .put | .movr | .movw | .mbound | .mlogic _ | .mmv | .mcnt | .mfirst | .mfromv | .mpush | .melse | .mpop | .cfg => 1
  | .mtov => activeGroups (t.ew c.d) (List.range c.vl)
  | .redInt _ | .redFlt _ => if groups c.a = 0 then 1 else groups c.a + 6
  | .cmpInt _ | .cmpIntG _ | .cmpFlt _ | .cmpFltG _ => c.op.clks (t.ew c.a) * groups c.a
  | .cvt | .cvtSat | .cvtSc => activeGroups (max (t.ew c.a) (t.ew c.d)) (idx c.d c.vstart)
  | .pack => 2 * groups c.a
  | .spread => 2 * activeGroups (t.ew c.d) (idx c.d 0)
  | op => op.clks (t.ew c.d) * groups c.d

/-- A command of a slot has started: its core's vector unit is taken (R345). -/
def State.occupy (s : State) (n : Nat) : State :=
  let c := coreOf s.cur
  s.setCore c { s.core c with vfree := s.clk + max n 1, vlast := slotOf s.cur }

/-- Whether a slot's queue holds a command its core's sequencer may start: its head, ready by now, once the unit is free (R104,
R345). -/
def State.mayStart (s : State) (k : Nat) : Bool :=
  let t := s.thread k
  (match t.st with
   | .running | .waiting _ => true
   | _ => false) && !t.held && t.headReady && t.vready ≤ s.clk && (s.core (coreOf k)).vfree ≤ s.clk && !s.dev.sealing && !s.dev.tripped &&
    !(s.die (dieOf k)).inReset

/-- The place of a slot in the rotation after the slot started last (R345). -/
def turnAfter (last slot : Nat) : Nat := (slot + 15 - last) % 16

/-- The slot of a core whose command starts next: the one that became ready earliest, and among several the first in rotation
(R345). -/
def State.readySlot (s : State) (core : Nat) : Option Nat :=
  let last := (s.core core).vlast
  let rank (k : Nat) : Nat := (s.thread k).vready * 16 + turnAfter last (slotOf k)
  s.threads.foldl (fun best e =>
    if coreOf e.1 == core && s.mayStart e.1 then
      match best with
      | none => some e.1
      | some b => if rank e.1 < rank b then some e.1 else best
    else best) none

/-- Whether a vector instruction that issues starts at once: its thread's queue is empty, the unit is free, and no other command
has been ready before it. -/
def State.startsNow (s : State) : Bool :=
  s.thr.vq.isEmpty && (s.core (coreOf s.cur)).vfree ≤ s.clk && (s.readySlot (coreOf s.cur)).isNone

/-- Runs a command at once. -/
def startCmd (s : State) (c : VCmd) : Res State := do
  let n := unitClks s.thr c
  let s ← runCmd s c
  .ok (s.occupy n)

/-- Puts a command into its thread's queue: its g result is pending from now on, and the completion's write of c.vstart comes in
program order. A memory instruction's results are pending once it has run, up to when its thread's turns are idle (R105). -/
def State.queueCmd (s : State) (c : VCmd) : State :=
  let id := s.uid + 1
  let toG := c.op.toG && !c.op.isMem && c.d != 0
  let t := if c.op.endsVstart then s.thr.clearVstart else s.thr
  let t := { t with vready := if t.vq.isEmpty then s.clk else t.vready,
                    vq := t.vq ++ [{ c with id := if toG then id else 0, tags := tagsOf t.v }] }
  let s := { s with uid := id }.putThr t
  if toG then s.addScPend id [c.d] else s

/-- A command takes a place in its thread's queue of 8, and the thread goes on; where the queue is full the turn goes idle (R104). -/
def enqueue (s : State) (c : VCmd) : Res State := if s.thr.vq.length ≥ 8 then stall s else .ok ((s.queueCmd c).advance 4)

/-- The last part of a vector instruction's issue: it starts, where its registers have received every earlier write, or takes a
place in its thread's queue (R104). A memory instruction that starts and finds its accesses held stays in the queue. -/
def issueCmd (s : State) (c : VCmd) : Res State :=
  if s.startsNow && s.thr.cmdReady c then
    match startCmd s c with
    | .ok s' => .ok (s'.advance 4)
    | .error e => if c.op.isMem && e.why == .stall then enqueue s c else .error e
  else enqueue s c

/-- The last part of the issue of an instruction that has captured c.vl and c.vstart. -/
def vecIssue (s : State) (c : VCmd) : Res State := do
  captured s [codeVl, codeVstart]
  issueCmd s c

/-- Whether a pending result is that of a queued command. -/
def Pend.isOf (id : Nat) : Pend → Bool
  | .sc j _ => id != 0 && j == id
  | _ => false

/-- The thread as a queued command finds it when it starts: with the tags of its issue, and, unless it is a memory instruction, its
own pending result alone. -/
def Thread.forCmd (t : Thread) (c : VCmd) (rest : List VCmd) : Thread :=
  { t with vq := rest, v := if c.tags.isEmpty then t.v else retag t.v c.tags,
           pend := if c.op.isMem then t.pend else t.pend.filter (Pend.isOf c.id) }

/-- The thread after a queued command has run: the issue side, which later instructions may have changed, stands as `old` has
it; a memory instruction, behind which nothing has issued, and a replayed one that had not been queued set c.vstart themselves. -/
def Thread.afterCmd (t old : Thread) (c : VCmd) : Thread :=
  { t with v := if c.tags.isEmpty then t.v else retag t.v (tagsOf old.v),
           vstart := if c.tags.isEmpty || c.op.isMem then t.vstart else old.vstart,
           pend := if c.op.isMem then t.pend else old.pend.filter (fun p => !p.isOf c.id) ++ t.pend }

/-- VECTOR_SEQUENCER_START (R104, R227, R345): the head of a queue of a core starts, and the one behind it stands at the head from
the next clk. One that meets poison traps with the commands behind it as the thread's remainder; a memory instruction that parks or
traps leaves the queue with the thread at its address, and one whose accesses are held tries again from the next clk, behind the
commands that are ready by now. -/
def execVectorSequencerStart (core : Nat) (s : State) : Host.Outcome State Fault Refusal :=
  match s.readySlot core with
  | none => .next s
  | some k =>
    match (s.thread k).vq with
    | [] => .next s
    | c :: rest =>
      let old := s.thread k
      let s₀ := { s with cur := k }
      let s₁ := s₀.putThr (old.forCmd c rest)
      match runCmd s₁ c with
      | .ok u =>
        let t := u.thr.afterCmd old c
        .next ((u.putThr { t with vready := s.clk + 1, replay := t.replay && !rest.isEmpty }).occupy (unitClks s₁.thr c))
      | .error e =>
        match e.why with
        | .held v _ => .next (s₀.holdRemainder v c rest old.pc)
        | .trap cause v _ => .next ((e.st.putThr (e.st.thr.afterCmd old c)).takeTrapAt k cause v c.pc c.pc 0)
        | .park va => .next ((e.st.putThr { e.st.thr.afterCmd old c with pc := c.pc }).takePark k va)
        | .stall => .next (s.setThread k { old with vready := s.clk + 1 })

end Sys2Proof.Machine
end

