-- ==== Sys2Proof/Machine/VecAccess.lean ====
section
/-! DEFINITION. The issue of the vector loads and stores (R133 to R138), of GLD, SCS and the vector atomics (R176 to R179), and of
the accumulator instructions (R156, R157). -/
namespace Sys2Proof.Machine

/-- Whether an operation is a vector store, whose v[d] is a source. -/
def VOp.isStore : VOp → Bool
  | .store _ => true
  | _ => false

/-- A vector load or store: the checks of its data and index groups (R133), the lease trap (R173), and its scalar
operands. -/
def issueMem (op : VOp) (mode : Nat) (w : Bool) (d a b : BitVec 5) (m : BitVec 3) (s : State) : Res State := do
  let (vl, vs, s) ← vecBegin w s
  boundCheck s (if mode = 2 then [d.toNat, b.toNat] else [d.toNat]) []
  tagCheck s vl [(d.toNat, fun x _ => (mode == 0 || fmtWidth x ≥ 8) && (x != fmtVf4 || !op.isStore))]
  if mode = 2 then tagCheck s vl [(b.toNat, fun x _ => 5 ≤ x && x ≤ 8)] else .ok ()
  let s ← noRegion s
  let (x, s) ← readG s a.toNat
  let (y, s) ← if mode = 1 then readG s b.toNat else .ok (0, s)
  vecIssue s { mkCmd s op d.toNat a.toNat b.toNat m.toNat vl vs with x := x, y := y }

/-- GLD, SCS and the vector atomics (R176, R179): `p` the formats of v[d]. -/
def issueLinked (op : VOp) (p : Nat → Bool) (w : Bool) (d a b : BitVec 5) (m : BitVec 3) (s : State) : Res State := do
  let (vl, vs, s) ← vecBegin w s
  boundCheck s [d.toNat, b.toNat] []
  tagCheck s vl [(d.toNat, fun x _ => p x), (b.toNat, fun x _ => 5 ≤ x && x ≤ 8)]
  let s ← noRegion s
  let (x, s) ← readG s a.toNat
  vecIssue s { mkCmd s op d.toNat a.toNat b.toNat m.toNat vl vs with x := x }

/-- The 32-bit and 64-bit integer formats (R176). -/
def wideInt (f : Nat) : Bool := 5 ≤ f && f ≤ 8
/-- FP32 and FP64 (R176). -/
def wideFloat (f : Nat) : Bool := f == 0x0B || f == 0x0C
/-- The formats of R176. -/
def wideData (f : Nat) : Bool := wideInt f || wideFloat f

/-- The accumulator-ownership check (R19, R67). -/
def ownerCheck (s : State) : Res Unit := if s.ownsAcc s.cur then .ok () else trapNow s 0x05 s.wordAtPc

/-- The row operand of an accumulator instruction (R156). -/
def rowCheck (s : State) (y : Word) : Res Unit := if y.toNat ≥ 64 then trapNow s 0x03 y else .ok ()

/-- Whether a slice may be written: every earlier MST has read it (R157). -/
def State.sliceFree (s : State) (k slice : Nat) : Bool :=
  !s.entries.any (fun e => e.owner == (s.thread k).owner && (match e.job with
    | .mst sl _ _ _ _ started => sl == slice && !started
    | _ => false))

/-- MZERO (R156). -/
def issueMzero (w : Bool) (sl : BitVec 1) (s : State) : Res State := do
  let s ← waitW w s
  ownerCheck s
  if !s.sliceFree s.cur sl.toNat then stall s else issueCmd s (mkCmd s .mzero sl.toNat 0 0 0 0 0)

/-- MRD, MWR and MCVT (R156): `v` the vector group, `p` the tags it may carry. -/
def issueAcc (op : VOp) (w : Bool) (d a b v : Nat) (p : Nat → Nat → Bool) (writes : Option Nat) (s : State) : Res State := do
  let (vl, vs, s) ← vecBegin w s
  boundCheck s [v] []
  tagCheck s vl [(v, p)]
  ownerCheck s
  let (y, s) ← readG s b
  rowCheck s y
  match writes with
  | some sl => if !s.sliceFree s.cur sl then stall s else vecIssue s { mkCmd s op d a 0 0 vl vs with y := y }
  | none => vecIssue s { mkCmd s op d a 0 0 vl vs with y := y }

/-- The tag of a row in FP32 (R156). -/
def rowTag (f n : Nat) : Bool := f == 0x0B && n == 8
/-- The tags of MCVT's destination (R156). -/
def mcvtTag (f n : Nat) : Bool :=
  ((f == 0x09 || f == 0x0A) && n == 4) || ((f == 0x0D || f == 0x0E) && n == 2) || (f == 0x0F && n == 1)

/-- VLD (R133). -/
def execVld (w : Bool) (d a : BitVec 5) (m : BitVec 3) (s : State) : Host.Outcome State Fault Refusal :=
  finish s (issueMem (.load 0) 0 w d a 0 m s)

/-- VLDS (R133). -/
def execVlds (w : Bool) (d a b : BitVec 5) (m : BitVec 3) (s : State) : Host.Outcome State Fault Refusal :=
  finish s (issueMem (.load 1) 1 w d a b m s)

/-- VLDX (R133). -/
def execVldx (w : Bool) (d a b : BitVec 5) (m : BitVec 3) (s : State) : Host.Outcome State Fault Refusal :=
  finish s (issueMem (.load 2) 2 w d a b m s)

/-- VST (R133). -/
def execVst (w : Bool) (d a : BitVec 5) (m : BitVec 3) (s : State) : Host.Outcome State Fault Refusal :=
  finish s (issueMem (.store 0) 0 w d a 0 m s)

/-- VSTS (R133). -/
def execVsts (w : Bool) (d a b : BitVec 5) (m : BitVec 3) (s : State) : Host.Outcome State Fault Refusal :=
  finish s (issueMem (.store 1) 1 w d a b m s)

/-- VSTX (R133). -/
def execVstx (w : Bool) (d a b : BitVec 5) (m : BitVec 3) (s : State) : Host.Outcome State Fault Refusal :=
  finish s (issueMem (.store 2) 2 w d a b m s)

/-- GLD (R177). -/
def execGld (w : Bool) (d a b : BitVec 5) (m : BitVec 3) (s : State) : Host.Outcome State Fault Refusal :=
  finish s (issueLinked .gld wideData w d a b m s)

/-- SCS (R178). -/
def execScs (w : Bool) (d a b : BitVec 5) (m : BitVec 3) (s : State) : Host.Outcome State Fault Refusal :=
  finish s (issueLinked .scs wideData w d a b m s)

/-- VAMOADD (R179). -/
def execVamoadd (w : Bool) (d a b : BitVec 5) (m : BitVec 3) (s : State) : Host.Outcome State Fault Refusal :=
  finish s (issueLinked (.vamo 0) wideInt w d a b m s)

/-- VAMOAND (R179). -/
def execVamoand (w : Bool) (d a b : BitVec 5) (m : BitVec 3) (s : State) : Host.Outcome State Fault Refusal :=
  finish s (issueLinked (.vamo 1) wideInt w d a b m s)

/-- VAMOOR (R179). -/
def execVamoor (w : Bool) (d a b : BitVec 5) (m : BitVec 3) (s : State) : Host.Outcome State Fault Refusal :=
  finish s (issueLinked (.vamo 2) wideInt w d a b m s)

/-- VAMOXOR (R179). -/
def execVamoxor (w : Bool) (d a b : BitVec 5) (m : BitVec 3) (s : State) : Host.Outcome State Fault Refusal :=
  finish s (issueLinked (.vamo 3) wideInt w d a b m s)

/-- VAMOMIN (R179). -/
def execVamomin (w : Bool) (d a b : BitVec 5) (m : BitVec 3) (s : State) : Host.Outcome State Fault Refusal :=
  finish s (issueLinked (.vamo 4) wideInt w d a b m s)

/-- VAMOMAX (R179). -/
def execVamomax (w : Bool) (d a b : BitVec 5) (m : BitVec 3) (s : State) : Host.Outcome State Fault Refusal :=
  finish s (issueLinked (.vamo 5) wideInt w d a b m s)

/-- VAMOMINN (R179). -/
def execVamominn (w : Bool) (d a b : BitVec 5) (m : BitVec 3) (s : State) : Host.Outcome State Fault Refusal :=
  finish s (issueLinked (.vamo 6) wideInt w d a b m s)

/-- VAMOMAXN (R179). -/
def execVamomaxn (w : Bool) (d a b : BitVec 5) (m : BitVec 3) (s : State) : Host.Outcome State Fault Refusal :=
  finish s (issueLinked (.vamo 7) wideInt w d a b m s)

/-- VAMOFADD (R179). -/
def execVamofadd (w : Bool) (d a b : BitVec 5) (m : BitVec 3) (s : State) : Host.Outcome State Fault Refusal :=
  finish s (issueLinked (.vamo 8) wideFloat w d a b m s)

/-- MZERO (R156). -/
def execMzero (w : Bool) (sl : BitVec 1) (s : State) : Host.Outcome State Fault Refusal :=
  finish s (issueMzero w sl s)

/-- MRD (R156). -/
def execMrd (w : Bool) (d : BitVec 5) (sl : BitVec 1) (b : BitVec 5) (s : State) : Host.Outcome State Fault Refusal :=
  finish s (issueAcc .mrd w d.toNat sl.toNat b.toNat d.toNat rowTag none s)

/-- MWR (R156). -/
def execMwr (w : Bool) (sl : BitVec 1) (a b : BitVec 5) (s : State) : Host.Outcome State Fault Refusal :=
  finish s (issueAcc .mwr w sl.toNat a.toNat b.toNat a.toNat rowTag (some sl.toNat) s)

/-- MCVT (R156). -/
def execMcvt (w : Bool) (d : BitVec 5) (sl : BitVec 1) (b : BitVec 5) (s : State) : Host.Outcome State Fault Refusal :=
  finish s (issueAcc .mcvt w d.toNat sl.toNat b.toNat d.toNat mcvtTag none s)

end Sys2Proof.Machine
end

