-- ==== Sys2Proof/Machine/Wait.lean ====
section
/-! DEFINITION. VWAIT and VWAIT.T (R180 to R182): the issue with its checks and first comparison pass, the further passes
that writes start, and the timeout. -/
namespace Sys2Proof.Machine

/-- What a VWAIT holds while it waits (R180, R181). -/
structure Watch where
  t0 : Nat
  timeout : Word
  d : Nat
  mask : Nat
  cc : Nat
  w : Nat
  traps : Bool
  elems : List (Nat × Nat × Nat × Nat)
  deriving DecidableEq, Repr

/-- A watch as the thread's wait; `woken` says that a pass is to be made. -/
def Watch.wait (v : Watch) (woken : Bool) : Wait := .vwait v.t0 v.timeout v.d v.mask v.cc v.w v.traps woken v.elems

/-- The watch of a waiting thread, and whether a write has started a pass. -/
def Thread.watch (t : Thread) : Option (Watch × Bool) :=
  match t.st with
  | .waiting (.vwait t0 lim d km cc w tr woken es) => some (⟨t0, lim, d, km, cc, w, tr, es⟩, woken)
  | _ => none

/-- The parts a watch reads. -/
def Watch.spans (v : Watch) : List Span := v.elems.map (fun e => ⟨e.2.2.1, if e.2.2.1 ≥ 2 ^ 56 then 3 else 0, v.w / 8⟩)

/-- The elements that a comparison pass finds unmet (R180, R181). -/
def State.unmet (s : State) (v : Watch) : List Nat :=
  (v.elems.filter (fun e =>
    !vecCmpInt (0x20 + v.cc) v.w (s.loadPart s.cur e.2.2.1 (if e.2.2.1 ≥ 2 ^ 56 then 3 else 0) (v.w / 8)) e.2.2.2)).map Prod.fst

/-- Whether a watch has timed out (R181); 2^64 − 1 is no timeout. -/
def Watch.over (v : Watch) (now : Nat) : Bool := v.timeout != allOnes64 && now ≥ v.t0 + v.timeout.toNat

/-- The end of a wait (R181): the unmet count goes to g[d] and the unmet elements to the mask named, both long-latency results. -/
def endWait (s : State) (v : Watch) (u : List Nat) : State :=
  let t := s.thr
  let m := if v.mask = 0 then [] else [Pend.mask v.mask (bitsMask (BitVec.ofNat 1024 (bitSum u)))]
  let s := (s.putThr { t with st := .running }).addPend (if v.d = 0 then [] else [(v.d, BitVec.ofNat 64 u.length)])
  (s.putThr { s.thr with pend := s.thr.pend ++ m }).advance 4

/-- One comparison pass (R181): the wait exits, times out, or goes on. -/
def waitPass (s : State) (v : Watch) : Res State := do
  let s ← consumeParts s v.spans
  match s.unmet v with
  | [] => .ok (endWait s v [])
  | e :: r =>
    if !v.over s.clk then .ok (s.putThr { s.thr with st := .waiting (v.wait false) })
    else if v.traps then trapNow (s.putThr { s.thr with st := .running }) 0x0E (BitVec.ofNat 64 ((least (e :: r)).getD e))
    else .ok (endWait s v (e :: r))

/-- The checks of a flag address (R180): those of R136 with no trimming. -/
def checkFlag (s : State) (va n : Nat) : Except ElemFail Span :=
  match checkElem s s.cur ⟨.load, false, true⟩ va n false with
  | .error .scratch => .error (.trap 0x06 none)
  | r => r

/-- The checks of the flag addresses of a wait, by element index and virtual address (R180): where they all pass, the elements with
their parts. -/
def checkFlags (s : State) (n : Nat) (vas : List (Nat × Nat)) : Res (List (Nat × Span)) :=
  match runAhead (fun i => checkFlag s (Tab.getD vas i 0) n) (vas.map Prod.fst) with
  | (_, some (i, .trap c va)) => trapNow s c (elemTval i va)
  | (_, some (i, .scratch)) => trapNow s 0x06 (BitVec.ofNat 64 i)
  | (_, some (_, .park va)) => .error ⟨s, .park va⟩
  | (_, some (_, .hold)) => stall s
  | (es, none) => .ok es

/-- The codes of the registers of a group among pending results (R23). -/
def Thread.groupCodes (t : Thread) (r : Nat) : List Nat := (List.range (t.grp r)).map (fun j => 32 + r + j)

/-- VWAIT and VWAIT.T (R180). The wait counts from here; where the flags' lines or the core's port are held, its first pass comes
later. The check of c.vstart comes with those of R67's second step (log entry 118). -/
def waitIssue (traps w : Bool) (d a b : BitVec 5) (m : BitVec 3) (cc : BitVec 4) (s : State) : Res State := do
  let (vl, vs, s) ← vecBegin w s
  let a := a.toNat
  let b := b.toNat
  if vs ≠ 0 then illegal s
  else
    boundCheck s [a, b] []
    tagCheck s vl [(a, fun f _ => f == 8), (b, fun f _ => 5 ≤ f && f ≤ 8)]
    let s ← noRegion s
    queueEmpty s
    let (lim, s) ← readG s d.toNat
    captured s [codeVl, codeVstart]
    let (ta, s) ← readVecPending s (s.thr.groupCodes a)
    let (tb, s) ← readVecPending s (s.thr.groupCodes b)
    let (tm, s) ← readVecPending s (if m = 0 then [] else [96 + m.toNat])
    let bw := tb.ew b
    if tm.maskPoisoned m.toNat (tb.count b) vl 0 then trapNow s 0x0F (BitVec.ofNat 64 (3 * 2 ^ 56 + 96 + m.toNat))
    else
      let idx := tm.actives m.toNat bw (tb.count b) vl 0
      match idx.findSome? (fun i =>
          if ta.elemPoisoned a i 64 then some (vecTval ⟨a, i, 64⟩)
          else if tb.elemPoisoned b i bw then some (vecTval ⟨b, i, bw⟩) else none) with
      | some v => trapNow s 0x0F v
      | none =>
        let s := (s.logDeferredOf ta (idx.map (fun i => ⟨a, i, 64⟩))).logDeferredOf tb (idx.map (fun i => ⟨b, i, bw⟩))
        let es ← checkFlags s (bw / 8) (idx.map (fun i => (i, ta.elem a i 64)))
        let v : Watch := { t0 := s.clk, timeout := lim, d := d.toNat, mask := m.toNat, cc := cc.toNat, w := bw, traps := traps,
                           elems := es.map (fun e => (e.1, ta.elem a e.1 64, e.2.pa, tb.elem b e.1 bw)) }
        if vecHeld s es then .ok (s.putThr { s.thr with st := .waiting (v.wait true) })
        else waitPass s v

/-- VWAIT (R180, R181). -/
def execVwait (w : Bool) (d a b : BitVec 5) (m : BitVec 3) (c : BitVec 4) (s : State) : Host.Outcome State Fault Refusal :=
  finish s (waitIssue false w d a b m c s)

/-- VWAIT_T (R180, R181). -/
def execVwaitT (w : Bool) (d a b : BitVec 5) (m : BitVec 3) (c : BitVec 4) (s : State) : Host.Outcome State Fault Refusal :=
  finish s (waitIssue true w d a b m c s)

/-- A watch with its flags translated again, as each pass finds them (R276); a window address needs no translation. -/
def Watch.translate (s : State) (v : Watch) : Res Watch := do
  let es ← checkFlags s (v.w / 8) ((v.elems.filter (fun e => e.2.2.1 < 2 ^ 56)).map (fun e => (e.1, e.2.1)))
  .ok { v with elems := v.elems.map (fun e => (e.1, e.2.1, (es.find? (fun f => f.1 == e.1)).elim e.2.2.1 (fun f => f.2.pa), e.2.2.2)) }

/-- A comparison pass with the flags translated again (R181, R276), once their lines and the core's port are free. -/
def passAgain (s : State) (v : Watch) : Res State := do
  let v ← v.translate s
  if s.portHeld s.cur || s.partsHeld s.cur v.spans then stall s else waitPass s v

/-- A further pass of a slot's wait, when `due` holds for it. A held thread whose wait would end, by its exit, its timeout, a trap or a
park, becomes RUNNING at its VWAIT (R235, R239). -/
def waitAgain (slot : Nat) (due : Watch → Bool → Bool) (s : State) : Host.Outcome State Fault Refusal :=
  match (s.thread slot).watch with
  | none => .next s
  | some (v, woken) =>
    let s' := { s with cur := slot }
    if !due v woken then .next s
    else if s'.thr.held then
      match passAgain s' v with
      | .ok u => .next (if u.thr.watch.isSome then u else s'.putThr { s'.thr with st := .running })
      | .error ⟨_, .stall⟩ => .next s
      | .error _ => .next (s'.putThr { s'.thr with st := .running })
    else finish s (passAgain s' v)

/-- VWAIT_PASS (R181): a write to a monitored line has started a comparison pass. -/
def execVwaitPass (slot : Nat) (s : State) : Host.Outcome State Fault Refusal :=
  waitAgain slot (fun _ woken => woken) s

/-- VWAIT_TIMEOUT (R181): the time is over, and a pass is made. -/
def execVwaitTimeout (slot : Nat) (s : State) : Host.Outcome State Fault Refusal :=
  waitAgain slot (fun v _ => v.over s.clk) s

/-- Every wait of a partition makes a pass with its flags translated again, after a TLBINV (R276). -/
def State.wakeWaits (s : State) (part : Nat) : State :=
  { s with threads := s.threads.map (fun e =>
    (e.1, if e.2.part == part then
      (match e.2.watch with
       | some (v, _) => { e.2 with st := .waiting (v.wait true) }
       | none => e.2) else e.2)) }

end Sys2Proof.Machine
end

