-- ==== Sys2Proof/Machine/Matrix.lean ====
section
/-! DEFINITION. The matrix array (ch. 06): MGANG and the join (R140, R141), the issue of MMA and MMA.SLIDE with its checks (R142
to R148, R152), and the gang operation's steps (R147, R150, R151, R154, R155). -/
namespace Sys2Proof.Machine

/-! ## Joining (R140, R141) -/

/-- MGANG (R140, R141); of the cases 2 and 3 of R141 the first decides (log entry 115). -/
def execMgang (w : Bool) (s : State) : Host.Outcome State Fault Refusal :=
  finish s do
    let s ← waitW w s
    ownerCheck s
    let s ← noRegion s
    if s.gangHalted s.cur then trapNow s 0x0A 2
    else if s.thr.joined then trapNow s 0x0A 3
    else
      let q := quadOfCore (coreOf s.cur)
      let g := s.quad q
      let arrived := g.arrived ++ [s.cur]
      let g := { g with arrived := arrived, joinAt := if arrived.length = 4 then some (s.clk + 2) else g.joinAt }
      .ok ((s.setQuad q g).putThr { s.thr with st := .waiting .gang })

/-- A thread that a join releases (R140). -/
def Thread.takeJoin (t : Thread) : Thread :=
  if t.st == .waiting .gang then { t with st := .running, pc := t.pc + 4, joined := true } else t

/-- A held thread whose join comes: it stands at its MGANG (R235, R239). -/
def Thread.leaveJoin (t : Thread) : Thread := if t.st == .waiting .gang then { t with st := .running } else t

/-- GANG_JOIN_RELEASE (R140): the four threads of slot `slot` become RUNNING, each with an unused join. A held thread stands at its
MGANG instead, its arrival is undone, and the others wait on (R235, R239, log entry 47). -/
def execGangJoinRelease (quad slot : Nat) (s : State) : Host.Outcome State Fault Refusal :=
  let g := s.quad quad
  match g.joinAt with
  | none => .next s
  | some c =>
    if s.clk < c || g.arrived.any (fun k => slotOf k != slot) then .next s
    else
      let away := g.arrived.filter (fun k => (s.thread k).held)
      if away.isEmpty then
        let s := s.setQuad quad { g with arrived := [], joinAt := none }
        .next (g.arrived.foldl (fun s k => s.setThread k (s.thread k).takeJoin) s)
      else
        let s := s.setQuad quad { g with arrived := g.arrived.filter (fun k => !away.contains k), joinAt := none }
        .next (away.foldl (fun s k => s.setThread k (s.thread k).leaveJoin) s)

/-! ## Operands (R142 to R146, R152) -/

/-- The format of A (R146). -/
def GangPart.afmt (p : GangPart) : Nat := if p.src = 2 then p.fc else p.fa
/-- K. -/
def GangPart.len (p : GangPart) : Nat := 32 * (p.kc + 1)
/-- Whether a format is FP16 or BF16. -/
def isHalf (f : Nat) : Bool := f == 0x09 || f == 0x0A
/-- Whether a format is one of E4M3, E5M2, E2M1 and VF4. -/
def isSmall (f : Nat) : Bool := f == 0x0D || f == 0x0E || f == 0x0F || f == 0x10
/-- The number of codes of A that a core supplies (R143, R152). -/
def GangPart.codes (p : GangPart) : Nat := if p.slide then 63 + p.len else 64 * p.len
/-- The registers of the A span (R143, R152). -/
def GangPart.span (p : GangPart) : Nat := (p.codes * fmtWidth p.afmt + 1023) / 1024
/-- The source field of a scale register that is read (R145): FP16, BF16 and the down-converter's A have none. -/
def scaleSource (half : Bool) (x : Nat) : Nat := if half then 0 else x % 4
/-- The source of the A scales. -/
def GangPart.ssa (p : GangPart) : Nat := scaleSource (isHalf p.afmt || p.src == 2) p.sa
/-- The source of the B scales. -/
def GangPart.ssb (p : GangPart) : Nat := scaleSource (isHalf p.fb) p.sb
/-- The register of a scale field (R26). -/
def scaleReg (x : Nat) : Nat := bitsOf x 2 5
/-- The scratch offset of a scale field (R26). -/
def scaleOff (x : Nat) : Nat := bitsOf x 8 19
/-- The registers that hold one scale byte for each of 64 × G blocks. -/
def GangPart.scaleRegs (p : GangPart) : Nat := (64 * (p.kc + 1) + 127) / 128
/-- The scale registers of A (R145): one where A is a register span, placed by R42. -/
def GangPart.scaleSpanA (p : GangPart) : List Nat :=
  if p.ssa ≠ 1 then [] else (List.range (if p.src = 0 then 1 else p.scaleRegs)).map (· + scaleReg p.sa)
/-- The scale registers of B. -/
def GangPart.scaleSpanB (p : GangPart) : List Nat :=
  if p.ssb ≠ 1 then [] else (List.range p.scaleRegs).map (· + scaleReg p.sb)

/-- A code of `w` bits at index i from a byte offset of a core's scratch (R143, R144). -/
def scratchCode (s : State) (core off i w : Nat) : Nat :=
  if w = 4 then bitsOf (s.read (scratchAddr core (off + i / 2)) 1) (4 * (i % 2)) 4
  else s.read (scratchAddr core (off + i * w / 8)) (w / 8)

/-- The bytes of core scratch that a code lies in. -/
def codeSpan (core off i w : Nat) : Span := ⟨scratchAddr core (off + i * w / 8), 3, (w + 7) / 8⟩

/-- The element index of A(r, k) (R143, R152). -/
def GangPart.index (p : GangPart) (r k : Nat) : Nat := if p.slide then r + k else r * p.len + k

/-- The code A(r, k) from registers or scratch. -/
def codeA (s : State) (core : Nat) (t : Thread) (p : GangPart) (r k : Nat) : Nat :=
  let w := fmtWidth p.afmt
  if p.src = 0 then t.elem p.a (p.index r k) w else scratchCode s core p.a (p.index r k) w

/-- The code B(k, j) of a local column. -/
def codeB (s : State) (core : Nat) (p : GangPart) (k j : Nat) : Nat := scratchCode s core p.b (k * 64 + j) (fmtWidth p.fb)

/-- Where a scale byte lies: a byte of a vector register group, or of scratch. -/
inductive ScalePlace where
  | none
  | reg (v i : Nat)
  | scratch (off : Nat)
  deriving DecidableEq, Repr

/-- The place of the scale of row r and K-step q of A (R145). -/
def GangPart.placeA (p : GangPart) (r q : Nat) : ScalePlace :=
  let blk := r * (p.kc + 1) + q
  match p.ssa with
  | 1 =>
    if p.src = 0 then .reg (scaleReg p.sa) (scalePlace p.a (fmtWidth p.afmt) (r * p.len + 32 * q))
    else .reg (scaleReg p.sa) blk
  | 2 => .scratch (scaleOff p.sa + blk)
  | _ => .none

/-- The place of the scale of K-step q and local column j of B (R145). -/
def GangPart.placeB (p : GangPart) (q j : Nat) : ScalePlace :=
  let blk := q * 64 + j
  match p.ssb with
  | 1 => .reg (scaleReg p.sb) blk
  | 2 => .scratch (scaleOff p.sb + blk)
  | _ => .none

/-- A scale byte, where there is one. -/
def scaleByte (s : State) (core : Nat) (t : Thread) : ScalePlace → Option Nat
  | .none => none
  | .reg v i => some (t.elem v i 8)
  | .scratch off => some (s.read (scratchAddr core off) 1)

/-! ## Values (R147, R151) -/

/-- A block of a slice's row through the down-converter (R151). -/
def downBlock (fmt : Nat) (xs : List Val) : List Val :=
  if fmt = 0x0A then xs.map (fun x => decodeFp Fp.bf16 (roundTo Fp.bf16 .rne x).1)
  else if blockBad xs then xs.map (fun _ => .nan)
  else
    let (b, codes, _) := if fmt = 0x10 then vf4Block (xs.map (·, .rne)) else mxBlock fmt (xs.map (·, .rne))
    codes.map (scaledValue fmt (some b))

/-- The values of A in row r of a core at K-step q, with their scales. -/
def valuesA (s : State) (core : Nat) (t : Thread) (p : GangPart) (r q : Nat) : List Val :=
  if p.src = 2 then
    let c := s.core core
    downBlock p.fc ((List.range 32).map (fun j => decodeFp Fp.fp32 (c.accWord p.a r (32 * q + j)).toNat))
  else
    let b := scaleByte s core t (p.placeA r q)
    (List.range 32).map (fun j => scaledValue p.afmt b (codeA s core t p r (32 * q + j)))

/-- The values of B in a core's local column j at K-step q, with their scales. -/
def valuesB (s : State) (core : Nat) (t : Thread) (p : GangPart) (q j : Nat) : List Val :=
  let b := scaleByte s core t (p.placeB q j)
  (List.range 32).map (fun k => scaledValue p.fb b (codeB s core p (32 * q + k) j))

/-- Flush of R147 on an FP32 code: a magnitude below 2^−126 becomes a zero of its sign. -/
def flush32 (c : Nat) : Nat := if bitsOf c 23 8 = 0 then c / 2 ^ 31 % 2 * 2 ^ 31 else c

/-- RoundTo(c + x, FP32, RNE) and Flush (R56, R57, R58). -/
def accumulate (c : Nat) (x : Val) : Nat := flush32 (roundTo Fp.fp32 .rne (Val.plus (decodeFp Fp.fp32 c) x)).1

/-- One element of C over one K-step (R147). -/
def stepCell (half : Bool) (c : Nat) (xs ys : List Val) : Nat :=
  let ps := List.zipWith Val.times xs ys
  if half then ps.foldl accumulate c else accumulate c (ps.foldl Val.plus (.zero false))

/-- The slots of a quad's gang, by core of the quad (R19). -/
def State.gangKeys (s : State) (quad : Nat) : List Nat :=
  match (s.core (quad * 4)).accOwner with
  | some (i, _) => (List.range 4).map (fun c => (quad * 4 + c) * 16 + i)
  | none => []

/-- The words of C that a K-step gives one core (R147). -/
def stepWords (s : State) (p : Nat → GangPart) (keys : List Nat) (q c : Nat) : List (Nat × BitVec 32) :=
  let key (c : Nat) : Nat := keys.getD c 0
  let core := coreOf (key c)
  let half := isHalf (p c).afmt
  let cols := (List.range 4).flatMap (fun e => (List.range 64).map (fun j =>
    valuesB s (coreOf (key e)) (s.thread (key e)) (p e) q j))
  (List.range 64).flatMap (fun r =>
    let row := valuesA s core (s.thread (key c)) (p c) r q
    (List.range 256).zipWith (fun j col =>
      (accKey (p c).d r j, BitVec.ofNat 32 (stepCell half ((s.core core).accWord (p c).d r j).toNat row col))) cols)

/-- One K-step on all four cores (R147). -/
def State.kStep (s : State) (p : Nat → GangPart) (keys : List Nat) (q : Nat) : State :=
  let out := (List.range 4).map (fun c => (coreOf (keys.getD c 0), stepWords s p keys q c))
  out.foldl (fun s e => s.setCore e.1 ((s.core e.1).accWrite e.2)) s

/-! ## Issue (R148 to R150) -/

/-- The parameters that the four operations must share (R141 case 1). -/
def GangPart.shared (p : GangPart) : Bool × Nat × Nat × Nat × Nat × Nat × Nat × Nat :=
  (p.slide, p.d, p.src, p.kc, p.mstart, p.fa, p.fb, if p.src = 2 then p.fc else 0)

/-- The first register of a span whose tag is not the one asked for. -/
def badTag (t : Thread) (want : Nat) (rs : List Nat) : Option Nat := rs.find? (fun r => t.fmt r != want)

/-- The tag of a scale register of an operand format (R145). -/
def scaleTag (f : Nat) : Nat := if f = 0x10 then 0x12 else 0x11

/-- The control register that holds the A format: c.fmt.a, or c.fmt.c with the down-converter (R146, R407). -/
def GangPart.fmtReg (p : GangPart) : Nat := if p.src = 2 then 0x100A else 0x1008

/-- Step 5 of R148: the first operand that fails, the A span first, then the control registers, then the scales (R407). A format
that no form accepts is its own register's failure; a pair of accepted formats that do not go together is B's. -/
def mmaTag (t : Thread) (p : GangPart) : Option Nat :=
  let f := p.afmt
  let pair := (f == p.fb && isHalf f) || (isSmall f && isSmall p.fb)
  let span := if p.src = 0 then badTag t f ((List.range p.span).map (· + p.a)) else none
  let ctl : List (Nat × Bool) :=
    [(p.fmtReg, (if p.src = 2 then fmtTarget f else fmtAB f) && !(p.slide && p.fa == 0x10)), (0x1009, pair),
     (0x100C, !((f == 0x10 && p.src != 2 && p.ssa == 0) || (p.slide && p.sa % 4 != 0))),
     (0x100D, !(p.fb == 0x10 && p.ssb == 0))]
  let bad := (ctl.find? (fun e => !e.2)).map Prod.fst
  (span.or bad).or ((badTag t (scaleTag f) p.scaleSpanA).or (badTag t (scaleTag p.fb) p.scaleSpanB))

/-- The byte ranges of core scratch that an operation reads (R143 to R145), as offset and length, in the order of R148's step 6. -/
def GangPart.ranges (p : GangPart) : List (Nat × Nat) :=
  (if p.src = 1 then [(p.a, (p.codes * fmtWidth p.afmt + 7) / 8)] else []) ++ [(p.b, 64 * p.len * fmtWidth p.fb / 8)] ++
    (if p.ssa = 2 then [(scaleOff p.sa, 64 * (p.kc + 1))] else []) ++
    (if p.ssb = 2 then [(scaleOff p.sb, 64 * (p.kc + 1))] else [])

/-- The lowest offset of the ranges that lies outside a grant of base and size. -/
def outsideGrant (g : Nat × Nat) (rs : List (Nat × Nat)) : Option Nat :=
  least ((rs.filter (fun e => e.1 < g.1 || e.1 + e.2 > g.1 + g.2)).map (fun e =>
    if e.1 < g.1 || e.1 ≥ g.1 + g.2 then e.1 else g.1 + g.2))

/-- Releases the threads of a gang operation that did not start. -/
def State.dropParts (s : State) (quad : Nat) : State :=
  let s := (s.gangKeys quad).foldl (fun s k => s.setThread k { s.thread k with inGang := false }) s
  s.setQuad quad { s.quad quad with parts := [], step := none }

/-- Adds a core's operation to its gang; the last of the four decides (R141, R150). -/
def gangAdd (s : State) (p : GangPart) : Res State :=
  let quad := quadOfCore (coreOf s.cur)
  let g := s.quad quad
  let parts := g.parts.set (coreOf s.cur % 4) p
  let s := (s.setQuad quad { g with parts := parts }).putThr { s.thr with inGang := true }
  if parts.length < 4 then .ok s
  else if parts.any (fun e => e.2.shared != p.shared) then
    let others := (s.gangKeys quad).filter (· != s.cur)
    let s := s.dropParts quad
    let s := others.foldl (fun s k => s.takeTrap k 0x0A 1 none 0) s
    trapNow s 0x0A 1
  else .ok (s.setQuad quad { s.quad quad with startAt := s.clk + (if p.src = 2 then 12 else 4) })

/-- The vector registers that an operation reads, by their codes among pending results (R23). -/
def GangPart.vecCodes (p : GangPart) : List Nat :=
  ((if p.src = 0 then (List.range p.span).map (· + p.a) else []) ++ p.scaleSpanA ++ p.scaleSpanB).map (32 + ·)

/-- The issue of MMA and MMA.SLIDE (R148, R149): `src` 0 registers, 1 scratch, 2 the down-converter. -/
def issueMma (slide w : Bool) (d : BitVec 1) (src a b kc : Nat) (s : State) : Res State := do
  let s ← waitW w s
  if src = 2 && a = d.toNat then illegal s
  else
    ownerCheck s
    let s ← noRegion s
    if s.unperformed s.cur || !s.thr.vq.isEmpty then stall s
    else if s.thr.mstart.toNat > kc then illegal s
    else if !s.thr.joined then trapNow s 0x0A 0
    else
      let t := s.thr
      let p : GangPart :=
        { slide := slide, d := d.toNat, src := src, kc := kc, a := a, b := 0,
          mstart := t.mstart.toNat, fa := t.fmtA.toNat, fb := t.fmtB.toNat, fc := t.fmtC.toNat, sa := t.scaleA.toNat,
          sb := t.scaleB.toNat }
      boundCheck s [] ((if src = 0 then [(a, p.span)] else []) ++
        (p.scaleSpanA ++ p.scaleSpanB).map (fun r => (r, 1)))
      match mmaTag t p with
      | some r => trapNow s 0x04 (BitVec.ofNat 64 r)
      | none =>
        let (ga, s) ← if src = 1 then readG s a else .ok (0, s)
        let (gb, s) ← readG s b
        let (t, s) ← readVecPending s p.vecCodes
        let s := s.putThr t
        let p := { p with a := if src = 1 then ga.toNat else a, b := gb.toNat }
        match p.ranges.find? (fun e => e.1 % 64 ≠ 0) with
        | some e => trapNow s 0x07 (BitVec.ofNat 64 e.1)
        | none =>
          match outsideGrant (s.scratchGrant s.cur) p.ranges with
          | some x => trapNow s 0x06 (BitVec.ofNat 64 x)
          | none => gangAdd s p

/-- MMA_VREG (R142, R147). -/
def execMmaVreg (w : Bool) (sl : BitVec 1) (a b : BitVec 5) (k : BitVec 4) (s : State) : Host.Outcome State Fault Refusal :=
  finish s (issueMma false w sl 0 a.toNat b.toNat k.toNat s)

/-- MMA_SCRATCH (R142, R147). -/
def execMmaScratch (w : Bool) (sl : BitVec 1) (a b : BitVec 5) (k : BitVec 4) (s : State) : Host.Outcome State Fault Refusal :=
  finish s (issueMma false w sl 1 a.toNat b.toNat k.toNat s)

/-- MMA_DOWNCONV (R142, R151). -/
def execMmaDownconv (w : Bool) (sl t : BitVec 1) (b : BitVec 5) (k : BitVec 3) (s : State) : Host.Outcome State Fault Refusal :=
  finish s (issueMma false w sl 2 t.toNat b.toNat k.toNat s)

/-- MMA_SLIDE_VREG (R152). -/
def execMmaSlideVreg (w : Bool) (sl : BitVec 1) (a b : BitVec 5) (k : BitVec 4) (s : State) : Host.Outcome State Fault Refusal :=
  finish s (issueMma true w sl 0 a.toNat b.toNat k.toNat s)

/-- MMA_SLIDE_SCRATCH (R152). -/
def execMmaSlideScratch (w : Bool) (sl : BitVec 1) (a b : BitVec 5) (k : BitVec 4) (s : State) : Host.Outcome State Fault Refusal :=
  finish s (issueMma true w sl 1 a.toNat b.toNat k.toNat s)

/-! ## The operation's steps (R147, R149, R150, R154, R155) -/

/-- The captured operation of a core of the quad. -/
def Gang.part (g : Gang) (c : Nat) : GangPart := g.parts.getD c ⟨false, 0, 0, 0, 0, 0, 0, 0, 0, 0, 0, 0⟩

/-- The clk a K-step takes (R150). -/
def GangPart.stepClk (p : GangPart) : Nat :=
  if isHalf p.afmt then 64 else if fmtWidth p.afmt = 4 && fmtWidth p.fb = 4 then 16 else 32

/-- Whether a thread of the gang is held, which stops a gang operation (R154, R235). -/
def State.gangHeld (s : State) (quad : Nat) : Bool := (s.gangKeys quad).any (fun k => (s.thread k).held)

/-- GANG_OP_START (R141, R149, R150): the joins are used up and the array starts the first K-step, once every earlier MST
has read the slice. An operation whose threads are held has not started, and is issued again later (R154). -/
def execGangOpStart (quad : Nat) (s : State) : Host.Outcome State Fault Refusal :=
  let g := s.quad quad
  let p := g.part 0
  if g.parts.length ≠ 4 || g.step.isSome || s.dev.tripped then .next s
  else if s.gangHeld quad then .next (s.dropParts quad)
  else if s.clk < g.startAt || !(s.gangKeys quad).all (fun k => s.sliceFree k p.d) then .next s
  else
    let s := (s.gangKeys quad).foldl (fun s k => s.setThread k { s.thread k with joined := false }) s
    .next (s.setQuad quad { g with step := some p.mstart, endAt := s.clk + p.stepClk })

/-- The poison that a K-step meets among a core's operands (R155): the machine check's tval. -/
def stepPoison (s : State) (k : Nat) (p : GangPart) (q : Nat) : Option Word :=
  let core := coreOf k
  let t := s.thread k
  let x := s.core core
  let wa := fmtWidth p.afmt
  let steps := (List.range 32).map (· + 32 * q)
  let rows := List.range 64
  let cell : List Nat := rows.flatMap (fun r => (List.range 256).map (accKey p.d r)) ++
    (if p.src = 2 then rows.flatMap (fun r => steps.map (accKey p.a r)) else [])
  let regs : List ERead :=
    (if p.src = 0 then rows.flatMap (fun r => steps.map (fun i => ⟨p.a, p.index r i, wa⟩)) else []) ++
      (rows.map (fun r => p.placeA r q) ++ rows.map (fun j => p.placeB q j)).filterMap (fun e => match e with
        | .reg v i => some ⟨v, i, 8⟩
        | _ => none)
  let spans : List Span :=
    (if p.src = 1 then rows.flatMap (fun r => steps.map (fun i => codeSpan core p.a (p.index r i) wa)) else []) ++
      steps.flatMap (fun i => rows.map (fun j => codeSpan core p.b (i * 64 + j) (fmtWidth p.fb))) ++
      (rows.map (fun r => p.placeA r q) ++ rows.map (fun j => p.placeB q j)).filterMap (fun e => match e with
        | .scratch off => some ⟨scratchAddr core off, 3, 1⟩
        | _ => none)
  match regs.find? (fun e => t.elemPoisoned e.r e.i e.w) with
  | some e => some (vecTval e)
  | none =>
    match spans.findSome? (fun e => s.badTval k e.pa e.n) with
    | some v => some v
    | none => (cell.find? x.accPoison.contains).map accTval

/-- Ends a gang operation early (R154, R155): every thread's c.mstart is `q`, and its join stands for the reissue. -/
def State.stopGang (s : State) (quad q : Nat) (leave : Nat → Bool) : State :=
  let keys := s.gangKeys quad
  let s := keys.foldl (fun s k =>
    s.setThread k { s.thread k with mstart := BitVec.ofNat 4 q, joined := true, inGang := leave k }) s
  let parts : Tab GangPart := ((s.quad quad).parts.filter (fun e => leave (keys.getD e.1 0))).map (fun e =>
    (e.1, { e.2 with mstart := q }))
  s.setQuad quad { s.quad quad with parts := parts, step := none }

/-- GANG_KSTEP_END (R147, R150, R154, R155): the K-step in the array takes effect. A poisoned operand traps its core's
thread and the step is not applied; threads that are held suspend the operation after the step. -/
def execGangKstepEnd (quad : Nat) (s : State) : Host.Outcome State Fault Refusal :=
  let g := s.quad quad
  match g.step with
  | none => .next s
  | some q =>
    let p := g.part 0
    let keys := s.gangKeys quad
    if s.clk < g.endAt || q > p.kc || s.dev.tripped then .next s
    else
      let bad := keys.filterMap (fun k => (stepPoison s k (g.part (coreOf k % 4)) q).map (fun v => (k, v)))
      if !bad.isEmpty then
        let s := s.stopGang quad q (fun k => !bad.any (fun e => e.1 == k))
        .next (bad.foldl (fun s e => s.takeTrap e.1 0x0F e.2 none 0) s)
      else
        let s := s.kStep g.part keys q
        if q = p.kc then .next (s.setQuad quad { g with step := some (q + 1), endAt := g.endAt + 8 })
        else if s.gangHeld quad then .next (s.stopGang quad (q + 1) (fun _ => false))
        else .next (s.setQuad quad { g with step := some (q + 1), endAt := g.endAt + p.stepClk })

/-- GANG_OP_COMPLETE (R147, R150): c.mstart becomes 0 and the four threads go on. -/
def execGangOpComplete (quad : Nat) (s : State) : Host.Outcome State Fault Refusal :=
  let g := s.quad quad
  match g.step with
  | none => .next s
  | some q =>
    if s.clk < g.endAt || q ≤ (g.part 0).kc || s.dev.tripped then .next s
    else
      let s := (s.gangKeys quad).foldl (fun s k =>
        let t := s.thread k
        s.setThread k { t with mstart := 0, inGang := false, pc := t.pc + 4 }) s
      .next (s.setQuad quad { g with parts := [], step := none })

end Sys2Proof.Machine
end

