-- ==== Sys2Proof/Machine/Sync.lean ====
section
/-! DEFINITION. FENCE (R184), the barriers (R185, R186), WFE and WAKE (R183). -/
namespace Sys2Proof.Machine

/-- What a release at a scope waits for: the thread's own accesses not performed yet, queued vector memory instructions, and a die
in reset that dirty STRM bytes must reach (R104, R246, R249, R364). -/
def State.releaseWaits (s : State) (scope : Nat) : Bool :=
  s.unperformed s.cur || s.thr.memQueued || s.releaseHeld (coreOf s.cur) scope

/-- FENCE (R184): accesses are performed in program order at issue, so what is left to do is to write the core's dirty STRM bytes
home where the FENCE includes sl or ss, k[1] or k[0] (R250), after the thread's own accesses have been performed (R249). -/
def execFence (w : Bool) (k : BitVec 4) (sc : BitVec 3) (s : State) : Host.Outcome State Fault Refusal :=
  finish s do
    let s ← waitW w s
    let stores := k.getLsbD 1 || k.getLsbD 0
    if s.releaseWaits (if stores then sc.toNat else 0) then stall s
    else .ok ((if stores then s.release (coreOf s.cur) sc.toNat else s).advance 4)

/-- BARA (R185). -/
def execBara (w : Bool) (n : BitVec 4) (sc : BitVec 3) (s : State) : Host.Outcome State Fault Refusal :=
  finish s do
    let s ← waitW w s
    let s ← noRegion s
    if s.releaseWaits sc.toNat then stall s
    else
      let b := s.barrierOf s.cur sc.toNat n.toNat
      if (s.thr.arrivals.get? (arrivalIndex b)).isSome then trapNow s 0x0D (n.zeroExtend 64)
      else .ok ((s.arrive s.cur b).advance 4)

/-- BARW (R185). -/
def execBarw (w : Bool) (n : BitVec 4) (sc : BitVec 3) (s : State) : Host.Outcome State Fault Refusal :=
  finish s do
    let s ← waitW w s
    let s ← noRegion s
    .ok (s.awaitBarrier s.cur (s.barrierOf s.cur sc.toNat n.toNat))

/-- BAR (R185): BARA then BARW, or BARW alone while an arrival is pending. -/
def execBar (w : Bool) (n : BitVec 4) (sc : BitVec 3) (s : State) : Host.Outcome State Fault Refusal :=
  finish s do
    let s ← waitW w s
    let s ← noRegion s
    let b := s.barrierOf s.cur sc.toNat n.toNat
    if (s.thr.arrivals.get? (arrivalIndex b)).isSome then .ok (s.awaitBarrier s.cur b)
    else if s.releaseWaits sc.toNat then stall s
    else .ok ((s.arrive s.cur b).awaitBarrier s.cur b)

/-- BARRIER_RELEASE (R186): the threads that wait on a completed phase become RUNNING after the barrier; a held one resumes at
it (R235, R239). -/
def execBarrierRelease (bkey : Nat) (s : State) : Host.Outcome State Fault Refusal :=
  match (s.barrier bkey).due with
  | none => .next s
  | some c =>
    if s.clk < c then .next s
    else
      let free (e : Nat × Thread) : Nat × Thread :=
        if e.2.st == .waiting (.barrier bkey) && s.arrivalDone e.1 bkey then
          if e.2.held then (e.1, { e.2 with st := .running })
          else (e.1, { e.2 with st := .running, pc := e.2.pc + 4, arrivals := e.2.arrivals.erase (arrivalIndex bkey) })
        else e
      .next { s with threads := s.threads.map free,
                     barriers := s.barriers.set bkey { s.barrier bkey with due := none } }

/-- WFE (R183): a set latch is cleared; else the thread waits at the instruction. -/
def execWfe (w : Bool) (s : State) : Host.Outcome State Fault Refusal :=
  finish s do
    let s ← waitW w s
    let s ← noRegion s
    let t := s.thr
    if t.latch then .ok ((s.putThr { t with latch := false }).advance 4)
    else .ok (s.putThr { t with st := .waiting .wfe })

/-- Sets a thread's event latch; a thread that waits in WFE consumes it and goes on (R183), and a held one resumes at the WFE
(R235, R239). -/
def Thread.setLatch (t : Thread) : Thread :=
  if t.st == .waiting .wfe && t.held then { t with st := .running, latch := true }
  else if t.st == .waiting .wfe then { t with st := .running, latch := false, pc := t.pc + 4 } else { t with latch := true }

/-- The smallest scope that holds two slots (R183). -/
def commonScope (a b : Nat) : Nat :=
  if coreOf a = coreOf b then 0
  else if quadOfCore (coreOf a) = quadOfCore (coreOf b) then 1
  else if clusterOf a = clusterOf b then 2
  else if dieOf a = dieOf b then 3
  else 4

/-- The slot that holds a launch's thread. -/
def State.slotOfTid (s : State) (lid tid : Nat) : Option Nat :=
  (s.threads.find? (fun e => e.2.launch == some lid && e.2.tid.toNat == tid && e.2.st != .empty)).map Prod.fst

/-- Sets the event latch in the context block of a saved thread: flags bit 2 at offset 0x1C (R183, R237). Where the block's page is
not present or not writable the latch stays as it is (log entry 94). -/
def State.latchSaved (s : State) (part va : Nat) : State :=
  match walk s (s.part part).sEff false .update (va + 0x1C) with
  | .ok pa _ => s.write none pa 1 (s.read pa 1 ||| 4)
  | _ => s

/-- Whether a WAKE to a saved thread must wait for the thread's context block (R170, R364). -/
def State.latchHeld (s : State) (tid : Nat) : Bool :=
  match s.thr.launch with
  | none => false
  | some lid =>
    if (s.slotOfTid lid tid).isSome then false
    else match (s.launchOf s.thr).bind (fun l => l.saved.get? tid) with
      | none => false
      | some va => match walk s (s.part s.thr.part).sEff false .update (va + 0x1C) with
        | .ok pa attr => s.partsHeld s.cur [⟨pa, attr, 1⟩]
        | .held => true
        | _ => false

/-- The slot or the saved context that a WAKE reaches, and the scope of its release (R183). -/
def State.wakeScope (s : State) (tid : Nat) : Nat :=
  match s.thr.launch.bind (fun lid => s.slotOfTid lid tid) with
  | some k => commonScope s.cur k
  | none => if s.thr.launch.isSome then 4 else 0

/-- WAKE (R183, R408). -/
def execWake (w : Bool) (a : BitVec 5) (s : State) : Host.Outcome State Fault Refusal :=
  finish s do
    let s ← waitW w s
    let (x, s) ← readG s a.toNat
    if x.toNat ≥ s.lsize s.thr then trapNow s 0x06 x
    else if s.releaseWaits (s.wakeScope x.toNat) || s.latchHeld x.toNat then stall s
    else
      let s' := match s.thr.launch with
        | none => s.putThr s.thr.setLatch
        | some lid =>
          match s.slotOfTid lid x.toNat with
          | some k =>
            let u := s.release (coreOf s.cur) (commonScope s.cur k)
            u.setThread k (u.thread k).setLatch
          | none =>
            match (s.launchOf s.thr).bind (fun l => l.saved.get? x.toNat) with
            | some va => (s.release (coreOf s.cur) 4).latchSaved s.thr.part va
            | none => s
      .ok (s'.advance 4)

end Sys2Proof.Machine
end

