-- ==== Sys2Proof/Machine/Engines.lean ====
section
/-! DEFINITION. The engine queues (R214 to R221, R158 to R160): MST and MWAIT, COPY, FILL and COLL, QFENCE, QWAIT and QSTAT, with
the steps of the matrix-drain queue, of the copy engines and of the collective engine. -/
namespace Sys2Proof.Machine

/-! ## Queues (R214 to R216, R220) -/

/-- Whether an entry of a thread in one of a set of queues, accepted before a bound, is outstanding. -/
def State.outIn (s : State) (o : Option Nat × Nat) (set bound : Nat) : Bool :=
  s.entries.any (fun e => e.owner == o && bitAt set e.q && e.id < bound)

/-- Whether a QFENCE still orders anything (R220). -/
def State.fenceLive (s : State) (f : Fence) : Bool := s.outIn f.owner f.set f.bound

/-- Whether a QFENCE of the current thread keeps a queue from accepting its entries: earlier ones of the named queues have not
completed (R220, R255). -/
def State.fenced (s : State) (q : Nat) : Bool := s.fences.any (fun f => f.owner == s.thr.owner && bitAt f.set q && s.fenceLive f)

/-- The places taken in a queue of a core: its entries, but for MSTs whose slice has been read, and the QFENCEs in it. -/
def State.queueUsed (s : State) (core q : Nat) : Nat :=
  (s.entries.filter (fun e => e.q == q && coreOf e.slot == core && (match e.job with
    | .mst _ _ _ _ _ started => !started
    | .march m => !m.taken
    | _ => !e.finished))).length +
  (s.fences.filter (fun f => f.core == core && bitAt f.set q && s.fenceLive f)).length

/-- The places of a queue by its code (R158, R204, R216). -/
def queueRoom (q : Nat) : Nat :=
  match q with
  | 0 => 8
  | _ => 4

/-- Whether a queue of the current core accepts an entry of the current thread: it has room, and no QFENCE forbids it. -/
def State.queueTakes (s : State) (q : Nat) : Bool := s.queueUsed (coreOf s.cur) q < queueRoom q && !s.fenced q

/-- Accepts an entry of the current thread (R214, R215). -/
def State.accept (s : State) (q : Nat) (job : Job) (code : Option Nat) : State :=
  let e : Entry := { id := s.uid, owner := s.thr.owner, part := s.thr.part, slot := s.cur, q := q, job := job,
                     code := code.getD 0, finished := code.isSome }
  { s with entries := s.entries ++ [e], uid := s.uid + 1 }

/-- Records an entry's error code for its thread: the first failure stays (R221). A thread in no slot finds it in its
launch (R215). -/
def State.recordErr (s : State) (o : Option Nat × Nat) (q code : Nat) : State :=
  if code = 0 then s
  else match s.threads.find? (fun e => e.2.st != .empty && e.2.owner == o) with
    | some (k, t) => if t.err.getD q 0 = 0 then s.setThread k { t with err := t.err.set q code } else s
    | none =>
      match o.1.bind (fun lid => (s.launches.get? lid).map (fun l => (lid, l))) with
      | some (lid, l) =>
        if l.errs.getD (o.2 * 8 + q) 0 = 0 then
          { s with launches := s.launches.set lid { l with errs := l.errs.set (o.2 * 8 + q) code } }
        else s
      | none => s

/-- An entry completes (R214). -/
def State.completeEntry (s : State) (e : Entry) : State :=
  ({ s with entries := s.entries.filter (fun x => x.id != e.id) }).recordErr e.owner e.q e.code

/-- Whether a held access is one of an entry: of a copy or collective engine its identity, of a cell-march unit that and the ray. -/
def holdOf (ids : List Nat) (h : Nat × Nat) : Bool :=
  match h.1 % 64 with
  | 0 | 1 => ids.contains h.2
  | 2 => ids.contains (h.2 / 64)
  | _ => false

/-- The accesses that units hold for entries go with the entries. -/
def State.unhold (s : State) (ids : List Nat) : State :=
  { s with holds := s.holds.filter (fun h => !holdOf ids h), woken := s.woken.filter (fun h => !holdOf ids h) }

/-- An entry's effects are complete, with its error code. -/
def State.finishEntry (s : State) (id code : Nat) : State :=
  { s.unhold [id] with entries := s.entries.map (fun e => if e.id = id then { e with finished := true, code := code } else e) }

/-- Replaces the work of an entry. -/
def State.setJob (s : State) (id : Nat) (job : Job) : State :=
  { s with entries := s.entries.map (fun e => if e.id = id then { e with job := job } else e) }

/-- Whether an entry stands first among the unfinished ones of its core's queue. -/
def State.isHead (s : State) (e : Entry) : Bool :=
  match s.entries.find? (fun x => x.q == e.q && coreOf x.slot == coreOf e.slot && !x.finished) with
  | some x => x.id == e.id
  | none => false

/-! ## MST and MWAIT (R158, R159) -/

/-- The checks of one row of an MST (R158): its 64 B parts, or the first failure; `va` is a natural number (log
entry 121). -/
def mstRow (s : State) (va : Nat) : Except Why (List Span) :=
  let parts := (List.range 16).map (fun i => (va + 64 * i, s.resolve s.cur .store false (va + 64 * i) 64))
  let out := parts.filter (fun e => e.1 + 64 > 2 ^ 57 || (e.1 + 64 > winBase && (s.window s.cur e.1 64).isNone))
  let why := parts.filterMap (fun e => match e.2 with
    | .error w => some w
    | .ok _ => none)
  match out with
  | e :: _ => .error (.trap 0x06 (BitVec.ofNat 64 e.1) none)
  | [] =>
    match why.find? (fun w => match w with
      | .park _ => true
      | _ => false), why with
    | some w, _ => .error w
    | none, w :: _ => .error w
    | none, [] => .ok (parts.flatMap (fun e => match e.2 with
      | .ok sp => sp
      | .error _ => []))

/-- The checks of an MST's rows in ascending order (R158). -/
def mstRows (s : State) (base stride : Nat) : List Nat → Except Why (List Span)
  | [] => .ok []
  | r :: rs =>
    match mstRow s (base + r * stride) with
    | .error w => .error w
    | .ok sp =>
      match mstRows s base stride rs with
      | .error w => .error w
      | .ok t => .ok (sp ++ t)

/-- The pages that an MST's rows lie in, by virtual address ÷ 4096. -/
def mstPages (base stride : Nat) : List Nat :=
  ((List.range 64).flatMap (fun r => [(base + r * stride) / 4096, (base + r * stride + 1023) / 4096])).eraseDups

/-- MST (R158), accepted once the thread's earlier accesses have been performed and the core's dirty STRM bytes have gone home
(R255). -/
def execMst (w : Bool) (sl : BitVec 1) (a b : BitVec 5) (s : State) : Host.Outcome State Fault Refusal :=
  finish s do
    let s ← waitW w s
    ownerCheck s
    let s ← noRegion s
    let (x, s) ← readG s a.toNat
    let (y, s) ← readG s b.toNat
    queueEmpty s
    if !s.queueTakes 2 || s.unperformed s.cur || s.flushHeld (coreOf s.cur) then stall s
    else if x.toNat % 64 ≠ 0 then trapNow s 0x07 x
    else if y.toNat % 64 ≠ 0 then trapNow s 0x07 y
    else match mstRows s x.toNat y.toNat (List.range 64) with
      | .error e => .error ⟨s, e⟩
      | .ok sp =>
        let rows := sp.map (fun p => (p.pa, p.attr, p.n))
        let s := s.flushStrm (coreOf s.cur) (fun _ => true)
        .ok ((s.accept 2 (.mst sl.toNat (mstPages x.toNat y.toNat) rows (coreOf s.cur) [] false) none).advance 4)

/-- MWAIT (R159): the thread's turns stay idle until its MSTs have completed. It leaves err[2] (log entry 120). -/
def execMwait (w : Bool) (s : State) : Host.Outcome State Fault Refusal :=
  finish s do
    let s ← waitW w s
    ownerCheck s
    let s ← noRegion s
    if s.outCount s.thr.owner 2 ≠ 0 then stall s else .ok (s.advance 4)

/-- The first MST of a core that has or has not been started. -/
def State.mstOf (s : State) (core : Nat) (begun : Bool) : Option (Entry × Nat × List (Nat × Nat × Nat) × List (BitVec 32 × Bool)) :=
  s.entries.findSome? (fun e => match e.job with
    | .mst sl _ rows c data started => if c == core && started == begun then some (e, sl, rows, data) else none
    | _ => none)

/-- MST_DRAIN_START (R158): the queue starts its next entry and the slice is read, with its poison. -/
def execMstDrainStart (core : Nat) (s : State) : Host.Outcome State Fault Refusal :=
  match (if s.dev.tripped then none else s.mstOf core false) with
  | none => .next s
  | some (e, sl, _, _) =>
    let x := s.core core
    let data := (List.range 16384).map (fun i =>
      let key := sl * 16384 + i
      (x.acc.getD key 0, x.accPoison.contains key))
    .next (s.setJob e.id (match e.job with
      | .mst sl ps rows core _ _ => .mst sl ps rows core data true
      | j => j))

/-- The 16 words of a 64 B part as a number. -/
def wordsNat (ws : List (BitVec 32 × Bool)) : Nat := ws.foldr (fun w n => w.1.toNat + 2 ^ 32 * n) 0

/-- The poisoned words of a part, by their granules. -/
def badGranules (pa : Nat) (ws : List (BitVec 32 × Bool)) : List Nat :=
  (ws.zipIdx.filter (fun w => w.1.2)).map (fun w => granuleOf (pa + 4 * w.2))

/-- The writes of an MST, rows in ascending order, so that for an overlapped byte the higher row is the later (R158). -/
def mstWrites (s : State) : List (Nat × Nat × Nat) → List (BitVec 32 × Bool) → State
  | [], _ => s
  | (pa, attr, n) :: t, data =>
    let ws := data.take (n / 4)
    let s := if s.isReg pa attr then regWrite s false (paOff pa - 0x100000000000) n (wordsNat ws)
      else s.write none pa n (wordsNat ws)
    mstWrites (s.addPoison (badGranules pa ws)) t (data.drop (n / 4))

/-- Whether parts of storage cannot be reached yet: leased away, or homed on a die in reset (R170, R364). -/
def State.spansHeld (s : State) (sp : List Span) : Bool := s.partsHeld 65536 sp

/-- Counts each 64 B line that an engine reads or writes (R277). -/
def State.countLines (s : State) (part : Nat) (sp : List Span) : State :=
  (sp.map (fun p => (lineOf p.pa, p.attr))).eraseDups.foldl (fun s e => s.count part (e.1 * 64) e.2 .unit) s

/-- MST_COMPLETE (R158): all writes of a core's oldest started MST are performed, and its entry completes; where the route to a
package has gone down, it ends with error code 4 (R358). -/
def execMstComplete (core : Nat) (s : State) : Host.Outcome State Fault Refusal :=
  match (if s.dev.tripped then none else s.mstOf core true) with
  | none => .next s
  | some (e, _, rows, data) =>
    let sp := rows.map (fun r => (⟨r.1, r.2.1, r.2.2⟩ : Span))
    if sp.any (fun p => p.attr != 3 && !s.routeUp (paPkg p.pa)) then .next (s.completeEntry { e with code := 4 })
    else if s.spansHeld sp then .next s
    else .next ((mstWrites (s.countLines e.part sp) rows data).completeEntry e)

/-! ## COPY, FILL and COLL (R216 to R219) -/

/-- The first address past a window address that lies outside the grant part that holds it, for a slot and launch. -/
def State.grantEnd (s : State) (k va : Nat) : Nat :=
  let t := s.thread k
  if va < winCluster then winBase + (s.scratchGrant k).1 + (s.scratchGrant k).2
  else if va < winDie then
    match s.launchOf t with
    | some l => va - (va - winCluster) % 0x80000 + l.scrBase.getD (clusterOf k) 0 * 4096 + l.cm * 4096
    | none => va
  else if isSpring k then winDie + bitsOf s.dev.dsplit.toNat (8 * dieOf k) 4 * 0x2000000
  else match s.launchOf t with
    | some l => winDie + l.ds * 0x10000
    | none => va

/-- The lowest address of a range at or above 2^57, or in the windows outside the grant (R219, step 3). -/
def State.badAddr (s : State) (k a n : Nat) : Option Nat :=
  if n = 0 || a + n ≤ winBase then none
  else
    let x := max a winBase
    if x ≥ 2 ^ 57 || (s.window k x 1).isNone then some x
    else if a + n > s.grantEnd k x then some (s.grantEnd k x) else none

/-- The command of COPY, FILL and COLL (R216, R219, step 1): its 64 bytes. -/
def readCommand (s : State) (x : Word) : Res (Nat × State) :=
  let (b, z) := s.scratchGrant s.cur
  let off := x.toNat
  if off % 64 ≠ 0 || off < b || off + 64 > b + z then trapNow s 0x06 x
  else do
    let s ← consumeParts s [⟨scratchAddr (coreOf s.cur) off, 3, 64⟩]
    .ok (s.read (scratchAddr (coreOf s.cur) off) 64, s)

/-- What an engine instruction does first (R22, R173, R216): the command, once every earlier access has been performed. -/
def engineBegin (w : Bool) (a q : Nat) (s : State) : Res (Nat × State) := do
  let s ← waitW w s
  let s ← noRegion s
  let (x, s) ← readG s a
  if s.unperformed s.cur || s.thr.memQueued || s.flushHeld (coreOf s.cur) || !s.queueTakes q then stall s
  else readCommand (s.flushStrm (coreOf s.cur) (fun _ => true)) x

/-- Step 3 of R219 on the ranges of a command. -/
def rangeCheck (s : State) (rs : List (Nat × Nat)) : Res Unit :=
  match least (rs.filterMap (fun e => s.badAddr s.cur e.1 e.2)) with
  | some x => trapNow s 0x06 (BitVec.ofNat 64 x)
  | none => .ok ()

/-- COPY (R216, R217). -/
def execCopy (w : Bool) (a : BitVec 5) (s : State) : Host.Outcome State Fault Refusal :=
  finish s do
    let (x, s) ← engineBegin w a.toNat 0 s
    let len := fieldOf x 0x10 8
    descCheck s [(0x10, len ≤ 2 ^ 40), (0x18, fieldOf x 0x18 40 == 0)]
    rangeCheck s [(fieldOf x 0 8, len), (fieldOf x 8 8, len)]
    .ok ((s.accept 0 (.copy (fieldOf x 0 8) (fieldOf x 8 8) len) none).advance 4)

/-- FILL (R216, R217). -/
def execFill (w : Bool) (a : BitVec 5) (s : State) : Host.Outcome State Fault Refusal :=
  finish s do
    let (x, s) ← engineBegin w a.toNat 0 s
    let len := fieldOf x 0x10 8
    descCheck s [(0x10, len ≤ 2 ^ 40), (0x18, fieldOf x 0x18 40 == 0)]
    rangeCheck s [(fieldOf x 8 8, len)]
    .ok ((s.accept 0 (.fill (fieldOf x 0 8) (fieldOf x 8 8) len) none).advance 4)

/-- Whether a type code is one of COLL's (R218). -/
def collType (f : Nat) : Bool := (5 ≤ f && f ≤ 8) || fmtIsFloat f

/-- COLL (R216, R218). -/
def execColl (w : Bool) (a : BitVec 5) (s : State) : Host.Outcome State Fault Refusal :=
  finish s do
    let (x, s) ← engineBegin w a.toNat 1 s
    let count := fieldOf x 0x10 4
    let op := fieldOf x 0x14 1
    let ty := fieldOf x 0x15 1
    let root := fieldOf x 0x16 1
    let key := fieldOf x 0x18 8
    let members := fieldOf x 0x20 16
    let ranks := oneBits 128 members
    descCheck s [(0x10, 1 ≤ count && count ≤ 2 ^ 24), (0x14, op ≤ 4), (0x15, collType ty), (0x16, root < ranks),
      (0x17, fieldOf x 0x17 1 == 0), (0x18, key != 0), (0x20, bitAt members s.dev.pkg.toNat), (0x30, fieldOf x 0x30 16 == 0)]
    let n := count * (fmtWidth ty / 8)
    rangeCheck s [(fieldOf x 0 8, n), (fieldOf x 8 8, if op = 4 then ranks * n else n)]
    let dup := s.entries.any (fun e => !e.finished && (match e.job with
      | .coll k _ _ _ _ _ _ _ => k == key
      | _ => false))
    let cut := (List.range 128).any (fun p => bitAt members p && !s.routeUp p)
    .ok ((s.accept 1 (.coll key op ty members root count (fieldOf x 0 8) (fieldOf x 8 8))
      (if cut then some 4 else if dup then some 3 else none)).advance 4)

/-! ## What the engines do (R217 to R219) -/

/-- Why an engine's access stops (R219). -/
inductive EngineFail where
  /-- The entry ends with an error code. -/
  | code (c : Nat)
  /-- The page is not present or migrating. -/
  | park (va : Nat)
  /-- A table entry is homed on a die in reset, which holds the access (R364). -/
  | hold
  deriving DecidableEq, Repr

/-- The place of one byte that an entry's engine reaches (R217, R219). -/
def engineByte (s : State) (e : Entry) (need : Need) (va : Nat) : Except EngineFail Span :=
  if va ≥ 2 ^ 57 then .error (.code 1)
  else if va ≥ winBase then
    if e.q > 4 then .error (.code 1)
    else match s.windowAt e.slot e.owner.1 false va 1 with
      | some a => .ok ⟨a, 3, 1⟩
      | none => .error (.code 1)
  else
    let p := s.part e.part
    let spring := e.owner.1.isNone && e.q ≤ 4
    match walk s (if spring then p.sEff else p.uEff) (!spring) need va with
    | .ok pa attr => .ok ⟨pa, attr, 1⟩
    | .park => .error (.park va)
    | .held => .error .hold
    | .noRoute => .error (.code 4)
    | _ => .error (.code 1)

/-- One byte of an entry's work: where it goes, what it is, and the place it was read from. -/
structure Moved where
  dst : Span
  src : Option Span
  val : Nat
  deriving DecidableEq, Repr

/-- Whether an entry reaches the device control block: it is translated through the supervisor root of partition 0 (R353). -/
def Entry.reachesControl (e : Entry) : Bool := e.owner.1.isNone && e.q ≤ 4 && e.part == 0

/-- A source byte of an entry, with its place (R217, R219). -/
def sourceByte (s : State) (e : Entry) (va : Nat) : Except EngineFail (Span × Nat) :=
  match engineByte s e .load va with
  | .error x => .error x
  | .ok p =>
    if s.poisonedAt p.pa 1 then .error (.code 2)
    else .ok (p, s.homeRead e.reachesControl p.pa p.attr 1)

/-- Byte i of a COPY (R217, R219). -/
def copyByte (s : State) (e : Entry) (src dst i : Nat) : Except EngineFail Moved :=
  match sourceByte s e (src + i) with
  | .error x => .error x
  | .ok (p, v) =>
    match engineByte s e .store (dst + i) with
    | .error x => .error x
    | .ok d => .ok ⟨d, some p, v⟩

/-- Byte i of a FILL (R217). -/
def fillByte (s : State) (e : Entry) (pattern dst i : Nat) : Except EngineFail Moved :=
  match engineByte s e .store (dst + i) with
  | .error x => .error x
  | .ok d => .ok ⟨d, none, bitsOf pattern (8 * ((dst + i) % 8)) 8⟩

/-- The bytes up to the first that fails, and that failure. -/
def untilFail {α : Type} (f : Nat → Except EngineFail α) : List Nat → List α × Option EngineFail
  | [] => ([], none)
  | i :: t =>
    match f i with
    | .error x => ([], some x)
    | .ok y =>
      let (ys, x) := untilFail f t
      (y :: ys, x)

/-- Writes an engine's bytes; what they cover whole, all together, loses its poison (R281). -/
def State.writeMoved (s : State) (ctl : Bool) (ms : List Moved) : State :=
  let s := ms.foldl (fun s m =>
    if s.isReg m.dst.pa m.dst.attr then regWrite s ctl (paOff m.dst.pa - 0x100000000000) 1 m.val
    else s.write none m.dst.pa 1 m.val) s
  if s.poison.isEmpty then s else s.clearCovered (ms.map (fun m => m.dst.pa))

/-- The slot field of an agent's record (R228). -/
def State.agentForm (s : State) (kind c : Nat) : BitVec 32 :=
  BitVec.ofNat 32 (2 ^ 31 + s.dev.pkg.toNat * 2 ^ 15 + dieOfCluster c * 2 ^ 13 + c % 16 * 2 ^ 9 + kind)

/-- The name of a unit: its kind and its cluster. -/
def unitKey (kind c : Nat) : Nat := kind + 64 * c

/-- A unit writes a page request for an access that it holds (R219, R275): its record goes to a cluster's supervisor. -/
def State.agentRequest (s : State) (kind unit dest va tag : Nat) : State :=
  let r : Rec := { pc := 0, resume := 0, tval := BitVec.ofNat 64 va, cause := 0x41, flags := 0, slot := s.agentForm (min kind 3) unit,
                   vstart := 0, vl := 0, mstart := 0, serial := 0, tid := 0, launch := 0, time := BitVec.ofNat 64 s.clk }
  ({ s with holds := s.holds ++ [(unitKey kind unit, tag)] }).postRec dest none r

/-- Whether a unit holds an access on a page request, has it to retry after others (R233), or is powered down after a thermal trip
(R371). -/
def State.isHeld (s : State) (kind unit tag : Nat) : Bool :=
  let u := unitKey kind unit
  s.dev.tripped || s.holds.contains (u, tag) ||
    (s.woken.contains (u, tag) && (s.woken.find? (fun h => h.1 == u)).any (fun h => h.2 != tag))

/-- Whether a unit holds any access on a page request, or is powered down after a thermal trip (R371). -/
def State.unitHeld (s : State) (kind unit : Nat) : Bool := s.dev.tripped || s.holds.any (fun h => h.1 == unitKey kind unit)

/-- A unit holds no access any more. -/
def State.clearUnit (s : State) (kind unit : Nat) : State :=
  { s with holds := s.holds.filter (fun h => h.1 != unitKey kind unit), woken := s.woken.filter (fun h => h.1 != unitKey kind unit) }

/-- An access that a WAKEP has reached retries (R233). -/
def State.retry (s : State) (kind unit tag : Nat) : State := { s with woken := s.woken.erase (unitKey kind unit, tag) }

/-- An entry's bytes carried out by an engine (R217, R219): a page that is not present holds the engine before anything is
written; else the bytes before the first failure are written, and the entry is finished with its error code. -/
def engineRun (s : State) (e : Entry) (kind unit dest : Nat) (f : Nat → Except EngineFail Moved) (n : Nat) : State :=
  let (ms, x) := untilFail f (List.range n)
  let sp := ms.flatMap (fun m => m.dst :: m.src.toList)
  match x with
  | some (.park va) => (s.retry kind unit e.id).agentRequest kind unit dest va e.id
  | some .hold => s
  | _ =>
    let s := s.retry kind unit e.id
    if s.spansHeld sp then s
    else
      ((s.countLines e.part sp).writeMoved e.reachesControl ms).finishEntry e.id (match x with
        | some (.code c) => c
        | _ => 0)

/-- The COPY or FILL that a cluster's copy engine takes next: the oldest that heads its queue. An access held on a page request
holds the engine, with every queue it serves (R219). A COPY packet of a host queue has a channel apart from the cores' queues
(R332), queue code 5. -/
def State.copyHead (s : State) (c : Nat) : Option Entry :=
  if s.unitHeld 0 c then none
  else s.entries.find? (fun e => (e.q == 0 || e.q == 5) && clusterOf e.slot == c && !e.finished && (e.q == 5 || s.isHead e))

/-- COPY_ENGINE_ENTRY (R217, R219): a cluster's copy engine performs an entry. -/
def execCopyEngineEntry (unit : Nat) (s : State) : Host.Outcome State Fault Refusal :=
  match s.copyHead unit with
  | none => .next s
  | some e =>
    match e.job with
    | .copy src dst len => .next (engineRun s e 0 unit unit (copyByte s e src dst) len)
    | .fill v dst len => .next (engineRun s e 0 unit unit (fillByte s e v dst) len)
    | _ => .next s

/-- The rank of a member (R218). -/
def rankOf (members p : Nat) : Nat := ((List.range p).filter (bitAt members)).length

/-- The reduction of an operation of COLL on a type, as the vector reductions' code (R130, R218). -/
def collCombine (op ty x y : Nat) : Nat :=
  let w := fmtWidth ty
  if fmtIsFloat ty then (reduceFlt (fmtFp ty) .rne (0x18 + op) x y).1
  else reduceInt (match op with
    | 0 => 0x10
    | 1 => if fmtIsSigned ty then 0x11 else 0x13
    | _ => if fmtIsSigned ty then 0x12 else 0x14) w x y

/-- Element j of a member's bytes. -/
def elementOf (data : List Byte) (n j : Nat) : Nat := (((data.drop (j * n)).take n).foldr (fun b x => b.toNat + 256 * x) 0)

/-- The bytes of a number of `n` bytes. -/
def bytesOf (n v : Nat) : List Nat := (List.range n).map (fun i => bitsOf v (8 * i) 8)

/-- What a matched COLL delivers to every member, from the members' bytes by rank (R218). -/
def collResult (op ty root count : Nat) (data : List (List Byte)) : List Nat :=
  let n := fmtWidth ty / 8
  match op with
  | 3 => (data.getD root []).map BitVec.toNat
  | 4 => data.flatten.map BitVec.toNat
  | _ => (List.range count).flatMap (fun j =>
      bytesOf n ((treeRoot (collCombine op ty) 7 (data.map (fun d => some (elementOf d n j)))).getD 0))

/-- Whether what another package has sent belongs to the same operation (R218). -/
def RemoteColl.agrees (r : RemoteColl) (op ty members root count : Nat) : Bool :=
  r.op == op && r.ty == ty && r.members == members && r.root == root && r.count == count

/-- The end of a collective entry: what the other packages have sent for its key is used up. -/
def State.dropRemote (s : State) (key : Nat) : State := { s with remote := s.remote.filter (fun r => r.key != key) }

/-- The bytes of its src that a package's engine reads for a matched collective (R218): of a BCAST only the root's is read. -/
def State.collReads (s : State) (op members root n : Nat) : Nat := if op = 3 && rankOf members s.dev.pkg.toNat ≠ root then 0 else n

/-- The work of a matched collective entry (R218, R219): its own source is read, and the result is written to its dst. -/
def collRun (s : State) (e : Entry) (key op ty members root count src dst : Nat) : State :=
  let n := count * (fmtWidth ty / 8)
  let (own, fail) := untilFail (fun i => sourceByte s e (src + i)) (List.range (s.collReads op members root n))
  match fail with
  | some (.park va) => (s.retry 1 0 e.id).agentRequest 1 0 (clusterOf e.slot) va e.id
  | some .hold => s
  | some (.code c) => (s.dropRemote key).finishEntry e.id c
  | none =>
    if s.spansHeld (own.map Prod.fst) then s
    else
      let mine := own.map (fun b => BitVec.ofNat 8 b.2)
      let data := ((List.range 128).filter (bitAt members)).map (fun p =>
        if p = s.dev.pkg.toNat then mine else ((s.remote.find? (fun r => r.key == key && r.pkg == p)).map (fun r => r.data)).getD [])
      let out := collResult op ty root count data
      let s := s.countLines e.part (own.map Prod.fst)
      let s' := engineRun s e 1 0 (clusterOf e.slot) (fun i =>
        match engineByte s e .store (dst + i) with
        | .error x => .error x
        | .ok d => .ok ⟨d, none, out.getD i 0⟩) out.length
      if s'.entries.any (fun x => x.id == e.id && x.finished) then s'.dropRemote key else s'

/-- COLL_MATCH (R218): the entries of a key are matched when every member's has arrived, those of other packages as inputs of the
machine. Entries that disagree end with error code 3, and one whose route to a member is down with code 4 (R358). -/
def execCollMatch (key : BitVec 64) (s : State) : Host.Outcome State Fault Refusal :=
  match s.entries.find? (fun e => !e.finished && s.isHead e && (match e.job with
    | .coll k _ _ _ _ _ _ _ => k == key.toNat
    | _ => false)) with
  | none => .next s
  | some e =>
    match e.job with
    | .coll k op ty members root count src dst =>
      let others := (List.range 128).filter (fun p => bitAt members p && p != s.dev.pkg.toNat)
      let sent := s.remote.filter (fun r => r.key == k && others.contains r.pkg)
      if others.any (fun p => !s.routeUp p) then .next ((s.dropRemote k).finishEntry e.id 4)
      else if s.unitHeld 1 0 || !others.all (fun p => sent.any (fun r => r.pkg == p)) then .next s
      else if sent.any (fun r => !r.agrees op ty members root count) then .next ((s.dropRemote k).finishEntry e.id 3)
      else .next (collRun s e k op ty members root count src dst)
    | _ => .next s

/-! ## QFENCE, QWAIT and QSTAT (R220, R221) -/

/-- QFENCE (R220). -/
def execQfence (w : Bool) (set : BitVec 5) (s : State) : Host.Outcome State Fault Refusal :=
  finish s do
    let s ← waitW w s
    let s ← noRegion s
    let named := (List.range 4).filter (bitAt set.toNat)
    if named.any (fun q => s.queueUsed (coreOf s.cur) q ≥ queueRoom q) then stall s
    else
      let f : Fence := { owner := s.thr.owner, core := coreOf s.cur, set := set.toNat, bound := s.uid }
      let s := { s with fences := s.fences.filter s.fenceLive ++ [f], uid := s.uid + 1 }
      .ok (s.advance 4)

/-- QWAIT (R221). -/
def execQwait (w : Bool) (d : BitVec 5) (q : BitVec 3) (s : State) : Host.Outcome State Fault Refusal :=
  finish s do
    let s ← waitW w s
    let s ← noRegion s
    let t := s.thr
    let s := s.putThr { t with pend := t.pend.map (Pend.drop d.toNat) ++ [.qwait d.toNat q.toNat s.uid] }
    .ok (s.advance 4)

/-- QSTAT (R221). -/
def execQstat (w : Bool) (d : BitVec 5) (q : BitVec 3) (s : State) : Host.Outcome State Fault Refusal :=
  finish s do
    let s ← waitW w s
    let s ← noRegion s
    let v := s.outCount s.thr.owner q.toNat + s.thr.err.getD q.toNat 0 * 2 ^ 32
    .ok ((s.addPend [(d.toNat, BitVec.ofNat 64 v)]).advance 4)

end Sys2Proof.Machine
end

