-- ==== Sys2Proof/Machine/March.lean ====
section
/-! DEFINITION. The cell-march unit (ch. 12) and MARCH (R203 to R209): the issue with its checks, the reads of mesh records, the
arithmetic of one step, and the unit's own steps. -/
namespace Sys2Proof.Machine

/-! ## Arithmetic (R409, R293 to R297) -/

/-- The value of an FP32 pattern. -/
def fp (b : Nat) : Val := decodeFp Fp.fp32 b
/-- Rnd of R409 as a pattern: an exact zero gives +0. -/
def rnd (v : Val) : Nat := if v.isZero then 0 else (roundTo Fp.fp32 .rne v).1
/-- Rnd of R409 as a value. -/
def rndV (v : Val) : Val := fp (rnd v)
/-- The canonical NaN of FP32. -/
def nan32 : Nat := 0x7FC00000

/-- A point or vector. -/
structure V3 where
  x : Val
  y : Val
  z : Val
  deriving DecidableEq, Repr

/-- a − b, each component exact. -/
def V3.sub (a b : V3) : V3 := ⟨a.x.sub b.x, a.y.sub b.y, a.z.sub b.z⟩
/-- The exact dot product. -/
def V3.dot (a b : V3) : Val := Val.plus (Val.plus (a.x.times b.x) (a.y.times b.y)) (a.z.times b.z)
/-- The exact cross product. -/
def V3.cross (a b : V3) : V3 :=
  ⟨(a.y.times b.z).sub (a.z.times b.y), (a.z.times b.x).sub (a.x.times b.z), (a.x.times b.y).sub (a.y.times b.x)⟩
/-- Rnd of each component. -/
def V3.rnd (a : V3) : V3 := ⟨rndV a.x, rndV a.y, rndV a.z⟩
/-- −a. -/
def V3.neg (a : V3) : V3 := ⟨a.x.negate, a.y.negate, a.z.negate⟩
/-- Whether a component is NaN or infinite. -/
def V3.bad (a : V3) : Bool := a.x.bad || a.y.bad || a.z.bad
/-- Whether every component is a zero. -/
def V3.isZero (a : V3) : Bool := a.x.isZero && a.y.isZero && a.z.isZero

/-- A cell as a step reads it: a tetrahedron's vertices with their field values, or a polyhedron's centroid, value, gradient
and planes; and the neighbours across its faces. -/
inductive Cell where
  | tet (xs : List (V3 × Val)) (nb : List Nat)
  | poly (v0 : Val) (c g : V3) (planes : List (V3 × Val)) (nb : List Nat)
  deriving DecidableEq, Repr

/-- The neighbour across a face. -/
def Cell.nb : Cell → Nat → Nat
  | .tet _ nb, f => nb.getD f 0
  | .poly _ _ _ _ nb, f => nb.getD f 0

/-- The vertices of face i in R289's order, and the opposite vertex. -/
def faceOf (xs : List (V3 × Val)) (i : Nat) : V3 × V3 × V3 × V3 :=
  let p (j : Nat) : V3 := (xs.getD j (⟨.nan, .nan, .nan⟩, .nan)).1
  match i with
  | 0 => (p 1, p 2, p 3, p 0)
  | 1 => (p 0, p 2, p 3, p 1)
  | 2 => (p 0, p 1, p 3, p 2)
  | _ => (p 0, p 1, p 2, p 3)

/-- num and den of a tetrahedron's face for a ray, or none where s = 0 (R293). -/
def tetFace (o d : V3) (xs : List (V3 × Val)) (i : Nat) : Option (Val × Val) :=
  let (a, b, c, p) := faceOf xs i
  let n := ((b.sub a).rnd.cross (c.sub a).rnd).rnd
  let s := rndV (n.dot (p.sub a))
  if s.isZero then none
  else
    let n := if Val.lt (.zero false) s then n.neg else n
    some (rndV (n.dot (a.sub o)), rndV (n.dot d))

/-- num and den of a polyhedron's face (R294), or none where its normal is zero or a component is not finite. -/
def polyFace (o d : V3) (pl : V3 × Val) : Option (Val × Val) :=
  let (n, w) := pl
  if n.bad || w.bad || n.isZero then none else some (rndV (w.sub (n.dot o)), rndV (n.dot d))

/-- num and den of every face, or none where the cell is DEGENERATE (R293, R294). -/
def Cell.faces (o d : V3) : Cell → Option (List (Val × Val))
  | .tet xs _ => if xs.any (fun x => x.1.bad) then none else (List.range 4).mapM (tetFace o d xs)
  | .poly _ _ _ planes _ => planes.mapM (polyFace o d)

/-- The candidate faces with their tf (R295). -/
def candidates (fs : List (Val × Val)) : List (Nat × Val) :=
  fs.zipIdx.filterMap (fun e =>
    if Val.lt (.zero false) e.1.2 then some (e.2, rndV (e.1.1.over e.1.2)) else none)

/-- The candidate of the least tf, the lowest face of a tie. -/
def leastFace : List (Nat × Val) → Option (Nat × Val)
  | [] => none
  | e :: t =>
    match leastFace t with
    | some x => if Val.lt x.2 e.2 then some x else some e
    | none => some e

/-- The exit face and exit t of a cell (R295), or none where it is DEGENERATE. -/
def Cell.exit (o d : V3) (t : Nat) (c : Cell) : Option (Nat × Nat) :=
  match c.faces o d with
  | none => none
  | some fs =>
    let cs := candidates fs
    if cs.any (fun e => e.2 == .nan) then none
    else (leastFace cs).map (fun e => (e.1, if Val.lt (fp t) e.2 then rnd e.2 else t))

/-- The exact volume of four points, six times over. -/
def volume (a b c d : V3) : Val := (b.sub a).dot ((c.sub a).cross (d.sub a))

/-- A weight times a value; a weight of zero contributes nothing (R296). -/
def weighted (w v : Val) : Val := if w.isZero then .zero false else w.times v

/-- The field value at t in a cell (R296). -/
def Cell.value (o d : V3) (t : Nat) (c : Cell) : Nat :=
  let at_ (a b : Val) : Val := rndV (a.plus ((fp t).times b))
  let p : V3 := ⟨at_ o.x d.x, at_ o.y d.y, at_ o.z d.z⟩
  if p.bad then nan32
  else match c with
    | .tet xs _ =>
      let q (j : Nat) : V3 := (xs.getD j (⟨.nan, .nan, .nan⟩, .nan)).1
      let f (j : Nat) : Val := (xs.getD j (⟨.nan, .nan, .nan⟩, .nan)).2
      let v := volume (q 0) (q 1) (q 2) (q 3)
      if v.isZero then nan32
      else
        let l (w : Val) : Val := w.over v
        rnd ((((weighted (l (volume p (q 1) (q 2) (q 3))) (f 0)).plus
          (weighted (l (volume (q 0) p (q 2) (q 3))) (f 1))).plus
          (weighted (l (volume (q 0) (q 1) p (q 3))) (f 2))).plus
          (weighted (l (volume (q 0) (q 1) (q 2) p)) (f 3)))
    | .poly v0 cc g _ _ =>
      let e := p.sub cc
      rnd (((v0.plus (weighted e.x g.x)).plus (weighted e.y g.y)).plus (weighted e.z g.z))

/-! ## Mesh reads (R288 to R292) -/

/-- Why a mesh read ends or holds a ray, or ends its entry (R291, R358, R364). -/
inductive MeshFail where
  /-- The ray ends BADREF with a detail; the physical address of a poisoned word, where there is one. -/
  | bad (detail : Nat) (poison : Option Nat)
  /-- The page is not present or migrating. -/
  | park (va : Nat)
  /-- The line is leased, or its home is in reset: the read waits. -/
  | hold
  /-- The route to the record's package is down: the entry ends with error code 4. -/
  | cut
  deriving DecidableEq, Repr

/-- A record of `n` bytes at a virtual address, read as one event through the partition's root (R291); `used` gives the bytes of
it that the unit uses, as offset and length, one of which an error ends the ray. -/
def meshRead (s : State) (e : Entry) (va n : Nat) (used : Nat → List (Nat × Nat)) : Except MeshFail Nat :=
  if va + n > winBase then .error (.bad 4 none)
  else
    let p := s.part e.part
    let spring := e.owner.1.isNone
    match walk s (if spring then p.sEff else p.uEff) (!spring) .load va with
    | .ok pa attr =>
      if s.spansHeld [⟨pa, attr, n⟩] then .error .hold
      else
        let r := s.homeRead e.reachesControl pa attr n
        match (used r).findSome? (fun u => s.homeBad (pa + u.1) u.2) with
        | some a => .error (.bad 5 (some a))
        | none => .ok r
    | .park => .error (.park va)
    | .held => .error .hold
    | .noRoute => .error .cut
    | _ => .error (.bad 4 none)

/-- The bytes of a polyhedron record that the unit uses (R290): those before the neighbours, and the neighbours and planes of the
faces that the record has. -/
def polyUsed (r : Nat) : List (Nat × Nat) :=
  let n := fieldOf r 0 4
  (0, 0x20) :: (if 4 ≤ n && n ≤ 8 then [(0x20, 4 * n), (0x40, 16 * n)] else [])

/-- A vector of three FP32 patterns of a record at an offset. -/
def v3At (rec off : Nat) : V3 := ⟨fp (fieldOf rec off 4), fp (fieldOf rec (off + 4) 4), fp (fieldOf rec (off + 8) 4)⟩

/-- The vertices of a tetrahedron, in order. -/
def readVerts (s : State) (e : Entry) (m : March) : List Nat → Except MeshFail (List (V3 × Val))
  | [] => .ok []
  | j :: t =>
    match meshRead s e (m.verts + 16 * j) 16 (fun _ => [(0, 16)]) with
    | .error x => .error x
    | .ok r =>
      match readVerts s e m t with
      | .error x => .error x
      | .ok vs => .ok ((v3At r 0, fp (fieldOf r 12 4)) :: vs)

/-- A cell as the unit reads it (R291, R292). -/
def readCell (s : State) (e : Entry) (m : March) (c : Nat) : Except MeshFail Cell :=
  if m.poly then
    match meshRead s e (m.cells + 256 * c) 256 polyUsed with
    | .error x => .error x
    | .ok r =>
      let n := fieldOf r 0 4
      if n < 4 || n > 8 then .error (.bad 2 none)
      else .ok (.poly (fp (fieldOf r 4 4)) (v3At r 8) (v3At r 0x14)
        ((List.range n).map (fun f => (v3At r (0x40 + 16 * f), fp (fieldOf r (0x4C + 16 * f) 4))))
        ((List.range n).map (fun f => fieldOf r (0x20 + 4 * f) 4)))
  else
    match meshRead s e (m.cells + 32 * c) 32 (fun _ => [(0, 32)]) with
    | .error x => .error x
    | .ok r =>
      let vi := (List.range 4).map (fun k => fieldOf r (4 * k) 4)
      if vi.any (fun v => v ≥ m.vcount) then .error (.bad 2 none)
      else
        match readVerts s e m vi with
        | .error x => .error x
        | .ok vs => .ok (.tet vs ((List.range 4).map (fun k => fieldOf r (0x10 + 4 * k) 4)))

/-! ## One step of a ray (R206, R207) -/

/-- The origin of a ray. -/
def Ray.o (r : Ray) : V3 := ⟨fp r.ox, fp r.oy, fp r.oz⟩
/-- The direction of a ray. -/
def Ray.d (r : Ray) : V3 := ⟨fp r.dx, fp r.dy, fp r.dz⟩

/-- The summary's value of a ray that has ended (R207). -/
def Ray.value (r : Ray) (mode status : Nat) : Nat :=
  if r.steps = 0 && status ≥ 3 then nan32 else if mode = 1 then r.acc else r.last

/-- A ray ends with a status and a detail at its t (R207). -/
def Ray.stop (r : Ray) (mode status detail : Nat) : Ray :=
  { r with out := some (status, detail, r.t, r.value mode status) }

/-- What one step computes in a cell that has been read (R206). -/
def Ray.cross (r : Ray) (m : March) (c : Cell) : Ray :=
  match c.exit r.o r.d r.t with
  | none => r.stop m.mode 4 2
  | some (f, tout) =>
    let tmax := fp r.tmax
    let past := Val.le tmax (fp tout)
    let tend := if past then r.tmax else tout
    let v0 := c.value r.o r.d r.t
    let v1 := c.value r.o r.d tend
    let area := (((fp tend).sub (fp r.t)).times ((fp v0).plus (fp v1))).over (.fin false 2 1)
    let acc := if m.mode = 1 then rnd ((fp r.acc).plus area) else r.acc
    let recs := if m.mode = 0 then r.recs ++ [(r.cell, r.t, tend, v0, v1)] else r.recs
    let r : Ray := { r with steps := r.steps + 1, acc := acc, recs := recs, face := f, last := v1, t := tend }
    let n := c.nb f
    if past then r.stop m.mode 0 0
    else if n = 0xFFFFFFFF then r.stop m.mode 1 0
    else if n ≥ m.ccount then r.stop m.mode 3 1
    else { r with cell := n }

/-- A ray's value at its origin in the start cell (R207), where tmax ≤ 0. -/
def Ray.still (r : Ray) (m : March) (c : Cell) : Ray :=
  let v := match m.mode with
    | 0 => nan32
    | 1 => 0
    | _ => c.value r.o r.d 0
  { r with out := some (0, 0, 0, v) }

/-- What a ray does next: it ends or has taken a step, with the poisoned word it met and whether it read a cell record; it holds
on a page; it waits; or it ends its entry. -/
inductive RayNext where
  | ray (r : Ray) (poison : Option Nat) (counted : Bool)
  | park (va : Nat)
  | hold
  | cut
  deriving DecidableEq, Repr

/-- One step of a ray (R206). Where tmax ≤ 0 the vertex records are read as for any cell, RECORD and ACCUMULATE (log entry 122). -/
def rayStep (s : State) (e : Entry) (m : March) (r : Ray) : RayNext :=
  if r.o.bad || r.d.bad || (fp r.tmax).bad || r.d.isZero then .ray (r.stop m.mode 4 1) none false
  else if r.cell ≥ m.ccount then .ray (r.stop m.mode 3 3) none false
  else
    let still := Val.le (fp r.tmax) (.zero false)
    if !still && r.steps = m.limit then .ray (r.stop m.mode 2 0) none false
    else match readCell s e m r.cell with
      | .error (.park va) => .park va
      | .error .hold => .hold
      | .error .cut => .cut
      | .error (.bad detail p) => .ray (r.stop m.mode 3 detail) p true
      | .ok c => .ray (if still then r.still m c else r.cross m c) none true

/-! ## The issue (R203 to R205, R287) -/

/-- The checks of a span of 64 B parts as R97 makes them (R204, step 5): the parts by storage. -/
def spanParts (s : State) (need : Need) (va : Nat) : List Nat → Except Why (List (Nat × Nat))
  | [] => .ok []
  | i :: t =>
    match s.resolve s.cur need false (va + 64 * i) 64 with
    | .error e => .error e
    | .ok sp =>
      match spanParts s need va t with
      | .error e => .error e
      | .ok r => .ok (sp.map (fun p => (p.pa, p.attr)) ++ r)

/-- The fields of a mesh descriptor that R287 checks, in order of their offsets. -/
def meshChecks (x : Nat) : List (Nat × Bool) :=
  let kind := fieldOf x 0x18 1
  let poly := kind == 1
  let verts := fieldOf x 8 8
  let ccount := fieldOf x 0x10 4
  let vcount := fieldOf x 0x14 4
  [(0x00, fieldOf x 0 8 % (if poly then 256 else 64) == 0), (0x08, if poly then verts == 0 else verts % 16 == 0),
   (0x10, 1 ≤ ccount && ccount ≤ 0xFFFFFFFE), (0x14, if poly then vcount == 0 else 4 ≤ vcount), (0x18, kind ≤ 1)] ++
    (List.range 39).map (fun i => (0x19 + i, fieldOf x (0x19 + i) 1 == 0))

/-- Ray i of a ray group (R203). -/
def rayOf (t : Thread) (b i : Nat) : Ray :=
  let c (k : Nat) : Nat := t.elem b (32 * k + i) 32
  { idx := i, ox := c 0, oy := c 1, oz := c 2, dx := c 3, dy := c 4, dz := c 5, tmax := c 6, cell := c 7, t := 0, steps := 0,
    acc := 0, face := 0xFFFFFFFF, last := 0, recs := [], out := none }

/-- The rays a MARCH submits, with the machine check of a poisoned component or mask word and the log of poison that it does not
consume (R203, R281, R282): `t` the thread as the reads of the rays see it, `tm` as those of the mask do. -/
def submitted (s : State) (t tm : Thread) (b m vl : Nat) : Res (List Ray × State) :=
  if tm.maskPoisoned m 256 vl 0 then trapNow s 0x0F (BitVec.ofNat 64 (3 * 2 ^ 56 + 96 + m))
  else
    let idx := (List.range vl).filter (tm.selects m 32 256)
    let reads := idx.flatMap (fun i => (List.range 8).map (fun k => (⟨b, 32 * k + i, 32⟩ : ERead)))
    match reads.find? (fun e => t.elemPoisoned e.r e.i e.w) with
    | some e => trapNow s 0x0F (vecTval e)
    | none => .ok (idx.map (rayOf t b), s.logDeferredOf t reads)

/-- The result buffer of step 5 of R204: its parts and the capacity read from its header. -/
def marchBuffer (s : State) (mode d : Nat) : Except Why (List (Nat × Nat) × Nat × Nat) :=
  match spanParts s .store d (List.range 17) with
  | .error e => .error e
  | .ok first =>
    let p := first.headD (0, 0)
    let hdr := s.loadPart s.cur p.1 p.2 64
    let cap := fieldOf hdr 0 4
    if mode = 0 && cap ≤ 2 ^ 20 then
      match spanParts s .store (d + 0x440) (List.range (10 * cap)) with
      | .error e => .error e
      | .ok rest => .ok (first ++ rest, hdr, cap)
    else .ok (first, hdr, cap)

/-- The issue of MARCH (R204): `mode` 0 RECORD, 1 ACCUMULATE, 2 LOCATE. -/
def issueMarch (mode : Nat) (w : Bool) (d a b m : Nat) (s : State) : Res State := do
  let s ← waitW w s
  let (vl, s) := capture s codeVl (s.thr.vl.zeroExtend 64)
  let vl := vl.toNat
  boundCheck s [] [(b, 8)]
  tagCheck s 0 [(b, fun f n => f == 0x0B && n == 8)]
  tagUnless s 0x1000 (vl ≤ 32)
  let s ← noRegion s
  let (desc, s) ← readG s a
  let (buf, s) ← readG s d
  captured s [codeVl]
  if s.unperformed s.cur || !s.thr.vq.isEmpty || s.flushHeld (coreOf s.cur) || !s.queueTakes 3 then stall s
  else if desc.toNat % 64 ≠ 0 then trapNow s 0x07 desc
  else if buf.toNat % 64 ≠ 0 then trapNow s 0x07 buf
  else match s.resolve s.cur .load false desc.toNat 64, marchBuffer s mode buf.toNat with
    | .error e, _ => .error ⟨s, e⟩
    | _, .error e => .error ⟨s, e⟩
    | .ok sp, .ok (parts, hdr, cap) => do
      let head : Span := ⟨(parts.headD (0, 0)).1, (parts.headD (0, 0)).2, 64⟩
      if s.portHeld s.cur || s.partsHeld s.cur (head :: sp) then stall s
      let s ← consumeParts s sp
      let s ← consumeParts s [head]
      let x := s.loadParts s.cur sp
      descCheck s (meshChecks x)
      descCheck s ((0x1000, cap ≤ 2 ^ 20) :: (List.range 60).map (fun i => (0x1004 + i, fieldOf hdr (4 + i) 1 == 0)))
      let (t, s) ← readVecPending s ((List.range 8).map (32 + b + ·))
      let (tm, s) ← readVecPending s (if m = 0 then [] else [96 + m])
      let (rays, s) ← submitted s t tm b m vl
      let s := s.flushStrm (coreOf s.cur) (fun _ => true)
      let pages := (desc.toNat / 4096 :: (List.range parts.length).map (fun i => (buf.toNat + 64 * i) / 4096)).eraseDups
      let job : March :=
        { mode := mode, limit := s.thr.marchLimit.toNat, cells := fieldOf x 0 8, verts := fieldOf x 8 8,
          ccount := fieldOf x 0x10 4, vcount := fieldOf x 0x14 4, poly := fieldOf x 0x18 1 = 1, cap := cap,
          pages := pages, buf := parts, taken := false, rays := rays }
      let s := s.accept 3 (.march job) none
      .ok ((s.putThr s.thr.clearVstart).advance 8)

/-- MARCH_RECORD (R203). -/
def execMarchRecord (w : Bool) (d a b : BitVec 5) (m : BitVec 3) (s : State) : Host.Outcome State Fault Refusal :=
  finish s (issueMarch 0 w d.toNat a.toNat b.toNat m.toNat s)

/-- MARCH_ACC (R203). -/
def execMarchAcc (w : Bool) (d a b : BitVec 5) (m : BitVec 3) (s : State) : Host.Outcome State Fault Refusal :=
  finish s (issueMarch 1 w d.toNat a.toNat b.toNat m.toNat s)

/-- MARCH_LOCATE (R203). -/
def execMarchLocate (w : Bool) (d a b : BitVec 5) (m : BitVec 3) (s : State) : Host.Outcome State Fault Refusal :=
  finish s (issueMarch 2 w d.toNat a.toNat b.toNat m.toNat s)

/-! ## The unit (R286, R208) -/

/-- A MARCH entry's work. -/
def Entry.march (e : Entry) : Option March :=
  match e.job with
  | .march m => some m
  | _ => none

/-- The next core of a cluster, in rotation after the one served last, whose cell-march queue holds an entry (R286) that no
QFENCE holds (R220). -/
def State.marchCore (s : State) (c : Nat) : Option Nat :=
  let last := s.marchLast.getD c (c * 32 + 31)
  ((List.range 32).map (fun i => c * 32 + (last % 32 + 1 + i) % 32)).find? (fun core =>
    (s.entries.find? (fun e => coreOf e.slot == core && (match e.march with
      | some m => !m.taken
      | none => false))).isSome)

/-- MARCH_ENTRY_TAKE (R286): a cluster's unit with room takes the oldest entry of the next core's queue. -/
def execMarchEntryTake (cluster : Nat) (s : State) : Host.Outcome State Fault Refusal :=
  let held := s.entries.filter (fun e => clusterOf e.slot == cluster && (match e.march with
    | some m => m.taken
    | none => false))
  match s.marchCore cluster with
  | none => .next s
  | some core =>
    if held.length ≥ 16 || s.dev.tripped then .next s
    else match s.entries.findSome? (fun e => match e.march with
      | some m => if coreOf e.slot == core && !m.taken then some (e.id, m) else none
      | none => none) with
    | none => .next s
    | some (id, m) =>
      .next { s.setJob id (.march { m with taken := true }) with marchLast := s.marchLast.set cluster core }

/-- The unfinished cell-march entry of an identity that a cluster's unit holds. -/
def State.marchEntry (s : State) (cluster id : Nat) : Option (Entry × March) :=
  s.entries.findSome? (fun e => match e.march with
    | some m => if e.id == id && clusterOf e.slot == cluster && m.taken && !e.finished then some (e, m) else none
    | none => none)

/-- Counts the read of a cell record, where its page let it be read (R277). -/
def State.countCell (s : State) (e : Entry) (m : March) (c : Nat) : State :=
  let p := s.part e.part
  let spring := e.owner.1.isNone
  let n := if m.poly then 256 else 32
  match walk s (if spring then p.sEff else p.uEff) (!spring) .load (m.cells + n * c) with
  | .ok pa attr => if m.cells + n * c + n ≤ winBase then s.count e.part pa attr .indexed else s
  | _ => s

/-- MARCH_STEP (R206): a ray of an entry in the unit takes a step, ends, or holds on a page request (R291); where the record is away
it alone waits. A route that is
down ends the entry with nothing written (R358, log entry 100). -/
def execMarchStep (cluster id ray : Nat) (s : State) : Host.Outcome State Fault Refusal :=
  match s.marchEntry cluster id with
  | none => .next s
  | some (e, m) =>
    match m.rays.find? (fun r => r.idx == ray && r.out.isNone) with
    | none => .next s
    | some r =>
      let tag := id * 64 + ray
      if s.isHeld 2 cluster tag then .next s
      else
        match rayStep s e m r with
        | .park va => .next ((s.retry 2 cluster tag).agentRequest 2 cluster cluster va tag)
        | .hold => .next (s.retry 2 cluster tag)
        | .cut => .next ((s.retry 2 cluster tag).finishEntry id 4)
        | .ray r' p counted =>
          let s := s.retry 2 cluster tag
          let s := match p with
            | some pa => s.logError (dieOfCluster cluster) ⟨6, pa, s.clk, 0⟩
            | none => s
          let s := s.setJob id (.march { m with rays := m.rays.map (fun x => if x.idx = ray then r' else x) })
          .next (if counted then s.countCell e m r.cell else s)

/-- Writes a 32-bit word of a MARCH's result buffer. -/
def putWord (m : March) (s : State) (off v : Nat) : State :=
  let p := m.buf.getD (off / 64) (0, 0)
  let a := p.1 + off % 64
  if s.isReg p.1 p.2 then regWrite s false (paOff a - 0x100000000000) 4 v else s.write none a 4 v

/-- Writes a list of words one after the other. -/
def putWords (m : March) (s : State) (off : Nat) (vs : List Nat) : State :=
  vs.zipIdx.foldl (fun s e => putWord m s (off + 4 * e.2) e.1) s

/-- Writes an ended ray's summary and the records that cap admits (R205, R207). -/
def State.writeRay (s : State) (m : March) (r : Ray) : State :=
  match r.out with
  | none => s
  | some (status, detail, t, v) =>
    let s := putWords m s (0x40 + 32 * r.idx)
      [status + 256 * detail, r.steps, r.cell, t, v, r.recs.length, r.face, 0]
    (r.recs.take m.cap).zipIdx.foldl (fun s e =>
      let (c, a, b, x, y) := e.1
      putWords m s (0x440 + 20 * m.cap * r.idx + 20 * e.2) [c, a, b, x, y]) s

/-- MARCH_ENTRY_COMPLETE (R208, R286): once every ray has ended and the earlier MARCHs of the queue have been written, the
entry's results are written and it completes; where the route to a package of its buffer has gone down, it ends with error code 4 and
writes nothing (R358). -/
def execMarchEntryComplete (cluster id : Nat) (s : State) : Host.Outcome State Fault Refusal :=
  match s.marchEntry cluster id with
  | none => .next s
  | some (e, m) =>
    if s.dev.tripped || !s.isHead e || m.rays.any (fun r => r.out.isNone) then .next s
    else if m.buf.any (fun p => p.2 != 3 && !s.routeUp (paPkg p.1)) then .next ((s.unhold [e.id]).completeEntry { e with code := 4 })
    else if s.spansHeld (m.buf.map (fun p => ⟨p.1, p.2, 64⟩)) then .next s
    else .next ((m.rays.foldl (fun s r => s.writeRay m r) s).completeEntry e)

end Sys2Proof.Machine
end

