-- ==== Sys2Proof/Machine/Block.lean ====
section
/-! DEFINITION. The context block (R237): what a save writes and what a load reads, with the remainder's own format, which is
the model's (log entry 47). -/
namespace Sys2Proof.Machine

/-! ## The remainder (R236, R237) -/

/-- The number of an operation in a remainder. -/
def VOp.code : VOp → Nat
  | .mv => 1
  | .splat => 2
  | .get => 3
  | .put => 4
  | .movr => 5
  | .movw => 6
  | .int c => 7 + 256 * c
  | .cmpInt c => 8 + 256 * c
  | .wide c => 9 + 256 * c
  | .abs => 10
  | .flt c => 11 + 256 * c
  | .cmpFlt c => 12 + 256 * c
  | .unary c => 13 + 256 * c
  | .cls => 14
  | .intG c => 15 + 256 * c
  | .cmpIntG c => 16 + 256 * c
  | .wideG c => 17 + 256 * c
  | .fltG c => 18 + 256 * c
  | .cmpFltG c => 19 + 256 * c
  | .cvt => 20
  | .cvtSat => 21
  | .cvtSc => 22
  | .cvtDs => 23
  | .shift => 24
  | .rot => 25
  | .feedLo => 26
  | .feedHi => 27
  | .pick => 28
  | .pack => 29
  | .spread => 30
  | .scanInt c => 31 + 256 * c
  | .scanFlt => 32
  | .redInt c => 33 + 256 * c
  | .redFlt c => 34 + 256 * c
  | .mbound => 35
  | .mlogic c => 36 + 256 * c
  | .mmv => 37
  | .mcnt => 38
  | .mfirst => 39
  | .mfromv => 40
  | .mtov => 41
  | .mpush => 42
  | .melse => 43
  | .mpop => 44
  | .load c => 45 + 256 * c
  | .store c => 46 + 256 * c
  | .gld => 47
  | .scs => 48
  | .vamo c => 49 + 256 * c
  | .sample c => 50 + 256 * c
  | .boxtest => 51
  | .tritest => 52
  | .partition => 53
  | .mzero => 54
  | .mrd => 55
  | .mwr => 56
  | .mcvt => 57
  | .cfg => 58

/-- The operation of a number, with its argument. -/
def opOfCode (x : Nat) : Option VOp :=
  let c := x / 256
  match x % 256 with
  | 1 => some .mv
  | 2 => some .splat
  | 3 => some .get
  | 4 => some .put
  | 5 => some .movr
  | 6 => some .movw
  | 7 => some (.int c)
  | 8 => some (.cmpInt c)
  | 9 => some (.wide c)
  | 10 => some .abs
  | 11 => some (.flt c)
  | 12 => some (.cmpFlt c)
  | 13 => some (.unary c)
  | 14 => some .cls
  | 15 => some (.intG c)
  | 16 => some (.cmpIntG c)
  | 17 => some (.wideG c)
  | 18 => some (.fltG c)
  | 19 => some (.cmpFltG c)
  | 20 => some .cvt
  | 21 => some .cvtSat
  | 22 => some .cvtSc
  | 23 => some .cvtDs
  | 24 => some .shift
  | 25 => some .rot
  | 26 => some .feedLo
  | 27 => some .feedHi
  | 28 => some .pick
  | 29 => some .pack
  | 30 => some .spread
  | 31 => some (.scanInt c)
  | 32 => some .scanFlt
  | 33 => some (.redInt c)
  | 34 => some (.redFlt c)
  | 35 => some .mbound
  | 36 => some (.mlogic c)
  | 37 => some .mmv
  | 38 => some .mcnt
  | 39 => some .mfirst
  | 40 => some .mfromv
  | 41 => some .mtov
  | 42 => some .mpush
  | 43 => some .melse
  | 44 => some .mpop
  | 45 => some (.load c)
  | 46 => some (.store c)
  | 47 => some .gld
  | 48 => some .scs
  | 49 => some (.vamo c)
  | 50 => some (.sample c)
  | 51 => some .boxtest
  | 52 => some .tritest
  | 53 => some .partition
  | 54 => some .mzero
  | 55 => some .mrd
  | 56 => some .mwr
  | 57 => some .mcvt
  | 58 => some .cfg
  | _ => none

/-- Whether the result of a queued command is still to land in a register of its thread (R23). -/
def Thread.resultLive (t : Thread) (c : VCmd) : Bool :=
  t.pend.any (fun p => match p with
    | .sc id rs => id == c.id && !rs.isEmpty
    | _ => false)

/-- The 120 bytes of a command in a remainder; its identity is kept as 0 where it has none, 2 where its result is still to land,
and else 1. -/
def VCmd.bytes (t : Thread) (c : VCmd) : Nat :=
  let res := if c.id = 0 then 0 else if t.resultLive c then 2 else 1
  c.op.code + 2 ^ 32 * c.d + 2 ^ 40 * c.a + 2 ^ 48 * c.b + 2 ^ 56 * c.m + 2 ^ 64 * c.r + 2 ^ 96 * c.vl + 2 ^ 112 * c.vstart +
    2 ^ 128 * c.x.toNat + 2 ^ 192 * c.y.toNat + 2 ^ 256 * c.pc.toNat + 2 ^ 320 * c.frm + 2 ^ 328 * res +
    (if c.tags.isEmpty then 0 else 2 ^ 336 + (List.range 64).foldl (fun n r => n + 2 ^ (384 + 7 * r) * c.tags.getD r 0) 0)

/-- The command that 120 bytes of a remainder hold, its identity as `VCmd.bytes` keeps it. -/
def cmdOf (x : Nat) : Option VCmd :=
  (opOfCode (bitsOf x 0 32)).map (fun op =>
    { op := op, d := bitsOf x 32 8, a := bitsOf x 40 8, b := bitsOf x 48 8, m := bitsOf x 56 8, r := bitsOf x 64 32,
      x := BitVec.ofNat 64 (bitsOf x 128 64), y := BitVec.ofNat 64 (bitsOf x 192 64), vl := bitsOf x 96 16,
      vstart := bitsOf x 112 16, frm := bitsOf x 320 8, pc := BitVec.ofNat 64 (bitsOf x 256 64), id := bitsOf x 328 8,
      tags := if bitAt x 336 then (List.range 64).map (fun r => (r, bitsOf x (384 + 7 * r) 7)) else [] })

/-- The check word of a remainder's 1,016 bytes after it. -/
def checkWord (x : Nat) : Nat := (x % (2 ^ 61 - 1)) + 1

/-- A remainder of at most 8 commands: the check word, the count, and the commands from byte 64 on. -/
def Thread.remainder (t : Thread) : Nat :=
  let body := t.vq.length + 2 ^ 448 * t.vq.foldr (fun c n => c.bytes t + 2 ^ 960 * n) 0
  if t.vq.isEmpty then 0 else checkWord body + 2 ^ 64 * body

/-- The remainder that 1,024 bytes hold, or none where the check fails. -/
def remainderOf (x : Nat) : Option (List VCmd) :=
  if x = 0 then some []
  else
    let body := x / 2 ^ 64
    let n := bitsOf body 0 64
    if x % 2 ^ 64 ≠ checkWord body || n > 8 then none
    else (List.range n).mapM (fun i => cmdOf (bitsOf body (448 + 960 * i) 960))

/-! ## The block (R237) -/

/-- A field of a block: offset, size in bytes and value. -/
abbrev BlockField := Nat × Nat × Nat

/-- The bytes of a list of fields, zero between them. -/
def fieldBytes (fs : List BlockField) : Nat := fs.foldl (fun n f => n + 2 ^ (8 * f.1) * (f.2.2 % 2 ^ (8 * f.2.1))) 0

/-- The fields of a mask at an offset. -/
def maskFields (off : Nat) (k : Mask) : List BlockField :=
  [(off, 128, k.bits.toNat), (off + 128, 1, if k.bound then 1 else 0), (off + 130, 2, k.n.toNat), (off + 132, 1, k.wc.toNat)]

/-- A mask at an offset of a block. -/
def maskAt (x off : Nat) : Mask :=
  ⟨bitAt (fieldOf x (off + 128) 1) 0, BitVec.ofNat 1024 (fieldOf x off 128), BitVec.ofNat 12 (fieldOf x (off + 130) 2),
    BitVec.ofNat 3 (fieldOf x (off + 132) 1)⟩

/-- The budget code of R237. -/
def budgetCode (b : Nat) : Nat := if b = 8 then 0 else if b = 16 then 1 else if b = 32 then 2 else 3

/-- The state code of R237. -/
def Thread.stateCode (t : Thread) : Nat :=
  match t.st with
  | .parkedPage => 1
  | .parkedTrap => 2
  | _ => 0

/-- The 15 control registers of a block, in order, by index. -/
def blockCregs : List Nat :=
  [0x000, 0x001, 0x002, 0x003, 0x008, 0x009, 0x00A, 0x00C, 0x00D, 0x010, 0x011, 0x012, 0x018, 0x019, 0x030]

/-- The value of a control register of a block. -/
def Thread.blockCreg (t : Thread) (s : State) (k i : Nat) : Nat :=
  match i with
  | 0x000 => t.vl.toNat
  | 0x001 => t.vstart.toNat
  | _ => (s.cregView k i).toNat

/-- The fields of a slot's context block below the vector registers, for a thread that owns the accumulators or not. -/
def blockHead (s : State) (k : Nat) (gang : Bool) : List BlockField :=
  let t := s.thread k
  let num : Nat := match s.launchOf t with
    | some l => l.num.toNat
    | none => 0
  let bit (b : Bool) (i : Nat) : Nat := if b then 2 ^ i else 0
  [(0, 4, 0x01435458), (4, 2, 1), (6, 1, t.stateCode), (7, 1, budgetCode t.budget), (8, 8, t.pc.toNat),
   (0x10, 4, t.tid.toNat), (0x14, 4, num), (0x18, 4, if t.st == .parkedTrap then t.serial.toNat else 0),
   (0x1C, 4, bit gang 0 + bit t.gone 1 + bit t.latch 2 + bit t.joined 3)] ++
  blockCregs.zipIdx.map (fun e => (0x20 + 8 * e.2, 8, t.blockCreg s k e.1)) ++
  [(0xA0, 16, bitSum (t.arrivals.map Prod.fst)), (0xB0, 16, bitSum ((t.arrivals.filter (fun e => e.2)).map Prod.fst))] ++
  (List.range 5).map (fun q => (0xC0 + 4 * q, 4, s.outCount t.owner q)) ++
  (List.range 5).map (fun q => (0xD4 + q, 1, t.err.getD q 0)) ++
  (List.range 32).map (fun r => (0x100 + 8 * r, 8, (t.getG r).toNat)) ++
  (List.range t.budget).map (fun r => (0x200 + r, 1, (t.getV r).grp.toNat * 32 + (t.getV r).fmt.toNat)) ++
  (List.range 8).flatMap (fun m => maskFields (0x240 + 136 * m) (t.getM m)) ++
  (List.range 16).flatMap (fun i => maskFields (0x680 + 136 * i) (t.stack.getD i ⟨false, 0, 0, 0⟩)) ++
  (List.range 32).map (fun l => (0xF00 + 4 * l, 4, (t.lfsr.getD l (lfsrSeed 0 l)).toNat)) ++
  [(0x1000, 1024, t.remainder)]

/-- The vector registers of a block, and the accumulators of a gang's. -/
def blockTail (s : State) (k : Nat) (gang : Bool) : List BlockField :=
  let t := s.thread k
  (List.range t.budget).map (fun r => (0x1400 + 128 * r, 128, (t.getV r).bits.toNat)) ++
  (if gang then (s.core (coreOf k)).acc.map (fun e => (0x4000 + 4 * e.1, 4, e.2.toNat)) else [])

/-- The length of a block (R237). -/
def blockLen (budget : Nat) (gang : Bool) : Nat := if gang then 0x24000 else 0x1400 + 128 * budget

/-- The bytes of a slot's context block. -/
def blockBytes (s : State) (k : Nat) (gang : Bool) : Nat := fieldBytes (blockHead s k gang ++ blockTail s k gang)

/-- Where the poison of a slot's registers goes in its block (R281, R283). -/
def blockPoison (s : State) (k : Nat) (gang : Bool) : List Nat :=
  (s.thread k).poison.filterMap (fun p =>
    if p < 32 then some (0x100 + 8 * p)
    else if 0x10000 ≤ p && p < 0x20000 then some (0x1400 + 4 * (p - 0x10000))
    else if 0x20000 ≤ p && p < 0x30000 then some (0x240 + 136 * ((p - 0x20000) / 32) + 4 * (p % 32))
    else if 0x30000 ≤ p then some (0x680 + 136 * ((p - 0x30000) / 32) + 4 * (p % 32))
    else none) ++
  (if gang then (s.core (coreOf k)).accPoison.map (fun p => 0x4000 + 4 * p) else [])

/-- The poison of registers that a block's poisoned bytes give, `bad` saying which 4-byte words of it are poisoned. -/
def loadedPoison (budget : Nat) (bad : Nat → Bool) : List Nat :=
  (List.range 32).filter (fun r => r != 0 && (bad (0x100 + 8 * r) || bad (0x104 + 8 * r))) ++
  ((List.range (budget * 32)).filter (fun i => bad (0x1400 + 4 * i))).map (· + 0x10000) ++
  (List.range 8).flatMap (fun m => ((List.range 32).filter (fun i => bad (0x240 + 136 * m + 4 * i))).map (· + (0x20000 + 32 * m))) ++
  (List.range 16).flatMap (fun m => ((List.range 32).filter (fun i => bad (0x680 + 136 * m + 4 * i))).map (· + (0x30000 + 32 * m)))

/-- Whether a mask of a block is well formed. -/
def maskOk (x off : Nat) : Bool :=
  fieldOf x (off + 128) 1 ≤ 1 && fieldOf x (off + 129) 1 == 0 && fieldOf x (off + 132) 1 ≤ 4 && fieldOf x (off + 133) 3 == 0

/-- The checks of BAD_CONTEXT that a block's bytes decide (R238). -/
def blockOk (x : Nat) : Bool :=
  fieldOf x 0 4 == 0x01435458 && fieldOf x 4 2 == 1 && fieldOf x 6 1 ≤ 2 && fieldOf x 7 1 ≤ 3 && fieldOf x 0x1C 4 < 16 &&
    fieldOf x 0x98 8 == 0 && fieldOf x 0xD9 39 == 0 && fieldOf x 0xF80 128 == 0 &&
    blockCregs.zipIdx.all (fun e => cregAccepts e.1 (fieldOf x (0x20 + 8 * e.2) 8)) &&
    (List.range 8).all (fun m => maskOk x (0x240 + 136 * m)) && (List.range 16).all (fun i => maskOk x (0x680 + 136 * i)) &&
    (remainderOf (fieldOf x 0x1000 1024)).isSome

/-- The entries of a block that are not zero, by index. -/
def nonZero (n : Nat) (f : Nat → Nat) : List (Nat × Nat) := ((List.range n).map (fun i => (i, f i))).filter (fun e => e.2 != 0)

/-- The commands of a loaded remainder, their identities counted on from `uid`. -/
def loadedQueue (cs : List VCmd) (uid : Nat) : List VCmd :=
  cs.zipIdx.map (fun e => { e.1 with id := if e.1.id = 0 then 0 else uid + 1 + e.2 })

/-- The results of a loaded remainder that are still to land (R23). -/
def loadedPend (cs : List VCmd) (uid : Nat) : List Pend :=
  (cs.zipIdx.filter (fun e => e.1.id == 2)).map (fun e => .sc (uid + 1 + e.2) [e.1.d])

/-- The thread that a block's bytes describe, for a launch and a partition, loaded at clk `now` when `uid` identities have been
given (R237, R238). -/
def blockThread (x lid part now uid : Nat) (poison : List Nat) : Thread :=
  let c (j : Nat) : Nat := fieldOf x (0x20 + 8 * j) 8
  let budget := 8 * 2 ^ (fieldOf x 7 1)
  let flags := fieldOf x 0x1C 4
  let cs := (remainderOf (fieldOf x 0x1000 1024)).getD []
  { Thread.empty with
    st := if fieldOf x 6 1 = 2 then .parkedTrap else .running, launch := some lid, part := part,
    pc := BitVec.ofNat 64 (fieldOf x 8 8), ready := now + 1, budget := budget,
    g := (nonZero 32 (fun r => if r = 0 then 0 else fieldOf x (0x100 + 8 * r) 8)).map (fun e => (e.1, BitVec.ofNat 64 e.2)),
    v := (List.range budget).map (fun r =>
      let tag := fieldOf x (0x200 + r) 1
      (r, ⟨BitVec.ofNat 1024 (fieldOf x (0x1400 + 128 * r) 128), BitVec.ofNat 5 tag, BitVec.ofNat 2 (tag / 32)⟩)),
    m := (List.range 8).drop 1 |>.map (fun m => (m, maskAt x (0x240 + 136 * m))),
    stack := (List.range 16).map (fun i => (i, maskAt x (0x680 + 136 * i))),
    vl := BitVec.ofNat 12 (c 0), vstart := BitVec.ofNat 12 (c 1), mstart := BitVec.ofNat 4 (c 2), mdepth := BitVec.ofNat 5 (c 3),
    fmtA := BitVec.ofNat 5 (c 4), fmtB := BitVec.ofNat 5 (c 5), fmtC := BitVec.ofNat 5 (c 6),
    scaleA := BitVec.ofNat 27 (c 7), scaleB := BitVec.ofNat 27 (c 8), frm := BitVec.ofNat 3 (c 9),
    fflags := BitVec.ofNat 5 (c 10), srseed := BitVec.ofNat 64 (c 11), leasemax := BitVec.ofNat 9 (c 12),
    marchLimit := BitVec.ofNat 21 (c 13), dbg := BitVec.ofNat 2 (c 14), tid := BitVec.ofNat 32 (fieldOf x 0x10 4),
    lfsr := (List.range 32).map (fun l => (l, BitVec.ofNat 32 (fieldOf x (0xF00 + 4 * l) 4))),
    vq := loadedQueue cs uid, pend := loadedPend cs uid, replay := !cs.isEmpty, vready := now, latch := bitAt flags 2,
    arrivals := ((List.range 128).filter (fun i => bitAt (fieldOf x 0xA0 16) i)).map (fun i => (i, bitAt (fieldOf x 0xB0 16) i)),
    joined := bitAt flags 3, err := nonZero 5 (fun q => fieldOf x (0xD4 + q) 1),
    serial := BitVec.ofNat 32 (fieldOf x 0x18 4), gone := bitAt flags 1, poison := poison }

end Sys2Proof.Machine
end

