-- ==== Sys2Proof/Machine/System.lean ====
section
/-! DEFINITION. The supervisor instructions (R231 to R239): TRES, CTXSAVE, CTXLOAD, TLBINV, SLOTCTL and WAKEP. -/
namespace Sys2Proof.Machine

/-! ## Slot ids (R231) -/

/-- The package cluster of a slot id. -/
def sidCluster (x : Word) : Nat := bitsOf x.toNat 13 2 * 16 + bitsOf x.toNat 9 4
/-- The user core of a slot id. -/
def sidCore (x : Word) : Nat := sidCluster x * 32 + bitsOf x.toNat 4 5
/-- The slot key of a slot id. -/
def sidKey (x : Word) : Nat := sidCore x * 16 + bitsOf x.toNat 0 4

/-- The check of R231: a slot id outside the partition that the Spring slot serves raises the access trap. -/
def sidCheck (s : State) (x : Word) : Res Unit :=
  if bitsOf x.toNat 15 7 = s.dev.pkg.toNat && (s.part s.thr.part).clus.getLsbD (sidCluster x) then .ok ()
  else trapNow s 0x06 x

/-- What every instruction of major 0x3B does first (R66, R67, R231). -/
def supervisor (w : Bool) (s : State) : Res State := if !isSpring s.cur then privilege s else waitW w s

/-- The result of a supervisor instruction, which is long-latency (R231). -/
def State.status (s : State) (d : BitVec 5) (v : Nat) : State :=
  (s.addPend (if d = 0 then [] else [(d.toNat, BitVec.ofNat 64 v)])).advance 4

/-! ## TRES (R232) -/

/-- A CODE_GONE record for a slot's thread, which is parked with the record's serial (R232, R238, R350). -/
def State.goneRecord (s : State) (k : Nat) : State :=
  let t := s.thread k
  let r := s.threadRec k 0x14 t.pc t.pc t.pc 0
  (s.setThread k { t with st := .parkedTrap, serial := s.nextSerial (clusterOf k) }).postRec (clusterOf k) (some k) r

/-- TRES (R232); a thread under a CTXSAVE's hold does not match (R239). The slot id is checked first (log entry 123). -/
def execTres (w : Bool) (d a b : BitVec 5) (s : State) : Host.Outcome State Fault Refusal :=
  finish s do
    let s ← supervisor w s
    let (x, s) ← readG s a.toNat
    let (y, s) ← readG s b.toNat
    sidCheck s x
    if y.toNat % 4 ≠ 0 then trapNow s 0x07 y
    else
      let k := sidKey x
      let t := s.thread k
      if t.st == .parkedTrap && !t.saving && t.serial == x.extractLsb' 32 32 then
        if t.gone then .ok ((s.goneRecord k).status d 2)
        else .ok ((s.setThread k (t.resumeTrap y)).status d 0)
      else .ok (s.status d 1)

/-! ## CTXSAVE (R236, R237, R239) -/

/-- The slots that a save of a slot's thread covers: those of its gang's threads that have not halted (R154), else its own. -/
def State.saveSet (s : State) (k : Nat) : List Nat :=
  if s.ownsAcc k then (gangSlots k).filter (fun j => (s.thread j).launch == (s.thread k).launch && (s.thread j).st != .empty) else [k]

/-- A thread at its boundary, as a save finds it (R11, R23, R154, R174, R177, R236, R239): results have landed, in a trap record that
still waits as well, a lease region has ended, links are cleared, and a thread that waits in LEASE or MGANG stands at it. -/
def State.settle (s : State) (k : Nat) : State :=
  let s := (s.landAll k).freshRecs k
  let t := s.thread k
  let pc := t.resumePc t.pc
  let s := s.endRegion k
  let t := { s.thread k with pc := pc, links := [], timewait := none }
  let t := if t.st == .waiting .lease || t.st == .waiting .gang then { t with st := .running } else t
  s.setThread k t

/-- What a save of a gang does to its quad's operation before it starts (R154). -/
def State.settleGang (s : State) (k : Nat) : State :=
  if !s.ownsAcc k then s
  else
    let q := quadOfCore (coreOf k)
    let s := if (s.quad q).step.isNone then s.dropParts q else s
    s.setQuad q { s.quad q with arrived := [], joinAt := none }

/-- Whether a save must still wait: for results to land, announced accesses, the gang's K-step, or its MSTs (R154, R236). -/
def State.saveWaits (s : State) (ks : List Nat) : Bool :=
  ks.any (fun k =>
    !(s.thread k).pendDone || s.unperformed k ||
      (s.ownsAcc k && ((s.quad (quadOfCore (coreOf k))).step.isSome || s.outCount (s.thread k).owner 2 ≠ 0)))

/-- The parts of storage of a block, as the Spring slot reaches them, or none where a page check fails (R236, R238). -/
def blockParts (s : State) (need : Need) (va n : Nat) : Option (List Span) :=
  ((List.range ((n + 63) / 64)).mapM (fun i =>
    match s.resolve s.cur need false (va + 64 * i) (min 64 (n - 64 * i)) with
    | .ok sp => some sp
    | .error _ => none)).map List.flatten

/-- Poisons the place of a byte offset of a block (R281). -/
def poisonAt (s : State) (sp : List Span) (off : Nat) : State :=
  match sp with
  | [] => s
  | p :: t => if off < p.n then s.poisonParts s.cur [⟨p.pa + off, p.attr, 1⟩] else poisonAt s t (off - p.n)

/-- What stands for a halted thread of a gang, on core `j`'s slot of its quad, in the block that a save of slot `k`'s thread
writes for it: its place in the launch and the shadows, with the accumulators of its core (log entry 98). -/
def State.haltedThread (s : State) (k j : Nat) : Thread :=
  let t := s.thread k
  let tid := match s.launchOf t with
    | some l => ((gangTids l t.tid.toNat).find? (fun i => coreOf (l.place.getD i 0) % 4 == coreOf j % 4)).getD 0
    | none => 0
  { Thread.empty with
    launch := t.launch, part := t.part, budget := t.budget, tid := BitVec.ofNat 32 tid, fmtA := t.fmtA, fmtB := t.fmtB, fmtC := t.fmtC,
    scaleA := t.scaleA, scaleB := t.scaleB }

/-- Writes one slot's block, as the state `src` gives it, to its parts, with the poison of the registers. -/
def State.writeBlock (s src : State) (k : Nat) (gang : Bool) (sp : List Span) : State :=
  let bad := blockPoison src k gang
  bad.foldl (fun s o => poisonAt s sp o) (s.storeParts s.cur sp (blockBytes src k gang))

/-- The core on which a thread of a launch stood at dispatch. -/
def Launch.homeCore (l : Launch) (tid : Nat) : Nat := coreOf (l.place.getD tid 0)

/-- A saved thread leaves its slot (R11, R347): its launch keeps where its block lies, and where the last thread of its core has left
with it, that core's threads may resume on another (R389). -/
def State.leave (s : State) (k va : Nat) : State :=
  let t := s.thread k
  let s := match t.launch.bind (fun lid => (s.launches.get? lid).map (fun l => (lid, l))) with
    | some (lid, l) => { s with launches := s.launches.set lid { l with saved := l.saved.set t.tid.toNat va } }
    | none => s
  let s := s.vacate k
  match t.launch.bind (fun lid => (s.launches.get? lid).map (fun l => (lid, l))) with
  | some (lid, l) =>
    let h := l.homeCore t.tid.toNat
    if s.threads.any (fun e => e.2.launch == some lid && e.2.st != .empty && l.homeCore e.2.tid.toNat == h) then s
    else { s with launches := s.launches.set lid { l with stands := l.stands.erase h } }
  | none => s

/-- Applies or ends a CTXSAVE's hold on threads (R235, R236). -/
def State.holdAll (s : State) (on : Bool) (ks : List Nat) : State :=
  ks.foldl (fun s j => s.setThread j { s.thread j with held := on, saving := on }) s

/-- The save itself, when every thread of the set `ks` stands at its boundary: it ends the hold (R235, R236). The dirty STRM bytes
of its core go home, since the thread may resume on another (R243, R347). -/
def saveNow (s : State) (d : BitVec 5) (k : Nat) (ks : List Nat) (gang keep : Bool) (va : Nat) : Res State :=
  let src (j : Nat) : State := if ks.contains j then s else s.setThread j (s.haltedThread k j)
  let places := (if gang then gangSlots k else ks).zipIdx.map (fun e =>
    (e.1, va + e.2 * 0x24000, blockLen ((src e.1).thread e.1).budget gang))
  match places.mapM (fun e => (blockParts s .store e.2.1 e.2.2).map (fun sp => (e.1, e.2.1, sp))) with
  | none => .ok (s.status d 3)
  | some bs =>
    if s.portHeld s.cur || s.thr.memQueued || s.partsHeld s.cur (bs.flatMap (fun e => e.2.2)) ||
        ks.any (fun j => s.flushHeld (coreOf j)) then .ok s
    else
      let s := ks.foldl (fun s j => s.flushStrm (coreOf j) (fun _ => true)) s
      let s := bs.foldl (fun s e => s.writeBlock (src e.1) e.1 gang e.2.2) s
      let s := s.holdAll false ks
      let s := if keep then s else (bs.filter (fun e => ks.contains e.1)).foldl (fun s e => s.leave e.1 e.2.1) s
      let s := if gang && !keep then s.releaseAcc (quadOfCore (coreOf k)) else s
      .ok (s.status d 0)

/-- CTXSAVE (R236): the threads are held, and until they stand at their boundaries the Spring slot's turns stay idle. -/
def execCtxsave (w : Bool) (d a b : BitVec 5) (s : State) : Host.Outcome State Fault Refusal :=
  finish s do
    let s ← supervisor w s
    let (x, s) ← readG s a.toNat
    let (y, s) ← readG s b.toNat
    sidCheck s x
    let k := sidKey x
    let t := s.thread k
    let keep := y.getLsbD 0
    let va := y.toNat / 256 * 256
    let parked := t.st == .parkedPage || t.st == .parkedTrap
    if t.st == .empty then .ok (s.status d 1)
    else if keep && !parked && !t.saving then .ok (s.status d 2)
    else
      let gang := s.ownsAcc k
      let ks := s.saveSet k
      let s := (ks.foldl State.settle (s.holdAll true ks)).settleGang k
      if s.saveWaits ks then .ok s else saveNow s d k ks gang keep va

/-! ## CTXLOAD (R238) -/

/-- A block as a load reads it: its bytes and which of its 4-byte words are poisoned. -/
def readBlock (s : State) (va n : Nat) : Option (Nat × List Span) :=
  (blockParts s .load va n).map (fun sp => (s.loadParts s.cur sp, sp))

/-- Whether the 4-byte word at an offset of a block's parts is poisoned. -/
def wordPoisoned (s : State) : List Span → Nat → Bool
  | [], _ => false
  | p :: t, off => if off < p.n then (s.badWord s.cur (p.pa + off) 4).isSome else wordPoisoned s t (off - p.n)

/-- The launch of a partition that a number names and that has not completed. -/
def State.launchNumbered (s : State) (part num : Nat) : Option Nat :=
  (s.launches.find? (fun e => e.2.part == part && e.2.num.toNat == num && !e.2.done)).map Prod.fst

/-- Whether a core has room for a budget, with no thread of another partition on it (R20, R260). -/
def State.coreTakes (s : State) (core part budget : Nat) : Bool :=
  s.fileBytes core + budget * 128 ≤ ((s.core core).pool.extractLsb' 0 8).toNat * 4096 &&
    s.threads.all (fun e => coreOf e.1 != core || e.2.st == .empty || e.2.part == part)

/-- Takes an error code that was recorded while the thread stood in no slot (R215, R221). -/
def Thread.mergeErrs (t : Thread) (l : Launch) : Thread :=
  { t with err := (List.range 5).foldl (fun e q =>
      if e.getD q 0 = 0 && l.errs.getD (t.tid.toNat * 8 + q) 0 ≠ 0 then e.set q (l.errs.getD (t.tid.toNat * 8 + q) 0) else e) t.err }

/-- The accumulator words of a gang block. -/
def blockAcc (x : Nat) : Tab (BitVec 32) := (nonZero 32768 (fun i => fieldOf x (0x4000 + 4 * i) 4)).map (fun e => (e.1, BitVec.ofNat 32 e.2))

/-! The scratch grants of a launch that comes back (R343, R347, R389) -/

/-- A partition's die scratch share on a die, in 64 KiB units, and where it begins: the shares lie in partition order. -/
def State.dieShare (s : State) (p die : Nat) : Nat × Nat :=
  let n (x : Nat) : Nat := bitsOf (s.part x).dshare.toNat (16 * die) 16
  ((List.range p).foldl (fun a x => a + n x) 0, n p)

/-- The units of die scratch that a partition's trap rings lie in (R355). -/
def State.ringUnits (s : State) (p : Nat) : Nat × Nat :=
  let t := (s.part p).tring.toNat
  (t / 65536, (t + 131071) / 65536 - t / 65536)

/-- The least of a list of numbers by a test. -/
def lowestFit (lo hi need : Nat) (busy : List (Nat × Nat)) : Option Nat :=
  least ((lo :: busy.map (fun e => e.1 + e.2)).filter (fun a =>
    lo ≤ a && a + need ≤ hi && busy.all (fun e => a + need ≤ e.1 || e.1 + e.2 ≤ a)))

/-- The lowest range of die scratch for a launch on a die, in 64 KiB units; `used` are the ranges granted. -/
def State.dieFit (s : State) (p die ds : Nat) (used : List (Nat × Nat)) : Option Nat :=
  if ds = 0 then some 0
  else
    let (lo, n) := s.dieShare p die
    lowestFit lo (lo + n) ds (s.ringUnits p :: used)

/-- The die scratch grants on a die. -/
def State.dieGrants (s : State) (die : Nat) : List (Nat × Nat) :=
  s.launches.filterMap (fun e =>
    if e.2.done || e.2.away || e.2.ds = 0 then none else (e.2.dsBase.get? die).map (fun b => (b, e.2.ds)))

/-- Zeroes the units of a die scratch grant that another partition held last (R263), and notes the holder. -/
def State.grantDie (s : State) (p die base n : Nat) : State :=
  (List.range n).foldl (fun s i =>
    let d := s.die die
    let s := match d.holder.get? (base + i) with
      | some x => if x = p then s else s.zeroRange (dieScratchAddr die ((base + i) * 65536)) 65536
      | none => s
    s.setDie die { s.die die with holder := (s.die die).holder.set (base + i) p }) s

/-- Whether a core has units [base, base + n) of its scratchpad region free (R260). -/
def State.coreFree (s : State) (core base n : Nat) : Bool :=
  let pool := (s.core core).pool.toNat
  base + n + bitsOf pool 0 8 ≤ bitsOf pool 8 8 && (s.coreGrants core).all (fun g => base + n ≤ g.1 || g.1 + g.2 ≤ base)

/-- The base at which a core grants a launch its core scratch again: that of its cluster, which is fixed while another core there
holds a grant; else one that the launch has had, or the lowest; only 0 with base0 (R343, R389). -/
def State.coreBase (s : State) (l : Launch) (core : Nat) : Option Nat :=
  let c := clusterOfCore core
  let old := (l.scrBase.get? c).toList
  let tries := if l.base0 then [0]
    else if l.cores.any (fun x => clusterOfCore x == c) then old
    else old ++ l.scrBase.map Prod.snd ++ List.range 128
  tries.find? (fun b => s.coreFree core b l.scr)

/-- A launch whose threads are all saved, which holds no grant (R347). -/
def Launch.resumed (l : Launch) : Launch := if l.away then { l with cores := [], dsBase := [] } else l

/-- Whether a launch that spills may resume a thread on a core (R389): its spill area stands where the threads of its core at dispatch
stand, or stood when they halted, and no others of the launch use that core. -/
def Launch.together (l : Launch) (core tid : Nat) : Bool :=
  let live (h : Nat) : Bool := l.place.any (fun e => coreOf e.2 == h && !l.halted.contains e.1)
  let h := l.homeCore tid
  !l.spill || (l.stands.get? h).elim true (· == core) && l.stands.all (fun e => e.1 == h || e.2 != core || !live e.1)

/-- A launch that spills, with a thread resumed on a core. -/
def Launch.stand (l : Launch) (core tid : Nat) : Launch :=
  if l.spill then { l with stands := l.stands.set (l.homeCore tid) core } else l

/-- A core's scratch grant for a launch that loads a thread of c.tid `tid` there: the launch with it, or none where there is no room
(R341, R347, R389). -/
def State.grantCore (s : State) (l : Launch) (core tid : Nat) : Option Launch :=
  if !l.together core tid then none
  else let l := l.stand core tid
  if l.scr = 0 || l.cores.contains core then some l
  else (s.coreBase l core).map (fun b => { l with cores := l.cores ++ [core], scrBase := l.scrBase.set (clusterOfCore core) b })

/-- The die scratch grant of a launch that loads a thread on a die: its base, or none where there is no room. -/
def State.dieAgain (s : State) (l : Launch) (old : Tab Nat) (die : Nat) : Option Nat :=
  let used := s.dieGrants die
  match old.get? die with
  | some b => if (s.ringUnits l.part :: used).all (fun g => b + l.ds ≤ g.1 || g.1 + g.2 ≤ b) then some b else s.dieFit l.part die l.ds used
  | none => s.dieFit l.part die l.ds used

/-- The grants of a launch that loads a thread of c.tid `tid` on a core (R347, R389): the state with them, or none where there is no
room. What stands in a range that comes back is what firmware has put there (log entry 99). -/
def State.regrant (s : State) (lid core tid : Nat) : Option State :=
  match s.launches.get? lid with
  | none => some s
  | some l₀ =>
    let die := dieOfCluster (clusterOfCore core)
    match s.grantCore l₀.resumed core tid with
    | none => none
    | some l =>
      if l.ds = 0 || (l.dsBase.get? die).isSome then some { s with launches := s.launches.set lid l }
      else (s.dieAgain l l₀.dsBase die).map (fun b =>
        { s with launches := s.launches.set lid { l with dsBase := l.dsBase.set die b } }.grantDie l.part die b l.ds)

/-- A launch whose thread is loaded: its saved place and the error codes kept for it go (R215, R238). -/
def State.unsave (s : State) (lid tid : Nat) : State :=
  match s.launches.get? lid with
  | none => s
  | some l =>
    let saved := l.saved.erase tid
    let held := s.threads.any (fun e => e.2.launch == some lid && e.2.st != .empty && e.2.held)
    { s with launches := s.launches.set lid { l with
        saved := saved, preempted := l.preempted && (!saved.isEmpty || held), errs := l.errs.filter (fun e => e.1 / 8 != tid) } }

/-- Whether a gang's block is that of a thread that has halted, which a load does not place (log entry 98). -/
def State.haltedBlock (s : State) (lid : Nat) (gang : Bool) (x : Nat) : Bool :=
  gang && (match s.launches.get? lid with
    | some l => l.halted.contains (fieldOf x 0x10 4)
    | none => false)

/-- Places one thread from its block into a slot (R238). -/
def State.placeThread (s : State) (k lid x : Nat) (bad : Nat → Bool) : State :=
  let t := blockThread x lid s.thr.part s.clk s.uid (loadedPoison (8 * 2 ^ (fieldOf x 7 1)) bad)
  let t := match s.launches.get? lid with
    | some l => { t.mergeErrs l with gone := t.gone || l.gone.contains t.tid.toNat }
    | none => t
  let s := { s.unsave lid t.tid.toNat with uid := s.uid + 8 }.setThread k t
  if t.gone then s.goneRecord k else s

/-- Loads one block into a slot (R238): the thread's grants and state, and the accumulators of a gang's block; none where there is
no room for a grant. A gang's block takes the quad's accumulator store, whoever holds it (log entry 116). -/
def State.place1 (s : State) (k lid : Nat) (gang : Bool) (x : Nat) (sp : List Span) : Option State :=
  let bad (off : Nat) : Bool := wordPoisoned s sp off
  let s' := if gang then
      s.setCore (coreOf k) { s.core (coreOf k) with
        accOwner := some (slotOf k, lid), acc := blockAcc x, accPoison := (List.range 32768).filter (fun i => bad (0x4000 + 4 * i)) }
    else s
  if s.haltedBlock lid gang x then some s'
  else (s'.regrant lid (coreOf k) (fieldOf x 0x10 4)).map (fun s => s.placeThread k lid x bad)

/-- CTXLOAD (R238); g[b][7:0] is not looked at (log entry 46). -/
def execCtxload (w : Bool) (d a b : BitVec 5) (s : State) : Host.Outcome State Fault Refusal :=
  finish s do
    let s ← supervisor w s
    let (x, s) ← readG s a.toNat
    let (y, s) ← readG s b.toNat
    sidCheck s x
    let k := sidKey x
    let va := y.toNat / 256 * 256
    if (s.thread k).st != .empty then .ok (s.status d 1)
    else match readBlock s va 0x1400 with
      | none => .ok (s.status d 4)
      | some (head, hsp) =>
        if s.portHeld s.cur || s.thr.memQueued || s.partsHeld s.cur hsp then stall s
        else
          let gang := bitAt (fieldOf head 0x1C 4) 0
          let ks := if gang then gangSlots k else [k]
          if ks.any (fun j => (s.thread j).st != .empty) then .ok (s.status d 1)
          else
            let at_ (j : Nat) : Nat := va + j * 0x24000
            match ks.zipIdx.mapM (fun e => (readBlock s (at_ e.2) 0x1400).bind (fun h =>
                readBlock s (at_ e.2) (blockLen (8 * 2 ^ (fieldOf h.1 7 1 % 4)) gang))) with
            | none => .ok (s.status d 4)
            | some bs =>
              if s.partsHeld s.cur (bs.flatMap (fun e => e.2)) then stall s
              else if bs.any (fun e => !blockOk e.1) then .ok (s.status d 2)
              else
                let part := s.thr.part
                match bs.mapM (fun e => s.launchNumbered part (fieldOf e.1 0x14 4)) with
                | none => .ok (s.status d 2)
                | some lids =>
                  let rows := ks.zip (bs.zip lids)
                  if rows.any (fun e => !s.coreTakes (coreOf e.1) part (8 * 2 ^ (fieldOf e.2.1.1 7 1))) then .ok (s.status d 3)
                  else match rows.foldlM (fun (s : State) e => s.place1 e.1 e.2.2 gang e.2.1.1 e.2.1.2) s with
                    | none => .ok (s.status d 3)
                    | some u => .ok (u.status d 0)

/-! ## TLBINV (R234, R269, R276) -/

/-- The sizes of a TLBINV's size codes, in address bits. -/
def tlbBits (c : Nat) : Nat :=
  match c with
  | 0 => 12
  | 1 => 16
  | 2 => 21
  | 3 => 26
  | _ => 31

/-- The pages, by virtual address ÷ 4096, that a job holds translated (R158, R204). -/
def Job.held : Job → List Nat
  | .mst _ ps _ _ _ _ => ps
  | .march m => m.pages
  | _ => []

/-- Whether a translation that a TLBINV covers is still in use (R234, R276). -/
def State.tlbBusy (s : State) (part : Nat) (covers : Nat → Bool) : Bool :=
  s.entries.any (fun e => e.part == part && e.job.held.any covers) ||
    s.scq.any (fun e => (s.thread e.slot).part == part) || s.amoq.any (fun e => (s.thread e.slot).part == part) ||
    s.threads.any (fun e => e.2.part == part && (match e.2.lease with
      | some l => l.holds s.clk
      | none => false))

/-- Writes the dirty STRM bytes of a partition's cores home, so that every access made through an old translation is
performed (R234, R250). -/
def State.flushPart (s : State) (part : Nat) : State :=
  (s.cores.filter (fun e => s.partOfCluster (clusterOfCore e.1) == part)).foldl
    (fun s e => s.flushStrm e.1 (fun _ => true)) s

/-- Whether a dirty STRM byte of a partition's cores is held on its way home (R364). -/
def State.flushPartHeld (s : State) (part : Nat) : Bool :=
  s.cores.any (fun e => s.partOfCluster (clusterOfCore e.1) == part && s.flushHeld e.1)

/-- The effect of TLBINV on a partition (R269, R276): the waits of its threads read their flags through the new translations, and
after one of kind 1 the written roots are in force. -/
def State.tlbDrop (s : State) (part kind : Nat) : State :=
  let s := (s.flushPart part).wakeWaits part
  let p := s.part part
  if kind = 1 then s.setPart part { p with uEff := p.uroot, sEff := p.sroot } else s

/-- TLBINV (R234). -/
def tlbinv (w : Bool) (a b : BitVec 5) (s : State) : Res State := do
  let s ← supervisor w s
  let (x, s) ← readG s a.toNat
  let (y, s) ← readG s b.toNat
  let v := y.toNat
  let kind := v % 16
  let size := bitsOf v 4 3
  let part := bitsOf v 16 8
  if bitsOf v 24 40 ≠ 0 || part > 7 || bitsOf v 7 9 ≠ 0 || size > 4 || kind > 1 then illegal s
  else if part ≠ s.thr.part then trapNow s 0x06 y
  else
    let covers (page : Nat) : Bool := kind == 1 || page * 4096 / 2 ^ tlbBits size == x.toNat / 2 ^ tlbBits size
    if s.tlbBusy part covers || s.flushPartHeld part then stall s else .ok ((s.tlbDrop part kind).advance 4)

/-- TLBINV_PAGE (R234): kind 0; the word is that of every TLBINV, and g[b] gives the kind. -/
def execTlbinvPage (w : Bool) (a b : BitVec 5) (s : State) : Host.Outcome State Fault Refusal := finish s (tlbinv w a b s)

/-- TLBINV_PARTITION (R234): kind 1; the word is that of every TLBINV, and g[b] gives the kind. -/
def execTlbinvPartition (w : Bool) (a b : BitVec 5) (s : State) : Host.Outcome State Fault Refusal := finish s (tlbinv w a b s)

/-! ## SLOTCTL (R235) -/

/-- The slots that a SLOTCTL's slot id names: one, or all 16 of its core. -/
def sidSlots (x : Word) : List Nat :=
  if x.getLsbD 22 then (List.range 16).map (fun i => sidCore x * 16 + i) else [sidKey x]

/-- KILL of a slot's thread (R235); its launch keeps that it was killed. -/
def State.killThread (s : State) (k : Nat) : State :=
  let t := s.thread k
  let s := match t.launch.bind (fun lid => (s.launches.get? lid).map (fun l => (lid, l))) with
    | some (lid, l) => { s with launches := s.launches.set lid { l with killed := l.killed ++ [t.tid.toNat] } }
    | none => s
  s.endThread k

/-- HOLD, RELEASE, KILL and DEBUG on one slot (R235); an EMPTY slot has no thread to act on. -/
def State.slotOp (s : State) (op : Nat) (v : Word) (k : Nat) : State :=
  let t := s.thread k
  if t.st == .empty then s
  else match op with
    | 0 => s.setThread k { t with held := true }
    | 1 => s.setThread k { t with held := false, saving := false }
    | 2 => s.killThread k
    | _ => s.setThread k { t with dbg := v.extractLsb' 32 2 }

/-- SLOTCTL (R235): what is illegal whatever the slot id names comes before the slot id's own check (R67, log entry 118); the other
bits of g[b] are not looked at (log entry 46). -/
def slotctl (w : Bool) (a b : BitVec 5) (s : State) : Res State := do
  let s ← supervisor w s
  let (x, s) ← readG s a.toNat
  let (y, s) ← readG s b.toNat
  let op := y.toNat % 16
  if op > 4 || (op = 4 && (!x.getLsbD 22 || !poolForm (bitsOf y.toNat 32 24))) then illegal s
  else
    sidCheck s x
    if op = 4 then
      let v := bitsOf y.toNat 32 24
      if !s.poolOk (sidCore x) v then illegal s
      else if s.poolHeld (sidCore x) v then stall s
      else .ok ((s.setPool (sidCore x) v).advance 4)
    else .ok (((sidSlots x).foldl (fun s k => s.slotOp op y k) s).advance 4)

/-- SLOTCTL_HOLD (R235): operation 0; the word is that of every SLOTCTL, and g[b] gives the operation. -/
def execSlotctlHold (w : Bool) (a b : BitVec 5) (s : State) : Host.Outcome State Fault Refusal := finish s (slotctl w a b s)
/-- SLOTCTL_RELEASE (R235): operation 1. -/
def execSlotctlRelease (w : Bool) (a b : BitVec 5) (s : State) : Host.Outcome State Fault Refusal := finish s (slotctl w a b s)
/-- SLOTCTL_KILL (R235): operation 2. -/
def execSlotctlKill (w : Bool) (a b : BitVec 5) (s : State) : Host.Outcome State Fault Refusal := finish s (slotctl w a b s)
/-- SLOTCTL_DEBUG (R235): operation 3. -/
def execSlotctlDebug (w : Bool) (a b : BitVec 5) (s : State) : Host.Outcome State Fault Refusal := finish s (slotctl w a b s)
/-- SLOTCTL_POOL (R235): operation 4. -/
def execSlotctlPool (w : Bool) (a b : BitVec 5) (s : State) : Host.Outcome State Fault Refusal := finish s (slotctl w a b s)

/-! ## WAKEP (R233) -/

/-- WAKEP to a unit: every access it holds retries, in the order of their records. The message to a tile unit also reaches the mesh
distributor that sends its records there, unit kind 4 in the model. -/
def State.wakeUnit (s : State) (kind c : Nat) : State :=
  let reached (h : Nat × Nat) : Bool := h.1 == unitKey kind c || (kind == 3 && h.1 == unitKey 4 c)
  { s with holds := s.holds.filter (fun h => !reached h), woken := s.woken ++ s.holds.filter reached }

/-- WAKEP (R233). -/
def wakep (w : Bool) (a : BitVec 5) (s : State) : Res State := do
  let s ← supervisor w s
  let (x, s) ← readG s a.toNat
  if x.getLsbD 31 then
    let kind := bitsOf x.toNat 0 6
    if kind = 1 then
      if bitsOf x.toNat 15 7 ≠ s.dev.pkg.toNat then trapNow s 0x06 x else .ok ((s.wakeUnit 1 0).advance 4)
    else do
      sidCheck s x
      .ok ((if kind ≤ 3 then s.wakeUnit kind (sidCluster x) else s).advance 4)
  else do
    sidCheck s x
    let t := s.thread (sidKey x)
    let s := if t.st == .parkedPage then s.setThread (sidKey x) { t with st := .running } else s
    .ok (s.advance 4)

/-- WAKEP_THREAD (R233): bit 31 of g[a] is 0; the word is that of every WAKEP. -/
def execWakepThread (w : Bool) (a : BitVec 5) (s : State) : Host.Outcome State Fault Refusal := finish s (wakep w a s)
/-- WAKEP_AGENT (R233): bit 31 of g[a] is 1. -/
def execWakepAgent (w : Bool) (a : BitVec 5) (s : State) : Host.Outcome State Fault Refusal := finish s (wakep w a s)

end Sys2Proof.Machine
end

