-- ==== Sys2Proof/Machine/Agents.lean ====
section
/-! DEFINITION. What the raster agents share (ch. 13): their queues and QPUSH (R210 to R213, R302), the frame record (R304, R305),
and their accesses to memory (R302). -/
namespace Sys2Proof.Machine

/-! ## Agent queues (R212, R302, R303) -/

/-- The name of an agent queue. -/
def aqKey (kind unit q : Nat) : Nat := kind * 65536 + unit * 64 + q
/-- An agent queue; one never bound is bound to no frame. -/
def State.aqueue (s : State) (k : Nat) : AgentQueue := s.aqueues.getD k ⟨none, 0, 0xFFFFFFFF, []⟩
/-- Replaces an agent queue. -/
def State.setAqueue (s : State) (k : Nat) (a : AgentQueue) : State := { s with aqueues := s.aqueues.set k a }
/-- The entries an agent queue holds (R302). -/
def aqRoom (kind : Nat) : Nat := if kind = 2 then 256 else 64
/-- Whether the notify register covers an entry (R212). -/
def AgentQueue.covers (a : AgentQueue) (i : QItem) : Bool := a.notify != 0xFFFFFFFF && i.seq ≤ a.notify
/-- The first entry that the agent has not taken, where the notify register covers it. -/
def AgentQueue.head (a : AgentQueue) : Option QItem :=
  match a.items.find? (fun i => !i.taken) with
  | some i => if a.covers i then some i else none
  | none => none

/-- Replaces an entry of an agent queue. -/
def State.setItem (s : State) (key : Nat) (i : QItem) : State :=
  let a := s.aqueue key
  s.setAqueue key { a with items := a.items.map (fun x => if x.seq = i.seq then i else x) }

/-- An entry of an agent queue has been processed: its place is free and it completes for R214. -/
def State.processed (s : State) (key seq : Nat) : State :=
  let a := s.aqueue key
  let done := a.items.filter (fun i => i.seq == seq)
  let s := s.setAqueue key { a with items := a.items.filter (fun i => i.seq != seq) }
  { s with entries := s.entries.filter (fun e => !done.any (fun i => i.id == e.id)) }

/-- QPUSH (R211 to R213): it waits as a store of its thread does (R249), and dirty STRM bytes go home first (R255); `kind` 0 tile unit, 1 blend stage, 2 mesh distributor. -/
def qpush (kind : Nat) (w : Bool) (a b : BitVec 5) (ntf : Bool) (s : State) : Res State := do
  let s ← waitW w s
  let (x, s) ← readG s a.toNat
  let (y, s) ← readG s b.toNat
  let h := x.toNat
  let die := bitsOf h 10 2
  let clus := bitsOf h 6 4
  if h ≥ 4096 || (kind = 2 && clus ≠ 0) then illegal s
  else
    let s ← noRegion s
    let key := aqKey kind (if kind = 2 then die else die * 16 + clus) (h % 64)
    let q := s.aqueue key
    let bound := match q.frame, s.launchOf s.thr with
      | some f, some l => l.frames.contains f
      | _, _ => false
    let off := y.toNat
    let (gb, gz) := s.scratchGrant s.cur
    if !bound then trapNow s 0x06 x
    else if off % 64 ≠ 0 then trapNow s 0x07 y
    else if off < gb || off + 64 > gb + gz then trapNow s 0x06 y
    else if s.fences.any (fun f => f.owner == s.thr.owner && bitAt f.set 4 && s.outBelow f.owner 4 f.bound) ||
        s.portHeld s.cur || s.thr.memQueued || s.flushHeld (coreOf s.cur) then stall s
    else if q.items.length ≥ aqRoom kind || q.next ≥ 0xFFFFFFFF then trapNow s 0x12 x
    else
      let pa := scratchAddr (coreOf s.cur) off
      let s ← consumeParts s [⟨pa, 3, 64⟩]
      let s := s.flushStrm (coreOf s.cur) (fun _ => true)
      let item : QItem := { seq := q.next, id := s.uid, data := s.read pa 64, taken := false, left := 0 }
      let s := s.accept 4 .push none
      let q := { q with next := q.next + 1, items := q.items ++ [item], notify := if ntf then q.next else q.notify }
      .ok ((s.setAqueue key q).advance 4)

/-- QPUSH_TILE (R210). -/
def execQpushTile (w : Bool) (a b : BitVec 5) (n : BitVec 1) (s : State) : Host.Outcome State Fault Refusal :=
  finish s (qpush 0 w a b (n == 1) s)
/-- QPUSH_BLEND (R210). -/
def execQpushBlend (w : Bool) (a b : BitVec 5) (n : BitVec 1) (s : State) : Host.Outcome State Fault Refusal :=
  finish s (qpush 1 w a b (n == 1) s)
/-- QPUSH_MESH (R210). -/
def execQpushMesh (w : Bool) (a b : BitVec 5) (n : BitVec 1) (s : State) : Host.Outcome State Fault Refusal :=
  finish s (qpush 2 w a b (n == 1) s)

/-! ## The agents' accesses (R302) -/

/-- What an agent finds at a virtual address. -/
inductive Reach where
  | ok (pa attr : Nat)
  | park
  | bad
  /-- A table entry is homed on a die in reset, which holds the access (R364). -/
  | held
  deriving DecidableEq, Repr

/-- The place of `n` bytes that lie in one page, through a partition's root; no window is resolved for an agent. -/
def State.reach (s : State) (part : Nat) (need : Need) (va n : Nat) : Reach :=
  if va + n > winBase then .bad
  else match walk s (s.part part).uEff true need va with
    | .ok pa attr => .ok pa attr
    | .park => .park
    | .held => .held
    | _ => .bad

/-- The first address of a list of accesses that meets a page not present or migrating. -/
def State.firstPark (s : State) (part : Nat) (need : Need) (l : List (Nat × Nat)) : Option Nat :=
  (l.find? (fun e => s.reach part need e.1 e.2 == .park)).map Prod.fst

/-- The accesses to `n` bytes, cut at pages. -/
def pageCuts (va n : Nat) : List (Nat × Nat) :=
  if n = 0 then []
  else (List.range ((va + n - 1) / 4096 - va / 4096 + 1)).map (fun i =>
    let a := if i = 0 then va else (va / 4096 + i) * 4096
    (a, min (va + n) ((va / 4096 + i + 1) * 4096) - a))

/-- A write of `n` bytes, cut at pages. -/
def cutWrite (va n v : Nat) : List (Nat × Nat × Nat) := (pageCuts va n).map (fun w => (w.1, w.2, bitsOf v (8 * (w.1 - va)) (8 * w.2)))

/-- The accesses of a list of writes. -/
def writeSpans (ws : List (Nat × Nat × Nat)) : List (Nat × Nat) := ws.map (fun w => (w.1, w.2.1))

/-- Whether a list of accesses must wait: for a lease, or for a die in reset that their lines or a table on the way to them are homed
on (R170, R364). -/
def State.agentHeld (s : State) (part : Nat) (need : Need) (l : List (Nat × Nat)) : Bool :=
  l.any (fun e => s.reach part need e.1 e.2 == .held) || s.spansHeld (l.filterMap (fun e => match s.reach part need e.1 e.2 with
    | .ok pa attr => some ⟨pa, attr, e.2⟩
    | _ => none))

/-- Why an agent's accesses cannot be made now: a page to be requested, or a line or a home that is away. -/
inductive Delay where
  | page (va : Nat)
  | away
  deriving DecidableEq, Repr

/-- Whether a list of accesses can be made now (R302). -/
def State.agentReady (s : State) (part : Nat) (need : Need) (l : List (Nat × Nat)) : Except Delay Unit :=
  match s.firstPark part need l with
  | some va => .error (.page va)
  | none => if s.agentHeld part need l then .error .away else .ok ()

/-- A step of an agent: `.error` is the state of an agent that waits or holds its access, `.ok` of one that went on. -/
abbrev AgentStep (α : Type) : Type := Except State α

/-- The state after a step of an agent. -/
def AgentStep.state (x : AgentStep State) : State :=
  match x with
  | .ok s => s
  | .error s => s

/-- What a unit does once it knows whether an access of it can be made: a page that is not present holds it on a record (R302,
R310), and an access that passes, or whose home is away, is no longer to be retried (R233). -/
def State.agentGo {α : Type} (s : State) (kind c tag : Nat) (x : Except Delay α) : AgentStep (State × α) :=
  match x with
  | .ok a => .ok (s.retry kind c tag, a)
  | .error (.page va) => .error ((s.retry kind c tag).agentRequest kind c c va tag)
  | .error .away => .error (s.retry kind c tag)

/-- An agent goes on once a list of accesses can be made. -/
def State.agentWait (s : State) (kind c part tag : Nat) (need : Need) (l : List (Nat × Nat)) : AgentStep State := do
  let (s, _) ← s.agentGo kind c tag (s.agentReady part need l)
  .ok s

/-- An agent's read; where the page forbids it the value is free. -/
def State.peek (s : State) (part va n : Nat) : Nat :=
  match s.reach part .load va n with
  | .ok pa attr => if s.isReg pa attr then regRead s false (paOff pa - 0x100000000000) n else s.read pa n
  | _ => (List.range n).foldr (fun i x => (Config.agentRead (s.fresh * 2 ^ 64 + va + i)).toNat % 256 + 256 * x) 0

/-- The bytes of a page-wise read as a number. -/
def State.peekAll (s : State) (part : Nat) (l : List (Nat × Nat)) : Nat :=
  l.foldr (fun e x => s.peek part e.1 e.2 + 2 ^ (8 * e.2) * x) 0

/-- One use of the free values is over. -/
def State.bump (s : State) : State := { s with fresh := s.fresh + 1 }

/-- An agent's write; where the page forbids it nothing is written. -/
def State.poke (s : State) (part va n v : Nat) : State :=
  match s.reach part .store va n with
  | .ok pa attr => if s.isReg pa attr then regWrite s false (paOff pa - 0x100000000000) n v else s.write none pa n v
  | _ => s

/-- A list of writes: address, bytes and value. -/
def State.pokes (s : State) (part : Nat) (ws : List (Nat × Nat × Nat)) : State :=
  ws.foldl (fun s w => s.poke part w.1 w.2.1 w.2.2) s

/-! ## Frames (R303 to R305) -/

/-- A frame. -/
def State.frame? (s : State) (f : Nat) : Option Frame := s.frames.get? f
/-- Replaces a frame. -/
def State.setFrame (s : State) (f : Nat) (x : Frame) : State := { s with frames := s.frames.set f x }

/-- A field of a frame record (R304). -/
def Frame.fld (f : Frame) (off n : Nat) : Nat := fieldOf f.words off n
/-- The frame number. -/
def Frame.number (f : Frame) : Nat := f.fld 0 2
/-- S, the samples of a pixel. -/
def Frame.samples (f : Frame) : Nat := 2 ^ (f.fld 2 1)
/-- Whether tile-queue jobs dispatch the bins. -/
def Frame.byJobs (f : Frame) : Bool := f.fld 3 1 == 1
/-- W. -/
def Frame.w (f : Frame) : Nat := f.fld 4 2 + 1
/-- H. -/
def Frame.h (f : Frame) : Nat := f.fld 6 2 + 1
/-- The cluster mask. -/
def Frame.mask (f : Frame) : Nat := f.fld 8 2
/-- dfmt. -/
def Frame.dfmt (f : Frame) : Nat := f.fld 0xA 1
/-- cfmt. -/
def Frame.cfmt (f : Frame) : Nat := f.fld 0xB 1
/-- The clusters of the mask, in rising order, as package clusters. -/
def Frame.clusters (f : Frame) : List Nat := ((List.range 16).filter (bitAt f.mask)).map (· + f.die * 16)
/-- bw. -/
def Frame.bw (f : Frame) : Nat := (f.w + 255) / 256
/-- bh. -/
def Frame.bh (f : Frame) : Nat := (f.h + 255) / 256
/-- The bins of a frame. -/
def Frame.bins (f : Frame) : Nat := f.bw * f.bh
/-- The colour texel size. -/
def Frame.cz (f : Frame) : Nat := if f.cfmt = 1 then 8 else 4
/-- The depth texel size. -/
def Frame.dz (f : Frame) : Nat := if f.dfmt = 0 then 0 else 4
/-- Whether a phase of the frame loads from the targets (R304, R312). -/
def Frame.loads (f : Frame) : Bool := f.fld 0xE 1 == 1 || f.partials > 0

/-- The bytes of a frame record that hold its device fields (R304). -/
def Frame.deviceSpan (f : Frame) : List (Nat × Nat) := [(f.addr + 0x68, 16)]

/-- An agent goes on once the device fields of a frame's record can be written (R302, R304). -/
def State.recordWait (s : State) (kind c tag : Nat) (f : Frame) : AgentStep State := s.agentWait kind c f.part tag .store f.deviceSpan

/-- Sets a device field of a frame record in memory (R304). -/
def State.devField (s : State) (f : Frame) (off v : Nat) : State := s.poke f.part (f.addr + off) 4 v

/-- Changes a frame's state, in the model and in its record. -/
def State.frameState (s : State) (fid : Nat) (f : Frame) (st : Nat) : State :=
  (s.setFrame fid { f with state := st }).devField f 0x68 st

/-- Adds to a frame's rejected count, which saturates (R304, R305). -/
def State.reject (s : State) (fid n : Nat) : State :=
  match s.frame? fid with
  | none => s
  | some f =>
    let r := min (f.rejected + n) 0xFFFFFFFF
    (s.setFrame fid { f with rejected := r }).devField f 0x74 r

/-- An entry of an agent queue with no effect but one more rejection (R305), by the unit and the tag that its access to the
frame's record has. -/
def State.rejectItem (s : State) (kind c tag key seq fid : Nat) (f : Frame) : State :=
  AgentStep.state do
    let s ← s.recordWait kind c tag f
    .ok ((s.reject fid 1).processed key seq)

end Sys2Proof.Machine
end

