-- ==== Sys2Proof/Machine/Alu.lean ====
section
/-! DEFINITION. The register–register operations of major 0x01 (R86). -/
namespace Sys2Proof.Machine

/-- ADD (R86). -/
def execAdd (w : Bool) (d a b : BitVec 5) (s : State) : Host.Outcome State Fault Refusal :=
  finish s (scalarRR w d a b (aluOp 0x00) s)

/-- SUB (R86). -/
def execSub (w : Bool) (d a b : BitVec 5) (s : State) : Host.Outcome State Fault Refusal :=
  finish s (scalarRR w d a b (aluOp 0x01) s)

/-- AND (R86). -/
def execAnd (w : Bool) (d a b : BitVec 5) (s : State) : Host.Outcome State Fault Refusal :=
  finish s (scalarRR w d a b (aluOp 0x02) s)

/-- OR (R86). -/
def execOr (w : Bool) (d a b : BitVec 5) (s : State) : Host.Outcome State Fault Refusal :=
  finish s (scalarRR w d a b (aluOp 0x03) s)

/-- XOR (R86). -/
def execXor (w : Bool) (d a b : BitVec 5) (s : State) : Host.Outcome State Fault Refusal :=
  finish s (scalarRR w d a b (aluOp 0x04) s)

/-- SLL (R86). -/
def execSll (w : Bool) (d a b : BitVec 5) (s : State) : Host.Outcome State Fault Refusal :=
  finish s (scalarRR w d a b (aluOp 0x05) s)

/-- SRL (R86). -/
def execSrl (w : Bool) (d a b : BitVec 5) (s : State) : Host.Outcome State Fault Refusal :=
  finish s (scalarRR w d a b (aluOp 0x06) s)

/-- SRA (R86). -/
def execSra (w : Bool) (d a b : BitVec 5) (s : State) : Host.Outcome State Fault Refusal :=
  finish s (scalarRR w d a b (aluOp 0x07) s)

/-- SLT (R86). -/
def execSlt (w : Bool) (d a b : BitVec 5) (s : State) : Host.Outcome State Fault Refusal :=
  finish s (scalarRR w d a b (aluOp 0x08) s)

/-- SLTN (R86). -/
def execSltn (w : Bool) (d a b : BitVec 5) (s : State) : Host.Outcome State Fault Refusal :=
  finish s (scalarRR w d a b (aluOp 0x09) s)

/-- MIN (R86). -/
def execMin (w : Bool) (d a b : BitVec 5) (s : State) : Host.Outcome State Fault Refusal :=
  finish s (scalarRR w d a b (aluOp 0x0A) s)

/-- MAX (R86). -/
def execMax (w : Bool) (d a b : BitVec 5) (s : State) : Host.Outcome State Fault Refusal :=
  finish s (scalarRR w d a b (aluOp 0x0B) s)

/-- MINN (R86). -/
def execMinn (w : Bool) (d a b : BitVec 5) (s : State) : Host.Outcome State Fault Refusal :=
  finish s (scalarRR w d a b (aluOp 0x0C) s)

/-- MAXN (R86). -/
def execMaxn (w : Bool) (d a b : BitVec 5) (s : State) : Host.Outcome State Fault Refusal :=
  finish s (scalarRR w d a b (aluOp 0x0D) s)

/-- ADDW (R86). -/
def execAddw (w : Bool) (d a b : BitVec 5) (s : State) : Host.Outcome State Fault Refusal :=
  finish s (scalarRR w d a b (aluOp 0x10) s)

/-- SUBW (R86). -/
def execSubw (w : Bool) (d a b : BitVec 5) (s : State) : Host.Outcome State Fault Refusal :=
  finish s (scalarRR w d a b (aluOp 0x11) s)

/-- SLLW (R86). -/
def execSllw (w : Bool) (d a b : BitVec 5) (s : State) : Host.Outcome State Fault Refusal :=
  finish s (scalarRR w d a b (aluOp 0x15) s)

/-- SRLW (R86). -/
def execSrlw (w : Bool) (d a b : BitVec 5) (s : State) : Host.Outcome State Fault Refusal :=
  finish s (scalarRR w d a b (aluOp 0x16) s)

/-- SRAW (R86). -/
def execSraw (w : Bool) (d a b : BitVec 5) (s : State) : Host.Outcome State Fault Refusal :=
  finish s (scalarRR w d a b (aluOp 0x17) s)

end Sys2Proof.Machine
end

