-- ==== Sys2Proof/Machine/AluH.lean ====
section
/-! DEFINITION. The core-shared register forms of major 0x01 (R87, R88): a read and a write of h registers at issue. -/
namespace Sys2Proof.Machine

/-- ALU_H (R87). -/
def execAluH (w : Bool) (d a b : BitVec 5) (p : BitVec 8) (s : State) : Host.Outcome State Fault Refusal :=
  finish s do
    let s ← waitW w s
    let (x, s) ← readH s a.toNat
    let (y, s) ← readH s b.toNat
    .ok ((s.setH d.toNat (aluOp p.toNat x y)).advance 4)

/-- ADDI_H (R87). -/
def execAddiH (w : Bool) (d a : BitVec 5) (i : BitVec 11) (s : State) : Host.Outcome State Fault Refusal :=
  finish s do
    let s ← waitW w s
    let (x, s) ← readH s a.toNat
    .ok ((s.setH d.toNat (immOp 0x02 x (i.signExtend 64))).advance 4)

/-- ANDI_H (R87). -/
def execAndiH (w : Bool) (d a : BitVec 5) (i : BitVec 11) (s : State) : Host.Outcome State Fault Refusal :=
  finish s do
    let s ← waitW w s
    let (x, s) ← readH s a.toNat
    .ok ((s.setH d.toNat (immOp 0x03 x (i.signExtend 64))).advance 4)

/-- ORI_H (R87). -/
def execOriH (w : Bool) (d a : BitVec 5) (i : BitVec 11) (s : State) : Host.Outcome State Fault Refusal :=
  finish s do
    let s ← waitW w s
    let (x, s) ← readH s a.toNat
    .ok ((s.setH d.toNat (immOp 0x04 x (i.signExtend 64))).advance 4)

/-- XORI_H (R87). -/
def execXoriH (w : Bool) (d a : BitVec 5) (i : BitVec 11) (s : State) : Host.Outcome State Fault Refusal :=
  finish s do
    let s ← waitW w s
    let (x, s) ← readH s a.toNat
    .ok ((s.setH d.toNat (immOp 0x05 x (i.signExtend 64))).advance 4)

end Sys2Proof.Machine
end

