-- ==== Sys2Proof/Machine/Amo.lean ====
section
/-! DEFINITION. The scalar AMOs (R162 to R166). -/
namespace Sys2Proof.Machine

/-- AMOADD (R162). -/
def execAmoadd (w : Bool) (d a b : BitVec 5) (z : BitVec 1) (o : BitVec 5) (s : State) : Host.Outcome State Fault Refusal :=
  finish s (amoRR 0x0 w d a b z o s)

/-- AMOAND (R162). -/
def execAmoand (w : Bool) (d a b : BitVec 5) (z : BitVec 1) (o : BitVec 5) (s : State) : Host.Outcome State Fault Refusal :=
  finish s (amoRR 0x1 w d a b z o s)

/-- AMOOR (R162). -/
def execAmoor (w : Bool) (d a b : BitVec 5) (z : BitVec 1) (o : BitVec 5) (s : State) : Host.Outcome State Fault Refusal :=
  finish s (amoRR 0x2 w d a b z o s)

/-- AMOXOR (R162). -/
def execAmoxor (w : Bool) (d a b : BitVec 5) (z : BitVec 1) (o : BitVec 5) (s : State) : Host.Outcome State Fault Refusal :=
  finish s (amoRR 0x3 w d a b z o s)

/-- AMOMIN (R162). -/
def execAmomin (w : Bool) (d a b : BitVec 5) (z : BitVec 1) (o : BitVec 5) (s : State) : Host.Outcome State Fault Refusal :=
  finish s (amoRR 0x4 w d a b z o s)

/-- AMOMAX (R162). -/
def execAmomax (w : Bool) (d a b : BitVec 5) (z : BitVec 1) (o : BitVec 5) (s : State) : Host.Outcome State Fault Refusal :=
  finish s (amoRR 0x5 w d a b z o s)

/-- AMOMINN (R162). -/
def execAmominn (w : Bool) (d a b : BitVec 5) (z : BitVec 1) (o : BitVec 5) (s : State) : Host.Outcome State Fault Refusal :=
  finish s (amoRR 0x6 w d a b z o s)

/-- AMOMAXN (R162). -/
def execAmomaxn (w : Bool) (d a b : BitVec 5) (z : BitVec 1) (o : BitVec 5) (s : State) : Host.Outcome State Fault Refusal :=
  finish s (amoRR 0x7 w d a b z o s)

/-- AMOSWAP (R162). -/
def execAmoswap (w : Bool) (d a b : BitVec 5) (z : BitVec 1) (o : BitVec 5) (s : State) : Host.Outcome State Fault Refusal :=
  finish s (amoRR 0x8 w d a b z o s)

/-- CAS (R162). -/
def execCas (w : Bool) (d a b : BitVec 5) (z : BitVec 1) (o : BitVec 5) (s : State) : Host.Outcome State Fault Refusal :=
  finish s (amoRR 0x9 w d a b z o s)

/-- AMOFADD (R162). -/
def execAmofadd (w : Bool) (d a b : BitVec 5) (z : BitVec 1) (o : BitVec 5) (s : State) : Host.Outcome State Fault Refusal :=
  finish s (amoRR 0xA w d a b z o s)

/-- CAS_Q (R162, R163): 16 B, the pairs g[2d], g[2d+1] and g[2b], g[2b+1] of the fields' upper bits. -/
def execCasQ (w : Bool) (d : BitVec 4) (a : BitVec 5) (b : BitVec 4) (o : BitVec 5) (s : State) : Host.Outcome State Fault Refusal :=
  finish s do
    let s ← waitW w s
    let dn := 2 * d.toNat
    let bn := 2 * b.toNat
    let (x, s) ← readG s a.toNat
    let (y0, s) ← readG s bn
    let (y1, s) ← readG s (bn + 1)
    let (c0, s) ← readG s dn
    let (c1, s) ← readG s (dn + 1)
    let s ← amoScalar s dn x.toNat 16 0xB (y0.toNat + 2 ^ 64 * y1.toNat) (c0.toNat + 2 ^ 64 * c1.toNat) (os5Order o)
    .ok (s.advance 4)

end Sys2Proof.Machine
end

