-- ==== Sys2Proof/Machine/BitOp.lean ====
section
/-! DEFINITION. Bit operations (R93). -/
namespace Sys2Proof.Machine

/-- CLZ (R93). -/
def execClz (w : Bool) (d a : BitVec 5) (s : State) : Host.Outcome State Fault Refusal :=
  finish s (scalarR w d a 4 (bitUnary 0x00) s)

/-- CTZ (R93). -/
def execCtz (w : Bool) (d a : BitVec 5) (s : State) : Host.Outcome State Fault Refusal :=
  finish s (scalarR w d a 4 (bitUnary 0x01) s)

/-- POPC (R93). -/
def execPopc (w : Bool) (d a : BitVec 5) (s : State) : Host.Outcome State Fault Refusal :=
  finish s (scalarR w d a 4 (bitUnary 0x02) s)

/-- BREV (R93). -/
def execBrev (w : Bool) (d a : BitVec 5) (s : State) : Host.Outcome State Fault Refusal :=
  finish s (scalarR w d a 4 (bitUnary 0x03) s)

/-- BSWAP (R93). -/
def execBswap (w : Bool) (d a : BitVec 5) (s : State) : Host.Outcome State Fault Refusal :=
  finish s (scalarR w d a 4 (bitUnary 0x04) s)

/-- SEXTB (R93). -/
def execSextb (w : Bool) (d a : BitVec 5) (s : State) : Host.Outcome State Fault Refusal :=
  finish s (scalarR w d a 4 (bitUnary 0x07) s)

/-- SEXTH (R93). -/
def execSexth (w : Bool) (d a : BitVec 5) (s : State) : Host.Outcome State Fault Refusal :=
  finish s (scalarR w d a 4 (bitUnary 0x08) s)

/-- SEXTW (R93). -/
def execSextw (w : Bool) (d a : BitVec 5) (s : State) : Host.Outcome State Fault Refusal :=
  finish s (scalarR w d a 4 (bitUnary 0x09) s)

/-- ZEXTW (R93). -/
def execZextw (w : Bool) (d a : BitVec 5) (s : State) : Host.Outcome State Fault Refusal :=
  finish s (scalarR w d a 4 (bitUnary 0x0A) s)

/-- CLZW (R93). -/
def execClzw (w : Bool) (d a : BitVec 5) (s : State) : Host.Outcome State Fault Refusal :=
  finish s (scalarR w d a 4 (bitUnary 0x10) s)

/-- CTZW (R93). -/
def execCtzw (w : Bool) (d a : BitVec 5) (s : State) : Host.Outcome State Fault Refusal :=
  finish s (scalarR w d a 4 (bitUnary 0x11) s)

/-- POPCW (R93). -/
def execPopcw (w : Bool) (d a : BitVec 5) (s : State) : Host.Outcome State Fault Refusal :=
  finish s (scalarR w d a 4 (bitUnary 0x12) s)

/-- ROL (R93). -/
def execRol (w : Bool) (d a b : BitVec 5) (s : State) : Host.Outcome State Fault Refusal :=
  finish s (scalarRR w d a b (bitBinary 0x05) s)

/-- ROR (R93). -/
def execRor (w : Bool) (d a b : BitVec 5) (s : State) : Host.Outcome State Fault Refusal :=
  finish s (scalarRR w d a b (bitBinary 0x06) s)

/-- BEXT (R93). -/
def execBext (w : Bool) (d a b : BitVec 5) (s : State) : Host.Outcome State Fault Refusal :=
  finish s (scalarRR w d a b (bitBinary 0x0B) s)

/-- BDEP (R93). -/
def execBdep (w : Bool) (d a b : BitVec 5) (s : State) : Host.Outcome State Fault Refusal :=
  finish s (scalarRR w d a b (bitBinary 0x0C) s)

end Sys2Proof.Machine
end

