-- ==== Sys2Proof/Machine/Mesh.lean ====
section
/-! DEFINITION. The mesh distributor (R306 to R312): snapping, binning into lists in memory, list overflow, and the partial
render. -/
namespace Sys2Proof.Machine

/-! ## Primitives (R306 to R308) -/

/-- The nearest integer to a value, ties to even, or none for NaN and infinities. -/
def nearestInt : Val → Option Int
  | .nan => none
  | .inf _ => none
  | .zero _ => some 0
  | .fin s p q =>
    let m := if roundUp .rne s (p / q) (p % q) q then p / q + 1 else p / q
    some (if s then -(m : Int) else m)

/-- A coordinate in 1/256 px, or none where it is not finite or too large (R307). -/
def snap (b : Nat) : Option Int :=
  (nearestInt ((fp b).times (.fin false 256 1))).bind (fun x => if x.natAbs > 2 ^ 24 then none else some x)

/-- E_ij(P) of R317, which for the third vertex is A of R307. -/
def edge (a b p : Int × Int) : Int := (b.1 - a.1) * (p.2 - a.2) - (b.2 - a.2) * (p.1 - a.1)

/-- The least and the greatest of three numbers. -/
def span3 (a b c : Int) : Int × Int := (min a (min b c), max a (max b c))

/-- The range of bins that an extent meets, clamped to `n` bins, or none where it is empty (R308). -/
def binRange (lo hi : Int) (n : Nat) : Option (Nat × Nat) :=
  let a := lo / 65536
  let b := hi / 65536
  if b < 0 || a ≥ n then none else some (a.toNat, min b.toNat (n - 1))

/-- What becomes of a TRI (R307, R308). -/
inductive Snapped where
  | discarded
  | empty
  | prim (p : Prim)
  deriving DecidableEq, Repr

/-- A mesh entry's primitive for a frame (R306 to R308). -/
def snapPrim (f : Frame) (seq x : Nat) : Snapped :=
  let v (i k : Nat) : Nat := fieldOf x (8 + 12 * i + 4 * k) 4
  let cull := fieldOf x 1 1
  if (List.range 3).any (fun i => (fp (v i 2)).bad) then .discarded
  else match snap (v 0 0), snap (v 0 1), snap (v 1 0), snap (v 1 1), snap (v 2 0), snap (v 2 1) with
    | some x0, some y0, some x1, some y1, some x2, some y2 =>
      let a := edge (x0, y0) (x1, y1) (x2, y2)
      if a = 0 || (bitAt cull 0 && a > 0) || (bitAt cull 1 && a < 0) then .discarded
      else
        let p0 := (x0, y0)
        let (p1, p2, z1, z2) :=
          if a < 0 then ((x2, y2), (x1, y1), v 2 2, v 1 2) else ((x1, y1), (x2, y2), v 1 2, v 2 2)
        let (lx, hx) := span3 x0 x1 x2
        let (ly, hy) := span3 y0 y1 y2
        match binRange lx hx f.bw, binRange ly hy f.bh with
        | some (bx0, bx1), some (by0, by1) =>
          .prim { seq := seq, data := fieldOf x 4 4, xs := [p0, p1, p2], zs := [v 0 2, z1, z2], box := (bx0, by0, bx1, by1) }
        | _, _ => .empty
    | _, _, _, _, _, _ => .discarded

/-- Whether a primitive's box contains a bin. -/
def Prim.inBin (p : Prim) (bx by_ : Nat) : Bool :=
  let (x0, y0, x1, y1) := p.box
  x0 ≤ bx && bx ≤ x1 && y0 ≤ by_ && by_ ≤ y1

/-- The index of the wide list (R308, R309). -/
def Frame.wide (f : Frame) : Nat := f.bins
/-- The index of the primitive store's chain. -/
def Frame.store (f : Frame) : Nat := f.bins + 1

/-- The lists that a primitive's record address goes to (R308). -/
def Frame.listsOf (f : Frame) (p : Prim) : List Nat :=
  let (x0, y0, x1, y1) := p.box
  if (x1 + 1 - x0) * (y1 + 1 - y0) ≤ 4 then
    (List.range (y1 + 1 - y0)).flatMap (fun j => (List.range (x1 + 1 - x0)).map (fun i => (y0 + j) * f.bw + x0 + i))
  else [f.wide]

/-! ## Lists (R309, R310) -/

/-- The entries of a chain's chunk, the size of an entry, and the offset of its link word. -/
def Frame.shape (f : Frame) (c : Nat) : Nat × Nat × Nat := if c = f.store then (63, 64, 0xFC0) else (510, 8, 0xFF0)
/-- The address of a list's entry in the bin head table. -/
def Frame.headAddr (f : Frame) (c : Nat) : Nat := f.fld 0x40 8 + 16 * c
/-- A chain as it stands. -/
def Frame.chain (f : Frame) (c : Nat) : Option Chain := f.chains.get? c

/-- The cluster whose supervisor receives a distributor's records (R302). -/
def Frame.lowest (f : Frame) : Nat := f.clusters.headD (f.die * 16)

/-- The result of appending to a chain. -/
inductive Append where
  /-- The frame after it, the writes it makes, and where the entry lies. -/
  | ok (f : Frame) (ws : List (Nat × Nat × Nat)) (at_ : Nat)
  /-- No chunk is left: the trap value of the bin-overflow fault (R310). -/
  | full (tval : Nat)

/-- The writes of an entry at the end of a chain that has a chunk, and of its counts (R309). -/
def Frame.entryWrites (f : Frame) (c : Nat) (ch : Chain) (v : Nat) : List (Nat × Nat × Nat) :=
  let (_, sz, link) := f.shape c
  (ch.tail + sz * ch.used, sz, v) ::
    (if c = f.store then []
     else [(ch.tail + link + 8, 8, ch.used + 1), (f.headAddr c + 8, 8, ch.total + 1)])

/-- The writes that begin a chunk and link it to its chain (R309). -/
def Frame.chunkWrites (f : Frame) (c : Nat) (old : Option Chain) (a : Nat) : List (Nat × Nat × Nat) :=
  let (_, _, link) := f.shape c
  let tail := if c = f.store then [(a + link, 64, 0)] else [(a + link, 16, 0)]
  match old with
  | some ch => (ch.tail + link, 8, a) :: tail
  | none => if c = f.store then tail else (f.headAddr c, 8, a) :: tail

/-- Appends an entry to a chain: `grant` is a chunk that the supervisor has chained (R311). -/
def Frame.append (f : Frame) (c v : Nat) (grant : Option Nat) : Append :=
  let (room, sz, link) := f.shape c
  let put (f : Frame) (ch : Chain) (ws : List (Nat × Nat × Nat)) : Append :=
    let f' := { f with chains := f.chains.set c { ch with used := ch.used + 1, total := ch.total + 1 } }
    .ok f' (ws ++ f.entryWrites c ch v) (ch.tail + sz * ch.used)
  let fresh (f : Frame) (a : Nat) : Append :=
    put f { tail := a, used := 0, total := ((f.chain c).map Chain.total).getD 0 } (f.chunkWrites c (f.chain c) a)
  let more : Append :=
    match grant with
    | some a => fresh f a
    | none =>
      if f.nextChunk < f.fld 0x38 4 then
        fresh { f with nextChunk := f.nextChunk + 1 } (f.fld 0x30 8 + 4096 * f.nextChunk)
      else match f.chain c with
        | some ch => .full (ch.tail + link)
        | none => .full (f.headAddr c)
  match f.chain c with
  | some ch => if ch.used < room then put f ch [] else more
  | none => more

/-- The writes that empty the bin head table: no chain begun, and no entry (R309, R312). -/
def Frame.headZeros (f : Frame) : List (Nat × Nat × Nat) := (pageCuts (f.headAddr 0) (16 * (f.bins + 1))).map (fun e => (e.1, e.2, 0))

/-! ## The distributor's steps -/

/-- The tag of the distributor's held access. -/
def meshTag (fid : Nat) : Nat := fid

/-- Holds the distributor on a record to its supervisor (R302, R310). -/
def State.meshRequest (s : State) (fid : Nat) (f : Frame) (va : Nat) : State :=
  (s.retry 4 f.lowest (meshTag fid)).agentRequest 4 f.lowest f.lowest va (meshTag fid)

/-- The distributor goes on once a list of accesses can be made (R302). -/
def State.meshWait (s : State) (fid : Nat) (f : Frame) (need : Need) (l : List (Nat × Nat)) : AgentStep State :=
  s.agentWait 4 f.lowest f.part (meshTag fid) need l

/-- One append of the primitive in hand: the state after it, and whether the distributor may go on. -/
def binStep (s : State) (fid : Nat) : State × Bool :=
  match s.frame? fid with
  | none => (s, false)
  | some f =>
    match f.hand with
    | none => (s, false)
    | some h =>
      let (c, v) := match h.place, h.todo with
        | none, _ => (f.store, h.raw)
        | some a, c :: _ => (c, a)
        | some a, [] => (f.store, a)
      match f.append c v h.grant with
      | .full tval => ((s.setFrame fid { f with hand := some { h with fault := some tval } }).meshRequest fid f tval, false)
      | .ok f' ws a =>
        match s.meshWait fid f .store (writeSpans ws) with
        | .error s => (s, false)
        | .ok s =>
          let h' : InHand := if h.place.isNone then { h with place := some a, grant := none }
            else { h with todo := h.todo.drop 1, grant := none }
          ((s.pokes f.part ws).setFrame fid { f' with hand := some h' }, true)

/-- Bins the primitive in hand as far as it goes; when it is binned its entry has been processed. -/
def binLoop (s : State) (fid key : Nat) : Nat → State
  | 0 => s
  | n + 1 =>
    match s.frame? fid with
    | none => s
    | some f =>
      match f.hand with
      | none => s
      | some h =>
        if h.place.isSome && h.todo.isEmpty then
          (s.setFrame fid { f with hand := none }).processed key h.prim.seq
        else
          let (s', go) := binStep s fid
          if go then binLoop s' fid key n else s'

/-- The steps that binning a primitive may take. -/
def binFuel (h : InHand) : Nat := h.todo.length + 3

/-- The bin-overflow fault after the supervisor's wake (R311): the word at tval is read, and only where it is 0 the control
field; a word that is no chunk's address leaves the distributor holding its primitive until the next wake. -/
def overflowRetry (s : State) (fid : Nat) (f : Frame) (h : InHand) (tval : Nat) : State :=
  AgentStep.state do
    let s ← s.meshWait fid f .load [(tval, 8)]
    let x := s.peek f.part tval 8
    if x ≠ 0 && x % 4096 = 0 then .ok (s.setFrame fid { f with hand := some { h with fault := none, grant := some x } })
    else if x ≠ 0 then .ok (({ s with holds := s.holds ++ [(unitKey 4 f.lowest, meshTag fid)] }).partError f.part)
    else
      let s ← s.meshWait fid f .load [(f.addr + 0x70, 4)]
      let ctl := s.peek f.part (f.addr + 0x70) 4
      if bitAt ctl 0 then
        let s ← s.recordWait 4 f.lowest (meshTag fid) f
        .ok ((s.frameState fid { f with rendered := [] } 2).devField f 0x70 (ctl - 1))
      else .ok (s.meshRequest fid f tval)

/-- Whether every bin of a frame's phase has been rendered and written back (R305, R312). -/
def State.phaseOver (s : State) (fid : Nat) (f : Frame) : Bool :=
  (List.range f.bins).all f.rendered.contains &&
    !s.tiles.any (fun u => u.2.tiles.any (fun t => t.frame == fid) || u.2.frag.any (fun x => x.frame == fid))

/-- Steps 3 to 6 of a partial render (R312): the lists are emptied, and the primitive in hand is binned first. -/
def partialEnd (s : State) (fid : Nat) (f : Frame) (h : InHand) : State :=
  AgentStep.state do
    let s ← s.meshWait fid f .store (writeSpans f.headZeros ++ f.deviceSpan)
    let h' : InHand := { h with place := none, todo := f.listsOf h.prim, fault := none, grant := none }
    let f' := { f with chains := [], nextChunk := 0, partials := f.partials + 1, rendered := [], hand := some h' }
    .ok (((s.pokes f.part f.headZeros).frameState fid f' 0).devField f 0x6C (f.partials + 1))

/-- The distributor empties the bin head table before it takes the frame's first entry (R309): a bin without primitives has an
entry too, and the word at the tval of a chain not yet begun is 0 until the supervisor writes it (R310, R311). -/
def emptyHeads (s : State) (fid : Nat) (f : Frame) : State :=
  AgentStep.state do
    let s ← s.meshWait fid f .store (writeSpans f.headZeros)
    .ok ((s.pokes f.part f.headZeros).setFrame fid { f with headed := true })

/-- Whether a mesh entry is rejected: another frame's (R305), or of a kind that is not TRI or END (R306). -/
def meshBad (f : Frame) (i : QItem) : Bool := fieldOf i.data 2 2 != f.number || (fieldOf i.data 0 1 != 1 && fieldOf i.data 0 1 != 2)

/-- Takes a TRI entry (R306 to R308). -/
def takeTri (s : State) (fid key : Nat) (f : Frame) (i : QItem) : State :=
  match snapPrim f i.seq i.data with
  | .discarded => s.processed key i.seq
  | .empty => s.processed key i.seq
  | .prim p =>
    let raw := setBits i.data (8 * 0x2C) 32 i.seq
    let h : InHand := { prim := p, raw := raw, place := none, todo := f.listsOf p, fault := none, grant := none }
    binLoop ((s.setItem key { i with taken := true }).setFrame fid { f with hand := some h }) fid key (binFuel h)

/-- Whether an entry is an END of a frame. -/
def isEnd (f : Frame) (i : QItem) : Bool := fieldOf i.data 2 2 == f.number && fieldOf i.data 0 1 == 2

/-- MESH_TRI (R306 to R312): a die's distributor goes on with the primitive in its hand, or takes the next entry of a mesh
queue that is no END; after DONE it takes the frame's entries without effect (log entry 59). -/
def execMeshTri (die q : Nat) (s : State) : Host.Outcome State Fault Refusal :=
  let key := aqKey 2 die q
  match (s.aqueue key).frame with
  | none => .next s
  | some fid =>
    match s.frame? fid with
    | none => .next s
    | some f =>
      if s.isHeld 4 f.lowest (meshTag fid) then .next s
      else match f.hand with
        | some h =>
          if f.state = 2 then .next (if s.phaseOver fid f then partialEnd s fid f h else s)
          else match h.fault with
            | some tval => .next (overflowRetry s fid f h tval)
            | none => .next (binLoop s fid key (binFuel h))
        | none =>
          match (s.aqueue key).head with
          | none => .next s
          | some i =>
            if f.state ≠ 3 && (f.state ≠ 0 || f.ended) then .next s
            else if !f.headed then .next (emptyHeads s fid f)
            else if meshBad f i then .next (s.rejectItem 4 f.lowest (meshTag fid) key i.seq fid f)
            else if f.state = 3 then .next (s.processed key i.seq)
            else if isEnd f i then .next s
            else .next (takeTri s fid key f i)

/-- MESH_END (R306, R313): END ends binning, and the frame is RENDERING. -/
def execMeshEnd (die q : Nat) (s : State) : Host.Outcome State Fault Refusal :=
  let key := aqKey 2 die q
  match (s.aqueue key).frame with
  | none => .next s
  | some fid =>
    match s.frame? fid, (s.aqueue key).head with
    | some f, some i =>
      if f.state ≠ 0 || f.ended || f.hand.isSome || !isEnd f i || !f.headed || s.isHeld 4 f.lowest (meshTag fid) then .next s
      else .next (AgentStep.state do
        let s ← s.recordWait 4 f.lowest (meshTag fid) f
        .ok ((s.frameState fid { f with ended := true, rendered := [] } 1).processed key i.seq))
    | _, _ => .next s

end Sys2Proof.Machine
end

