-- ==== Sys2Proof/Machine/Tiles.lean ====
section
/-! DEFINITION. The tile units (R313 to R322): jobs and marks, rasterising, the depth test, fragment records, spill and
write-back. -/
namespace Sys2Proof.Machine

/-! ## A cluster's unit and the geometry of a frame (R315, R316, R321) -/

/-- A cluster's tile unit. -/
def State.tile (s : State) (c : Nat) : TileUnit := s.tiles.getD c TileUnit.idle
/-- Replaces a cluster's tile unit. -/
def State.setTile (s : State) (c : Nat) (u : TileUnit) : State := { s with tiles := s.tiles.set c u }

/-- ⌈W ÷ 32⌉. -/
def Frame.tw (f : Frame) : Nat := (f.w + 31) / 32
/-- The fine tile of a pixel (R321). -/
def Frame.tileOf (f : Frame) (x y : Nat) : Nat := y / 32 * f.tw + x / 32
/-- The samples a fine tile holds. -/
def Frame.tileSamples (f : Frame) : Nat := 1024 * f.samples
/-- The address of a tile's spill slot. -/
def Frame.slotAddr (f : Frame) (t : Nat) : Nat := f.fld 0x48 8 + t * (f.tileSamples * (f.cz + f.dz) + 1024)
/-- The index of a sample in its tile. -/
def Frame.sampleIdx (f : Frame) (x y k : Nat) : Nat := (y % 32 * 32 + x % 32) * f.samples + k
/-- Where a sample lies in a target (R304). -/
def Frame.target (f : Frame) (base z x y k : Nat) : Nat := base + ((y * f.w + x) * f.samples + k) * z
/-- The colour target's address of a sample. -/
def Frame.colAddr (f : Frame) (x y k : Nat) : Nat := f.target (f.fld 0x10 8) f.cz x y k
/-- The depth target's address of a sample. -/
def Frame.depAddr (f : Frame) (x y k : Nat) : Nat := f.target (f.fld 0x18 8) 4 x y k
/-- The fine tiles of a bin that hold a pixel of the frame. -/
def Frame.binTiles (f : Frame) (k : Nat) : List Nat :=
  let bx := k % f.bw
  let by_ := k / f.bw
  ((List.range 64).filter (fun i => 256 * bx + 32 * (i % 8) < f.w && 256 * by_ + 32 * (i / 8) < f.h)).map
    (fun i => (8 * by_ + i / 8) * f.tw + 8 * bx + i % 8)
/-- The pixels of a fine tile with their coordinates. -/
def Frame.tilePixels (f : Frame) (t : Nat) : List (Nat × Nat) :=
  ((List.range 1024).map (fun i => (32 * (t % f.tw) + i % 32, 32 * (t / f.tw) + i / 32))).filter (fun p => p.1 < f.w && p.2 < f.h)

/-- The sample offsets within a pixel (R316). -/
def samplePoints (n : Nat) : List (Nat × Nat) :=
  match n with
  | 1 => [(8, 8)]
  | 2 => [(4, 4), (12, 12)]
  | 4 => [(6, 2), (14, 6), (2, 10), (10, 14)]
  | _ => [(9, 5), (7, 11), (13, 9), (5, 3), (3, 13), (1, 7), (11, 15), (15, 1)]

/-- Sample point P (R316). -/
def samplePoint (x y : Nat) (o : Nat × Nat) : Int × Int := ((256 * x + 16 * o.1 : Nat), (256 * y + 16 * o.2 : Nat))
/-- The centre C of a pixel (R319). -/
def pixelCentre (x y : Nat) : Int × Int := ((128 + 256 * x : Nat), (128 + 256 * y : Nat))

/-! ## Coverage and depth (R317, R318) -/

/-- A vertex of a primitive. -/
def Prim.vert (p : Prim) (i : Nat) : Int × Int := p.xs.getD i (0, 0)
/-- E_ij(P) of a primitive. -/
def Prim.e (p : Prim) (i j : Nat) (q : Int × Int) : Int := edge (p.vert i) (p.vert j) q
/-- Whether a point lies inside of an edge or on one that owns it (R317). -/
def Prim.inside (p : Prim) (i j : Nat) (q : Int × Int) : Bool :=
  let e := p.e i j q
  let dx := (p.vert j).1 - (p.vert i).1
  let dy := (p.vert j).2 - (p.vert i).2
  e > 0 || (e == 0 && (dy < 0 || (dy == 0 && dx > 0)))
/-- Whether a sample is covered (R317). -/
def Prim.covers (p : Prim) (q : Int × Int) : Bool := p.inside 0 1 q && p.inside 1 2 q && p.inside 2 0 q
/-- A. -/
def Prim.area (p : Prim) : Int := edge (p.vert 0) (p.vert 1) (p.vert 2)
/-- An FP32 pattern of a quotient by A, rounded once. -/
def Prim.overArea (p : Prim) (v : Val) : Nat := (roundTo Fp.fp32 .rne (Val.over v (Val.ofInt p.area))).1
/-- The depth at a point, unclipped (R318, R319). -/
def Prim.depth (p : Prim) (q : Int × Int) : Nat :=
  let z (i : Nat) : Val := fp (p.zs.getD i 0)
  p.overArea (Val.plus (Val.plus ((Val.ofInt (p.e 1 2 q)).times (z 0)) ((Val.ofInt (p.e 2 0 q)).times (z 1)))
    ((Val.ofInt (p.e 0 1 q)).times (z 2)))

/-- Whether a depth lies in 0 to 1 (R318). -/
def depthInRange (z : Nat) : Bool := Val.le (.zero false) (fp z) && Val.le (fp z) (Val.ofInt 1)

/-- "new dfunc stored" (R304, R318). -/
def depthTest (dfunc : Nat) (new stored : Val) : Bool :=
  match dfunc with
  | 0 => true
  | 1 => Val.lt new stored
  | 2 => Val.le new stored
  | 3 => Val.lt stored new
  | 4 => Val.le stored new
  | _ => Val.eqv new stored

/-- A depth as D24S8 stores it (R318). -/
def depth24 (z : Nat) : Option Nat := (nearestInt ((fp z).times (Val.ofInt 16777215))).map (fun x => x.toNat % 2 ^ 24)

/-- The stored depth after a sample that passes, or none where it does not (R318). -/
def depthUpdate (f : Frame) (z stored : Nat) : Option Nat :=
  match f.dfmt with
  | 0 => some stored
  | 1 => if depthTest (f.fld 0xC 1) (fp z) (fp stored) then some z else none
  | _ =>
    let n := (depth24 z).getD 0
    if depthTest (f.fld 0xC 1) (Val.ofInt n) (Val.ofInt (stored % 2 ^ 24 : Nat)) then some (stored / 2 ^ 24 * 2 ^ 24 + n) else none

/-- A pixel's samples against a tile (R317, R318): the tile with the depths and coverage written, and the passing mask. -/
def shadePixel (f : Frame) (p : Prim) (x y : Nat) (t : Tile) : Tile × Nat :=
  let ci := y % 32 * 32 + x % 32
  (List.range f.samples).foldl (fun (a : Tile × Nat) k =>
    let q := samplePoint x y ((samplePoints f.samples).getD k (8, 8))
    if !p.covers q then a
    else
      let z := p.depth q
      if !depthInRange z then a
      else
        let i := f.sampleIdx x y k
        match depthUpdate f z (a.1.dep.getD i 0) with
        | none => a
        | some d => ({ a.1 with dep := a.1.dep.set i d, cov := a.1.cov.set ci (a.1.cov.getD ci 0 ||| 2 ^ k) }, a.2 ||| 2 ^ k)) (t, 0)

/-- The record's fields of a pixel's fragment (R319). -/
def makeFrag (fid i : Nat) (p : Prim) (x y mask : Nat) : Frag :=
  let c := pixelCentre x y
  { frame := fid, i := i, x := x, y := y, mask := mask, seq := p.seq, data := p.data, b1 := p.overArea (Val.ofInt (p.e 2 0 c)),
    b2 := p.overArea (Val.ofInt (p.e 0 1 c)), zc := p.depth c, shade := none, item := none }

/-- The 32 bytes of a fragment record (R319). -/
def Frag.bytes (g : Frag) : Nat :=
  g.x + g.y * 2 ^ 16 + g.mask * 2 ^ 32 + g.seq * 2 ^ 64 + g.data * 2 ^ 96 + g.b1 * 2 ^ 128 + g.b2 * 2 ^ 160 + g.zc * 2 ^ 192

/-- The pixels of a bin with a covered sample (R315, R317). -/
def coveredPixels (f : Frame) (k : Nat) (p : Prim) : List (Nat × Nat) :=
  let x (i : Nat) : Int := (p.vert i).1
  let y (i : Nat) : Int := (p.vert i).2
  let (lx, hx) := span3 (x 0) (x 1) (x 2)
  let (ly, hy) := span3 (y 0) (y 1) (y 2)
  let x0 := max (256 * (k % f.bw)) (lx / 256).toNat
  let x1 := min (min (256 * (k % f.bw) + 256) f.w) ((hx / 256).toNat + 1)
  let y0 := max (256 * (k / f.bw)) (ly / 256).toNat
  let y1 := min (min (256 * (k / f.bw) + 256) f.h) ((hy / 256).toNat + 1)
  ((List.range (y1 - y0)).flatMap (fun j => (List.range (x1 - x0)).map (fun i => (x0 + i, y0 + j)))).filter (fun q =>
    (samplePoints f.samples).any (fun o => p.covers (samplePoint q.1 q.2 o)))

/-! ## Tiles (R315, R320 to R322) -/

/-- The place of a tile's colour, depth and coverage in its slot: address, bytes of an entry, and entries (R321). -/
def Frame.slotLayout (f : Frame) (t : Nat) : List (Nat × Nat × Nat) :=
  let a := f.slotAddr t
  let n := f.tileSamples
  [(a, f.cz, n), (a + n * f.cz, f.dz, n), (a + n * (f.cz + f.dz), 1, 1024)]

/-- The pieces of a slot, no longer than a page holds, for the page checks. -/
def Frame.slotSpans (f : Frame) (t : Nat) : List (Nat × Nat) := pageCuts (f.slotAddr t) (f.tileSamples * (f.cz + f.dz) + 1024)

/-- A number's bytes in pieces. -/
def piecesOf (x z n : Nat) : List Nat := (List.range n).map (fun i => fieldOf x (z * i) z)

/-- Reads a spilled tile back (R321). -/
def reloadTile (s : State) (f : Frame) (t : Tile) : Tile :=
  let part (e : Nat × Nat × Nat) : List Nat := piecesOf (s.peekAll f.part (pageCuts e.1 (e.2.1 * e.2.2))) e.2.1 e.2.2
  match f.slotLayout t.t with
  | [c, d, v] => { t with place := 0, col := part c, dep := part d, cov := part v }
  | _ => t

/-- The bytes of a tile's slot as page-wise writes (R321). -/
def slotWrites (f : Frame) (t : Tile) : List (Nat × Nat × Nat) :=
  let join (l : List Nat) (z : Nat) : Nat := l.foldr (fun v x => v + 2 ^ (8 * z) * x) 0
  let data := [t.col, t.dep, t.cov]
  ((f.slotLayout t.t).zip data).flatMap (fun e =>
    let x := join e.2 e.1.2.1
    cutWrite e.1.1 (e.1.2.1 * e.1.2.2) x)

/-- The accesses of a load of a tile from the targets (R315). -/
def Frame.targetReads (f : Frame) (t : Nat) : List (Nat × Nat) :=
  (f.tilePixels t).flatMap (fun p => (List.range f.samples).flatMap (fun k =>
    (f.colAddr p.1 p.2 k, f.cz) :: (if f.dfmt = 0 then [] else [(f.depAddr p.1 p.2 k, 4)])))

/-- A depth sample of a cleared tile: a stencil byte that the targets keep, and a clear depth outside the format, are free
values. -/
def clearDepth (s : State) (f : Frame) : Nat :=
  let free := (Config.agentRead (s.fresh * 2 ^ 64)).toNat
  match f.dfmt with
  | 1 => f.fld 0x28 4
  | 2 => if depthInRange (f.fld 0x28 4) then free % 256 * 2 ^ 24 + (depth24 (f.fld 0x28 4)).getD 0 else free % 2 ^ 32
  | _ => 0

/-- A tile that a primitive first reaches in a phase (R315). -/
def firstTile (s : State) (fid : Nat) (f : Frame) (t : Nat) : Tile :=
  let n := f.tileSamples
  let z := clearDepth s f
  let c := f.fld 0x20 8 % 2 ^ (8 * f.cz)
  let blank : Tile := { frame := fid, t := t, place := 0, done := false, col := List.replicate n c, dep := List.replicate n z,
                        cov := List.replicate 1024 0 }
  if !f.loads then blank
  else (f.tilePixels t).foldl (fun b p => (List.range f.samples).foldl (fun b k =>
    let i := f.sampleIdx p.1 p.2 k
    { b with col := b.col.set i (s.peek f.part (f.colAddr p.1 p.2 k) f.cz),
             dep := if f.dfmt = 0 then b.dep else b.dep.set i (s.peek f.part (f.depAddr p.1 p.2 k) 4) }) b) blank

/-- Whether a unit has an unapplied fragment in a tile (R320, R324). -/
def TileUnit.busy (u : TileUnit) (f : Frame) (fid t : Nat) : Bool :=
  (u.frags ++ u.frag.toList).any (fun g => g.frame == fid && f.tileOf g.x g.y == t)

/-- The tiles of a unit that are resident. -/
def TileUnit.resident (u : TileUnit) : List Tile := u.tiles.filter (fun t => t.place == 0)
/-- A tile of a unit by its frame and index. -/
def TileUnit.find (u : TileUnit) (fid t : Nat) : Option Tile := u.tiles.find? (fun x => x.frame == fid && x.t == t)
/-- A unit without a tile. -/
def TileUnit.without (u : TileUnit) (fid t : Nat) : List Tile := u.tiles.filter (fun x => !(x.frame == fid && x.t == t))
/-- A tile becomes the one that was reached last (R320). -/
def TileUnit.touch (u : TileUnit) (x : Tile) : TileUnit := { u with tiles := u.without x.frame x.t ++ [x] }

/-- A write-back's writes (R322): the samples whose coverage bit is set; with clear, every sample. -/
def backWrites (f : Frame) (t : Tile) : List (Nat × Nat × Nat) :=
  (f.tilePixels t.t).flatMap (fun p => (List.range f.samples).flatMap (fun k =>
    if f.loads && !bitAt (t.cov.getD (p.2 % 32 * 32 + p.1 % 32) 0) k then []
    else
      let i := f.sampleIdx p.1 p.2 k
      (f.colAddr p.1 p.2 k, f.cz, t.col.getD i 0) ::
        (match f.dfmt with
         | 0 => []
         | 1 => [(f.depAddr p.1 p.2 k, 4, t.dep.getD i 0)]
         | _ => [(f.depAddr p.1 p.2 k, 3, t.dep.getD i 0 % 2 ^ 24)])))

/-! ## Jobs and bins (R313, R314) -/

/-- The tags of a tile unit's held accesses: the tile loaded, a fragment record, a spill, and a write-back. -/
def tagLoad : Nat := 0
def tagFrag : Nat := 1
def tagSpill : Nat := 2
def tagBack : Nat := 3
/-- The tag of a tile queue's held access. -/
def tagJob : Nat := 4

/-- The record addresses of a list's `n` entries from a chunk on (R309), through at most `fuel` chunks. -/
def readChunks (s : State) (part : Nat) : Nat → Nat → Nat → Except Delay (List Nat)
  | 0, _, _ => .ok []
  | fuel + 1, a, n =>
    if n = 0 then .ok []
    else do
      s.agentReady part .load (pageCuts a 4096)
      let here := (List.range (min n 510)).map (fun i => s.peek part (a + 8 * i) 8)
      let rest ← readChunks s part fuel (s.peek part (a + 0xFF0) 8) (n - 510)
      .ok (here ++ rest)

/-- The primitive of a record in the primitive store (R308). -/
def readPrim (s : State) (f : Frame) (a : Nat) : Except Delay (Option Prim) := do
  s.agentReady f.part .load (pageCuts a 64)
  let r := s.peekAll f.part (pageCuts a 64)
  match snapPrim f (fieldOf r 0x2C 4) r with
  | .prim p => .ok (some p)
  | _ => .ok none

/-- The primitives of a list as its head entry gives it (R309). -/
def readList (s : State) (f : Frame) (c : Nat) : Except Delay (List Prim) := do
  s.agentReady f.part .load [(f.headAddr c, 16)]
  let n := s.peek f.part (f.headAddr c + 8) 4
  let l ← readChunks s f.part (n / 510 + 1) (s.peek f.part (f.headAddr c) 8) n
  let ps ← l.mapM (readPrim s f)
  .ok (ps.filterMap id)

/-- Two lists in ascending sequence number as one (R308). -/
def mergePrims : Nat → List Prim → List Prim → List Prim
  | fuel + 1, p :: ps, q :: qs => if p.seq ≤ q.seq then p :: mergePrims fuel ps (q :: qs) else q :: mergePrims fuel (p :: ps) qs
  | _, ps, qs => ps ++ qs

/-- The primitives of a bin in ascending sequence number: its list, merged with the part of the wide list whose box contains the
bin (R308). A primitive still in hand, which a partial render finds in some of its lists, has not been binned (R312). -/
def readBin (s : State) (f : Frame) (k : Nat) : Except Delay (List Prim) := do
  let ps ← readList s f k
  let qs ← readList s f f.wide
  let qs := qs.filter (fun p => p.inBin (k % f.bw) (k / f.bw))
  let binned (p : Prim) : Bool := f.hand.all (fun h => h.prim.seq != p.seq)
  let ps := ps.filter binned
  let qs := qs.filter binned
  .ok (mergePrims (ps.length + qs.length) ps qs)

/-- Whether a bin has been rendered in this phase, or a unit renders it. -/
def State.binTaken (s : State) (fid : Nat) (f : Frame) (k : Nat) : Bool :=
  f.rendered.contains k || s.tiles.any (fun u => match u.2.bin with
    | some (g, j, _) => g == fid && j == k
    | none => false)

/-- A unit begins a bin once it can read the bin's lists and records. -/
def State.startBin (s : State) (c tag fid : Nat) (f : Frame) (k : Nat) (job : Option (Nat × Nat)) : AgentStep State := do
  let (s, ps) ← s.agentGo 3 c tag (readBin s f k)
  .ok (s.setTile c { s.tile c with bin := some (fid, k, job), prims := ps, cur := none, pixels := [] }).bump

/-- The bound frame of an agent queue with its identity, and the entry the agent comes to. -/
def State.queueHead (s : State) (key : Nat) : Option (Nat × Frame × QItem) :=
  match (s.aqueue key).frame with
  | none => none
  | some fid => match s.frame? fid, (s.aqueue key).head with
    | some f, some i => some (fid, f, i)
    | _, _ => none

/-- TILE_JOB (R305, R314): a tile queue's next entry, where it is no MARK. -/
def execTileJob (cluster q : Nat) (s : State) : Host.Outcome State Fault Refusal :=
  let key := aqKey 0 cluster q
  match s.queueHead key with
  | none => .next s
  | some (fid, f, i) =>
    let k := fieldOf i.data 4 4
    let reject := s.rejectItem 3 cluster tagJob key i.seq fid f
    if s.isHeld 3 cluster tagJob then .next s
    else if fieldOf i.data 2 2 ≠ f.number then .next reject
    else if fieldOf i.data 0 1 = 2 then .next s
    else if fieldOf i.data 0 1 ≠ 1 || !f.byJobs || k ≥ f.bins then .next reject
    else if f.state = 0 || f.state = 2 then .next s
    else if s.binTaken fid f k then .next reject
    else if f.state ≠ 1 || (s.tile cluster).bin.isSome then .next s
    else .next (AgentStep.state do
      let s ← s.startBin cluster tagJob fid f k (some (key, i.seq))
      .ok (s.setItem key { i with taken := true }))

/-- TILE_MARK (R314). -/
def execTileMark (cluster q : Nat) (s : State) : Host.Outcome State Fault Refusal :=
  let key := aqKey 0 cluster q
  match s.queueHead key with
  | none => .next s
  | some (_, f, i) =>
    let first := match (s.aqueue key).items with
      | x :: _ => x.seq == i.seq
      | [] => false
    if fieldOf i.data 2 2 = f.number && fieldOf i.data 0 1 = 2 && first && !s.dev.tripped then .next (s.processed key i.seq) else .next s

/-- The bin that a cluster's unit takes by itself (R312, R313): its lowest not yet rendered, of the first frame with one. -/
def State.autoBin (s : State) (c : Nat) : Option (Nat × Frame × Nat) :=
  s.frames.findSome? (fun e =>
    let f := e.2
    if f.state = 2 || (f.state = 1 && !f.byJobs) then
      let cs := f.clusters
      ((List.range f.bins).find? (fun k => cs.getD (k % cs.length) 0 == c && !f.rendered.contains k)).map (fun k => (e.1, f, k))
    else none)

/-- A bin's primitives are exhausted (R322): its tiles await write-back, those never reached too where the phase clears. -/
def State.endBin (s : State) (c fid : Nat) (f : Frame) (k : Nat) (job : Option (Nat × Nat)) : State :=
  let u := s.tile c
  let ts := f.binTiles k
  let old := u.tiles.map (fun t => if t.frame = fid && ts.contains t.t then { t with done := true } else t)
  let new : List Tile := if f.loads then []
    else (ts.filter (fun t => (u.find fid t).isNone)).map (fun t => { frame := fid, t := t, place := 2, done := true, col := [], dep := [], cov := [] })
  let s := (s.setTile c { u with bin := none, cur := none, tiles := old ++ new }).setFrame fid { f with rendered := f.rendered ++ [k] }
  match job with
  | some (key, seq) => s.processed key seq
  | none => s

/-- The pixel that a unit rasterises next, any of its primitive's (R315). -/
def State.nextPixel (s : State) (u : TileUnit) : Nat × Nat := u.pixels.getD (Config.pixelPick s.fresh % u.pixels.length) (0, 0)

/-- One pixel of the primitive in hand: its tile is made resident, or the pixel is tested (R315, R318). -/
def renderPixel (s : State) (c fid : Nat) (f : Frame) (p : Prim) : State :=
  let u := s.tile c
  let (x, y) := s.nextPixel u
  let t := f.tileOf x y
  let load (l : List (Nat × Nat)) (x : Tile) : State :=
    if u.resident.length ≥ 4 then s
    else AgentStep.state do
      let s ← s.agentWait 3 c f.part tagLoad .load l
      .ok (s.setTile c (u.touch x)).bump
  match u.find fid t with
  | none => load (if f.loads then f.targetReads t else []) (firstTile s fid f t)
  | some b =>
    if b.place ≠ 0 then load (f.slotSpans t) (reloadTile s f b)
    else
      let (b', mask) := shadePixel f p x y b
      let u' := { u.touch b' with pixels := u.pixels.filter (· != (x, y)),
                                  frag := if mask = 0 then none else some (makeFrag fid (u.counts.getD fid 0) p x y mask) }
      ((s.retry 3 c tagLoad).setTile c u').bump

/-- BIN_RENDER (R313, R315): a unit takes a bin, its next primitive, or one pixel further. -/
def execBinRender (cluster : Nat) (s : State) : Host.Outcome State Fault Refusal :=
  let u := s.tile cluster
  if u.frag.isSome || s.isHeld 3 cluster tagLoad then .next s
  else match u.bin with
    | none => match s.autoBin cluster with
      | some (fid, f, k) => .next (s.startBin cluster tagLoad fid f k none).state
      | none => .next s
    | some (fid, k, job) =>
      match s.frame? fid with
      | none => .next s
      | some f =>
        match u.cur, u.pixels, u.prims with
        | some p, _ :: _, _ => .next (renderPixel s cluster fid f p)
        | _, _, p :: ps => .next (s.setTile cluster { u with prims := ps, cur := some p, pixels := coveredPixels f k p })
        | _, _, [] => .next (s.endBin cluster fid f k job)

/-! ## Spill, records and write-back (R319 to R322) -/

/-- TILE_SPILL (R320, R321): the next pixel needs a fifth tile. -/
def execTileSpill (cluster : Nat) (s : State) : Host.Outcome State Fault Refusal :=
  let u := s.tile cluster
  match u.bin with
  | none => .next s
  | some (fid, _, _) =>
    match s.frame? fid with
    | none => .next s
    | some f =>
      let (x, y) := s.nextPixel u
      let needs := match u.find fid (f.tileOf x y) with
        | some b => b.place != 0
        | none => true
      if s.isHeld 3 cluster tagSpill then .next s
      else if u.frag.isSome || u.pixels.isEmpty || u.resident.length < 4 || !needs then .next (s.retry 3 cluster tagSpill)
      else match u.resident.findSome? (fun b => match s.frame? b.frame with
          | some g => if u.busy g b.frame b.t then none else some (g, b)
          | none => none) with
        | none => .next s
        | some (g, b) =>
          let ws := if b.done then backWrites g b else slotWrites g b
          let rest := u.without b.frame b.t
          let kept : Tile := { b with place := 1, col := [], dep := [], cov := [] }
          .next (AgentStep.state do
            let s ← s.agentWait 3 cluster g.part tagSpill .store (writeSpans ws)
            .ok ((s.pokes g.part ws).setTile cluster { u with tiles := if b.done then rest else kept :: rest }))

/-- FRAGMENT_WRITE (R319): the record is written once its ring slot is free, the fragment is registered, and limit rises. -/
def execFragmentWrite (cluster : Nat) (s : State) : Host.Outcome State Fault Refusal :=
  let u := s.tile cluster
  match u.frag with
  | none => .next s
  | some g =>
    match s.frame? g.frame with
    | none => .next s
    | some f =>
      let n := 2 ^ f.fld 0x2E 1
      let ring := f.fld 0x50 8 + cluster % 16 * n * 32 + g.i % n * 32
      let claim := f.fld 0x58 8 + 16 * (cluster % 16) + 8
      let ws := cutWrite ring 32 g.bytes ++ cutWrite claim 8 (g.i + 1)
      if u.frags.any (fun h => h.frame == g.frame && h.i + n == g.i) || s.isHeld 3 cluster tagFrag then .next s
      else .next (AgentStep.state do
        let s ← s.agentWait 3 cluster f.part tagFrag .store (writeSpans ws)
        .ok ((s.pokes f.part ws).setTile cluster
          { u with frag := none, frags := u.frags ++ [g], counts := u.counts.set g.frame (g.i + 1) }))

/-- TILE_WRITEBACK (R322): the unit's tile `tile`, in its list of tiles. -/
def execTileWriteback (cluster tile : Nat) (s : State) : Host.Outcome State Fault Refusal :=
  let u := s.tile cluster
  match u.tiles[tile]? with
  | none => .next s
  | some b =>
    match s.frame? b.frame with
    | none => .next s
    | some f =>
      if !b.done || u.busy f b.frame b.t || s.isHeld 3 cluster tagBack then .next s
      else .next (AgentStep.state do
        let s ← s.agentWait 3 cluster f.part tagBack .load (if b.place = 1 then f.slotSpans b.t else [])
        let full := match b.place with
          | 0 => b
          | 1 => reloadTile s f b
          | _ => firstTile s b.frame f b.t
        let ws := backWrites f full
        let s ← s.agentWait 3 cluster f.part tagBack .store (writeSpans ws)
        .ok ((s.pokes f.part ws).setTile cluster { u with tiles := u.without b.frame b.t }).bump)

end Sys2Proof.Machine
end

