-- ==== Sys2Proof/Machine/Blend.lean ====
section
/-! DEFINITION. The blend stages (R323 to R326) and the end of a frame (R303, R305). -/
namespace Sys2Proof.Machine

/-! ## Blending one sample (R326) -/

/-- The nearest integer of n ÷ 255, ties to even. -/
def near255 (n : Nat) : Int := (nearestInt (Val.frac false n 255)).getD 0

/-- One channel of RGBA8 UNORM, as codes. -/
def blend8 (bop s d sa : Nat) : Nat :=
  match bop with
  | 0 => s
  | 1 => (satN (near255 (255 * s + d * (255 - sa))) 8).toNat
  | 2 => min (s + d) 255
  | 3 => min s d
  | _ => max s d

/-- One channel of a floating-point colour before its rounding. -/
def blendVal (bop : Nat) (s d sa : Val) : Val :=
  match bop with
  | 0 => s
  | 1 => Val.plus s (d.times ((Val.ofInt 1).sub sa))
  | 2 => Val.plus s d
  | 3 => Val.min2 s d
  | _ => Val.max2 s d

/-- A sample `d` with the source `s` (R326). -/
def blend (cfmt bop s d : Nat) : Nat :=
  match cfmt with
  | 0 => (List.range 4).foldl (fun x k => x + blend8 bop (bitsOf s (8 * k) 8) (bitsOf d (8 * k) 8) (bitsOf s 24 8) * 2 ^ (8 * k)) 0
  | 1 =>
    let v (x k : Nat) : Val := decodeFp Fp.fp16 (bitsOf x (16 * k) 16)
    (List.range 4).foldl (fun x k => x + (roundTo Fp.fp16 .rne (blendVal bop (v s k) (v d k) (v s 3))).1 * 2 ^ (16 * k)) 0
  | _ => (roundTo Fp.fp32 .rne (blendVal (if bop = 1 then 0 else bop) (fp s) (fp d) (.zero false))).1

/-! ## Entries (R323, R324) -/

/-- The tag of a blend stage's held access. -/
def tagBlend : Nat := 16

/-- Whether an entry is rejected whole: another frame's (R305), or malformed (R323). -/
def blendBad (f : Frame) (x : Nat) : Bool :=
  let kind := fieldOf x 0 1
  let count := fieldOf x 1 1
  fieldOf x 2 2 != f.number || (kind != 1 && kind != 2) || count == 0 || count > 16 || fieldOf x 8 8 % 32 != 0

/-- The pixel records of an entry: their addresses. -/
def pixelAddrs (x : Nat) : List Nat := (List.range (fieldOf x 1 1)).map (fun p => fieldOf x 8 8 + 32 * p)

/-- An ORDERED pixel: it matches a registration that awaits its shading, or is rejected (R323, R324). The other components
count the matches and the rejections. -/
def orderedPixel (f : Frame) (fid c key seq : Nat) (a : State × Nat × Nat) (va : Nat) : State × Nat × Nat :=
  let (s, n, r) := a
  match s.reach f.part .load va 32 with
  | .ok _ _ =>
    let x := s.peek f.part va 32
    let u := s.tile c
    if u.frags.any (fun g => g.frame == fid && g.i == fieldOf x 8 4 && g.shade.isNone) then
      let frags := u.frags.map (fun g => if g.frame = fid && g.i = fieldOf x 8 4 then
        { g with shade := some (fieldOf x 4 1 &&& g.mask, fieldOf x 0x10 8), item := some (key, seq) } else g)
      (s.setTile c { u with frags := frags }, n + 1, r)
    else (s, n, r + 1)
  | _ => (s, n, r + 1)

/-- The blend stage goes on once it can read an entry's pixel records (R302, R323). -/
def State.pixelWait (s : State) (c : Nat) (f : Frame) (x : Nat) : AgentStep State :=
  s.agentWait 3 c f.part tagBlend .load ((pixelAddrs x).map (fun a => (a, 32)))

/-- Takes an ORDERED entry and matches its pixels. -/
def takeOrdered (s : State) (c fid : Nat) (f : Frame) (key : Nat) (i : QItem) : State :=
  AgentStep.state do
    let s ← s.pixelWait c f i.data
    let (t, n, r) := (pixelAddrs i.data).foldl (orderedPixel f fid c key i.seq) (s, 0, 0)
    if r ≠ 0 then
      let _ ← s.recordWait 3 c tagBlend f
    let t := if r = 0 then t else t.reject fid r
    .ok (if n = 0 then t.processed key i.seq else t.setItem key { i with taken := true, left := n })

/-- BLEND_ORDERED (R323, R324): the blend stage takes a queue's next entry and matches its pixels, or rejects the entry whole. -/
def execBlendOrdered (cluster q : Nat) (s : State) : Host.Outcome State Fault Refusal :=
  let key := aqKey 1 cluster q
  match s.queueHead key with
  | none => .next s
  | some (fid, f, i) =>
    if s.isHeld 3 cluster tagBlend then .next s
    else if blendBad f i.data then .next (s.rejectItem 3 cluster tagBlend key i.seq fid f)
    else if fieldOf i.data 0 1 ≠ 1 then .next s
    else .next (takeOrdered s cluster fid f key i)

/-- Whether a fragment of a unit may be applied: it is shaded, and none registered earlier at its pixel remains (R324). -/
def TileUnit.applicable (u : TileUnit) (n : Nat) : Option (Frag × Nat × Nat) :=
  match u.frags[n]? with
  | some g => match g.shade with
    | some (m, col) =>
      if (u.frags.take n).any (fun h => h.frame == g.frame && h.x == g.x && h.y == g.y) then none else some (g, m, col)
    | none => none
  | none => none

/-- A tile with a fragment's colour blended into the samples of a mask (R326). -/
def blendTile (f : Frame) (t : Tile) (g : Frag) (m col : Nat) : Tile :=
  let ci := g.y % 32 * 32 + g.x % 32
  (List.range f.samples).foldl (fun t k =>
    if !bitAt m k then t
    else
      let i := f.sampleIdx g.x g.y k
      { t with col := t.col.set i (blend f.cfmt (f.fld 0xD 1) (col % 2 ^ (8 * f.cz)) (t.col.getD i 0)),
               cov := t.cov.set ci (t.cov.getD ci 0 ||| 2 ^ k) }) t

/-- An entry has one pixel less to wait for. -/
def State.pixelDone (s : State) (item : Option (Nat × Nat)) : State :=
  match item with
  | none => s
  | some (key, seq) => match (s.aqueue key).items.find? (fun i => i.seq == seq) with
    | none => s
    | some i => if i.left ≤ 1 then s.processed key seq else s.setItem key { i with left := i.left - 1 }

/-- BLEND_APPLY (R324, R326): the unit's fragment `n`, in its list of registrations. -/
def execBlendApply (cluster n : Nat) (s : State) : Host.Outcome State Fault Refusal :=
  let u := s.tile cluster
  match u.applicable n with
  | none => .next s
  | some (g, m, col) =>
    match s.frame? g.frame with
    | none => .next s
    | some f =>
      if s.isHeld 3 cluster tagBlend then .next s
      else
        let t := f.tileOf g.x g.y
        let tiles := u.tiles.map (fun b => if b.frame = g.frame && b.t = t then blendTile f b g m col else b)
        .next ((s.setTile cluster { u with tiles := tiles, frags := u.frags.eraseIdx n }).pixelDone g.item)

/-! ## DIRECT (R325) -/

/-- Whether a pixel lies in the frame and in a tile of it that is resident or spilled. -/
def State.tileHeld (s : State) (fid : Nat) (f : Frame) (x y : Nat) : Bool :=
  x < f.w && y < f.h && s.tiles.any (fun u => u.2.tiles.any (fun t => t.frame == fid && t.place < 2 && t.t == f.tileOf x y))

/-- The pixel records of a DIRECT entry that can be read. -/
def readablePixels (s : State) (f : Frame) (x : Nat) : List Nat :=
  (pixelAddrs x).filterMap (fun va => match s.reach f.part .load va 32 with
    | .ok _ _ => some (s.peek f.part va 32)
    | _ => none)

/-- The samples that a DIRECT pixel record writes, by address. -/
def directTargets (f : Frame) (r : Nat) : List (Nat × Nat) :=
  ((List.range f.samples).filter (bitAt (fieldOf r 4 1))).map (fun k => (f.colAddr (fieldOf r 0 2) (fieldOf r 2 2) k, f.cz))

/-- A DIRECT pixel with no effect but one more rejection. -/
def rejectPixel (s : State) (c fid : Nat) (f : Frame) : AgentStep State := do
  let s ← s.recordWait 3 c tagBlend f
  .ok (s.reject fid 1)

/-- Applies DIRECT pixel `p` of an entry to target memory (R325); its record's page is no reason to wait. -/
def directPixel (s : State) (c fid : Nat) (f : Frame) (x p : Nat) : AgentStep State :=
  let va := fieldOf x 8 8 + 32 * p
  match s.reach f.part .load va 32 with
  | .ok _ _ => do
    let r := s.peek f.part va 32
    if fieldOf r 0 2 ≥ f.w || fieldOf r 2 2 ≥ f.h then rejectPixel s c fid f
    else
      let ts := directTargets f r
      let s ← s.agentWait 3 c f.part tagBlend .update ts
      let bad := ts.any (fun e => match s.reach f.part .update e.1 e.2 with
        | .ok _ _ => false
        | _ => true)
      if bad then rejectPixel s c fid f
      else .ok (ts.foldl (fun s e =>
        s.poke f.part e.1 e.2 (blend f.cfmt (f.fld 0xD 1) (fieldOf r 0x10 8 % 2 ^ (8 * f.cz)) (s.peek f.part e.1 e.2))) s)
  | .held => .error s
  | _ => rejectPixel s c fid f

/-- Goes on with a DIRECT entry at its pixel `left`. -/
def directLoop (c fid : Nat) (f : Frame) (key : Nat) (i : QItem) : Nat → State → State
  | 0, s => s.processed key i.seq
  | n + 1, s =>
    let p := fieldOf i.data 1 1 - (n + 1)
    match directPixel s c fid f i.data p with
    | .error s' => s'.setItem key { i with left := p }
    | .ok s' => directLoop c fid f key i n s'

/-- BLEND_DIRECT (R325): a queue's next entry, where it is DIRECT: all its records are read before the first pixel is applied,
since a pixel in a tile of the frame holds the whole entry. -/
def execBlendDirect (cluster q : Nat) (s : State) : Host.Outcome State Fault Refusal :=
  let key := aqKey 1 cluster q
  match s.queueHead key with
  | none => .next s
  | some (fid, f, i) =>
    if s.isHeld 3 cluster tagBlend || blendBad f i.data || fieldOf i.data 0 1 ≠ 2 then .next s
    else .next (AgentStep.state do
      let s ← s.pixelWait cluster f i.data
      if (readablePixels s f i.data).any (fun r => s.tileHeld fid f (fieldOf r 0 2) (fieldOf r 2 2)) then .ok s
      else .ok (directLoop cluster fid f key i (fieldOf i.data 1 1 - i.left) s))

/-! ## The end of a frame (R303, R305) -/

/-- Raises an MSI-X vector of a function (R356). -/
def State.raiseIrq (s : State) (fn vec : Nat) : State := { s with dev := { s.dev with irqs := s.dev.irqs ++ [(fn, vec)] } }

/-- Decrements a signal by 1 where its page can be written (R305). -/
def State.decrement (s : State) (part va : Nat) : State :=
  match s.reach part .update va 8 with
  | .ok _ _ => s.poke part va 8 ((s.peek part va 8 + (2 ^ 64 - 1)) % 2 ^ 64)
  | _ => s

/-- FRAME_DONE (R305). -/
def execFrameDone (frame : Nat) (s : State) : Host.Outcome State Fault Refusal :=
  match s.frame? frame with
  | none => .next s
  | some f =>
    let sig := f.fld 0x60 8
    if f.state ≠ 1 || !f.ended || !s.phaseOver frame f || s.isHeld 4 f.lowest (meshTag frame) ||
      s.agentHeld f.part .update (if sig = 0 then [] else [(sig, 8)]) then .next s
    else .next (AgentStep.state do
      let s ← s.recordWait 4 f.lowest (meshTag frame) f
      let s := s.frameState frame f 3
      .ok ((if sig = 0 then s else s.decrement f.part sig).raiseIrq (f.part + 1) 2))

/-- The agent queues that a frame binds (R303). -/
def Frame.queues (f : Frame) : List Nat :=
  aqKey 2 f.die (f.fld 0xF 1) :: f.clusters.flatMap (fun c => [aqKey 0 c (f.fld 0x2C 1), aqKey 1 c (f.fld 0x2D 1)])

/-- FRAME_UNBIND (R303): a DONE frame whose launches have completed. -/
def execFrameUnbind (frame : Nat) (s : State) : Host.Outcome State Fault Refusal :=
  match s.frame? frame with
  | none => .next s
  | some f =>
    if f.state ≠ 3 || s.launches.any (fun e => !e.2.done && e.2.frames.contains frame) then .next s
    else
      let s := f.queues.foldl (fun s k => s.setAqueue k { s.aqueue k with frame := none }) s
      .next { s with frames := s.frames.erase frame }

end Sys2Proof.Machine
end

