-- ==== Sys2Proof/Machine/Branch.lean ====
section
/-! DEFINITION. Branches and jumps (R101, R102). The fetch at the new PC is checked at the next turn (R103). -/
namespace Sys2Proof.Machine

/-- BEQ (R101). -/
def execBeq (w : Bool) (o : BitVec 15) (a b : BitVec 5) (s : State) : Host.Outcome State Fault Refusal :=
  finish s (branch 0x18 w o a b s)

/-- BNE (R101). -/
def execBne (w : Bool) (o : BitVec 15) (a b : BitVec 5) (s : State) : Host.Outcome State Fault Refusal :=
  finish s (branch 0x19 w o a b s)

/-- BLT (R101). -/
def execBlt (w : Bool) (o : BitVec 15) (a b : BitVec 5) (s : State) : Host.Outcome State Fault Refusal :=
  finish s (branch 0x1A w o a b s)

/-- BGE (R101). -/
def execBge (w : Bool) (o : BitVec 15) (a b : BitVec 5) (s : State) : Host.Outcome State Fault Refusal :=
  finish s (branch 0x1B w o a b s)

/-- BLTN (R101). -/
def execBltn (w : Bool) (o : BitVec 15) (a b : BitVec 5) (s : State) : Host.Outcome State Fault Refusal :=
  finish s (branch 0x1C w o a b s)

/-- BGEN (R101). -/
def execBgen (w : Bool) (o : BitVec 15) (a b : BitVec 5) (s : State) : Host.Outcome State Fault Refusal :=
  finish s (branch 0x1D w o a b s)

/-- CALL (R102). -/
def execCall (w : Bool) (d : BitVec 5) (o : BitVec 20) (s : State) : Host.Outcome State Fault Refusal :=
  finish s do
    let s ← waitW w s
    let pc := s.thr.pc
    let s := s.setG d.toNat (pc + 4)
    .ok (s.putThr { s.thr with pc := pc + 4 * o.signExtend 64 })

/-- CALLR (R102). -/
def execCallr (w : Bool) (d a : BitVec 5) (i : BitVec 15) (s : State) : Host.Outcome State Fault Refusal :=
  finish s do
    let s ← waitW w s
    let (x, s) ← readG s a.toNat
    let pc := s.thr.pc
    let t := x + 4 * i.signExtend 64
    if t.toNat % 4 ≠ 0 then trapNow s 0x07 t
    else
      let s := s.setG d.toNat (pc + 4)
      .ok (s.putThr { s.thr with pc := t })

end Sys2Proof.Machine
end

