-- ==== Sys2Proof/Machine/Queues.lean ====
section
/-! DEFINITION. Host queues and their packets (R328 to R335): doorbells, the sequencer's choice, signals, and the packets NOP,
BARRIER, COPY, SIGNAL and FRAME. -/
namespace Sys2Proof.Machine

/-! ## Queues and their descriptors (R328) -/

/-- A host queue. -/
def State.hq (s : State) (p q : Nat) : HQueue := (s.part p).queues.getD q HQueue.disabled
/-- Where a queue's descriptor lies. -/
def State.descAddr (s : State) (p q : Nat) : Nat := (s.part p).qtab.toNat + 64 * q
/-- The writes of a queue's device fields, those that changed or all of them. -/
def hqWrites (a : Nat) (all : Bool) (o h : HQueue) : List (Nat × Nat × Nat) :=
  (if all || o.rd ≠ h.rd then [(a + 0x10, 8, h.rd)] else []) ++ (if all || o.wr ≠ h.wr then [(a + 0x18, 8, h.wr)] else []) ++
  (if all || o.state ≠ h.state then [(a + 0x20, 4, h.state)] else []) ++
  (if all || o.ecode ≠ h.ecode then [(a + 0x24, 4, h.ecode)] else []) ++
  (if all || o.eindex ≠ h.eindex then [(a + 0x28, 8, h.eindex)] else [])
/-- Whether the device fields of a queue's descriptor cannot be reached yet (R170, R364). -/
def State.descHeld (s : State) (p q : Nat) : Bool := s.agentHeld p .store [(s.descAddr p q + 0x10, 32)]
/-- Replaces a queue and writes its device fields to its descriptor as they change. -/
def State.setHq (s : State) (p q : Nat) (all : Bool) (h : HQueue) : State :=
  let ws := hqWrites (s.descAddr p q) all (s.hq p q) h
  (s.setPart p { s.part p with queues := (s.part p).queues.set q h }).pokes p ws

/-- Bytes that the sequencer reads, or none where a page check fails. -/
def State.bytes? (s : State) (part va n : Nat) : Option Nat :=
  let l := pageCuts va n
  if l.all (fun e => match s.reach part .load e.1 e.2 with
    | .ok _ _ => true
    | _ => false) then some (s.peekAll part l) else none

/-- Whether a descriptor's fields lie in their ranges, with reserved fields 0. -/
def descOk (x : Nat) : Bool :=
  fieldOf x 0 8 % 64 == 0 && 4 ≤ fieldOf x 8 1 && fieldOf x 8 1 ≤ 16 && fieldOf x 9 1 ≤ 3 && fieldOf x 0xA 1 ≤ 3 &&
    fieldOf x 0xB 1 ≤ 3 && fieldOf x 0xC 4 == 0 && fieldOf x 0x30 16 == 0

/-- Whether a descriptor passes its checks and enables its queue. -/
def descOn (x : Nat) : Bool := descOk x && bitAt (fieldOf x 0xA 1) 0

/-- What a queue captures from its descriptor. -/
def HQueue.capture (h : HQueue) (x : Nat) : HQueue :=
  { h with base := fieldOf x 0 8, lsize := fieldOf x 8 1, prio := fieldOf x 9 1, flags := fieldOf x 0xA 1, die := fieldOf x 0xB 1 }

/-- A doorbell value on an active queue (R329). -/
def HQueue.ring (h : HQueue) (v : Nat) : HQueue := if v > h.wr && v - h.rd ≤ 2 ^ h.lsize then { h with wr := v } else h

/-- The first doorbell write still to reach a queue. -/
def State.firstRing (s : State) (p q : Nat) : Option Req :=
  s.reqs.find? (fun r => match r with
    | .doorbell a b _ => a == p && b == q
    | _ => false)

/-- Whether a doorbell must wait for its queue's descriptor (R364): one to a DISABLED queue that has been read touches none. -/
def State.ringHeld (s : State) (p q : Nat) : Bool :=
  !((s.hq p q).state == 0 && (s.hq p q).seen) && (s.agentHeld p .load [(s.descAddr p q, 64)] || s.descHeld p q)

/-- DOORBELL (R328, R329): a posted doorbell write reaches its queue; the first that finds it DISABLED has its descriptor read. -/
def execDoorbell (part q : Nat) (value : BitVec 64) (s : State) : Host.Outcome State Fault Refusal :=
  if s.firstRing part q ≠ some (.doorbell part q value) || s.ringHeld part q then .next s
  else
    let s := { s with reqs := s.reqs.erase (.doorbell part q value) }
    let h := s.hq part q
    if h.state ≠ 0 then .next (s.setHq part q false (h.ring value.toNat))
    else if h.seen then .next s
    else match s.bytes? part (s.descAddr part q) 64 with
      | some x =>
        if descOn x then
          let rd := fieldOf x 0x10 8
          .next (s.setHq part q true ({ HQueue.disabled.capture x with state := 1, rd := rd, wr := rd, seen := true }.ring value.toNat))
        else .next (s.setHq part q false { h with seen := true })
      | none => .next (s.setHq part q false { h with seen := true })

/-! ## Signals and the ends of packets (R331, R333) -/

/-- A queue enters ERROR with a code, which it keeps from the first failure (R333). -/
def State.queueError (s : State) (p q idx code : Nat) : State :=
  let h := s.hq p q
  if h.state = 2 then s
  else (s.setHq p q false { h with state := 2, ecode := code % 2 ^ 32, eindex := idx }).raiseIrq (p + 1) 1

/-- Changes an 8 B word at its home, or none where its translation traps or parks (R331). -/
def State.rmw8 (s : State) (part va : Nat) (f : Nat → Nat) : Option State :=
  match s.reach part .update va 8 with
  | .ok _ _ => some (s.poke part va 8 (f (s.peek part va 8) % 2 ^ 64))
  | _ => none

/-- The completion signal of a packet (R330); 0 or a misaligned address is none. -/
def Started.signal (x : Started) : Nat := if fieldOf x.bytes 8 8 % 8 = 0 then fieldOf x.bytes 8 8 else 0
/-- The type of a packet (R330). -/
def Started.type (x : Started) : Nat := fieldOf x.bytes 0 1

/-- The accesses that a packet's completion makes. -/
def Started.sigSpans (x : Started) : List (Nat × Nat) := if x.signal = 0 then [] else [(x.signal, 8)]

/-- Writes a packet's signal (R331); where it cannot be written the queue enters ERROR with code 7 (R333). -/
def State.signalWith (s : State) (p q : Nat) (x : Started) (f : Nat → Nat) : State :=
  if x.signal = 0 then s
  else match s.rmw8 p x.signal f with
    | some s' => s'
    | none => s.queueError p q x.index 7

/-- A packet has ended: its queue no longer counts it as started. -/
def State.dropPacket (s : State) (p q idx : Nat) : State :=
  let h := s.hq p q
  s.setHq p q false { h with started := h.started.filter (fun y => y.index != idx) }

/-- A packet completes (R331, R332). -/
def State.packetDone (s : State) (p q : Nat) (x : Started) : State :=
  (s.dropPacket p q x.index).signalWith p q x (fun v => v + (2 ^ 64 - 1))

/-- A packet fails with a code (R331, R333). -/
def State.packetFail (s : State) (p q : Nat) (x : Started) (code : Nat) : State :=
  ((s.dropPacket p q x.index).signalWith p q x (fun _ => 2 ^ 64 - code)).queueError p q x.index code

/-- A packet stays started. -/
def State.keepPacket (s : State) (p q : Nat) (x : Started) : State :=
  let h := s.hq p q
  s.setHq p q false { h with started := h.started ++ [x] }

/-! ## The sequencer's choice (R332, R335) -/

/-- Where a packet lies (R328). -/
def HQueue.packetAddr (h : HQueue) (i : Nat) : Nat := h.base + 64 * (i % 2 ^ h.lsize)

/-- Whether a queue's head packet can start (R332, R341): a packet with the barrier bit after every earlier one has
completed. -/
def State.canStart (s : State) (p : Nat) (h : HQueue) : Bool :=
  h.state == 1 && h.waiting.isNone && h.rd < h.wr &&
    (match s.bytes? p (h.packetAddr h.rd) 64 with
     | some x => !bitAt (fieldOf x 1 1) 0 || h.started.isEmpty
     | none => true)

/-- The queues of a die whose head packet can start, as priority and partition × 256 + number, ascending. -/
def State.ready (s : State) (die : Nat) : List (Nat × Nat) :=
  (List.range 8).flatMap (fun p => (s.part p).queues.filterMap (fun e =>
    if e.2.die = die && s.canStart p e.2 then some (e.2.prio, p * 256 + e.1) else none))

/-- The queue that a die's sequencer starts next (R335). -/
def State.seqPick (s : State) (die : Nat) : Option Nat :=
  let turn (k : Nat) : Nat := (k + 2047 - (s.die die).lastQueue) % 2048
  ((s.ready die).foldl (fun (best : Option (Nat × Nat)) e => match best with
    | none => some e
    | some b => if e.1 > b.1 || (e.1 == b.1 && turn e.2 < turn b.2) then some e else some b) none).map Prod.snd

/-- The head packet starts: rd advances (R332), and the sequencer's rotation and rate move on (R335). -/
def State.startHead (s : State) (p q : Nat) : State :=
  let h := s.hq p q
  let s := s.setDie h.die { s.die h.die with lastQueue := p * 256 + q, nextStart := s.clk + 32 }
  s.setHq p q false { h with rd := h.rd + 1 }

/-- Whether a packet's header lies in its ranges (R330). -/
def headerOk (x : Nat) : Bool :=
  fieldOf x 0 1 ≤ 5 && fieldOf x 1 1 ≤ 1 && fieldOf x 2 1 ≤ 6 && fieldOf x 3 1 ≤ 6 && fieldOf x 4 4 == 0 && fieldOf x 8 8 % 8 == 0

/-- A packet of a type starts, where its queue is the sequencer's choice: `away` says that an access it makes at its start, beside
those to its signal and to its queue's descriptor, must wait (R364), `ok` says that its body lies in its ranges, and `run` is what it does then. A reserved type and a
packet that cannot be read fail in the place of a NOP. -/
def packetEvent (kind p q : Nat) (away : Nat → State → Bool) (ok : Nat → Bool) (run : Started → State → State) (s : State) :
    Host.Outcome State Fault Refusal :=
  let h := s.hq p q
  let d := s.die h.die
  if s.clk < d.nextStart || d.inReset || s.seqPick h.die ≠ some (p * 256 + q) then .next s
  else if s.agentHeld p .load [(h.packetAddr h.rd, 64)] || s.descHeld p q then .next s
  else match s.bytes? p (h.packetAddr h.rd) 64 with
    | none => if kind = 0 then .next ((s.startHead p q).queueError p q h.rd 1) else .next s
    | some x =>
      let st : Started := ⟨h.rd, x, none⟩
      if !(st.type == kind || (kind == 0 && st.type > 5)) then .next s
      else if s.agentHeld p .update st.sigSpans || away x s then .next s
      else
        let s := s.startHead p q
        .next (if headerOk x && ok x then run st s else s.packetFail p q st 1)

/-! ## NOP, BARRIER, COPY and SIGNAL (R330 to R334) -/

/-- PACKET_NOP (R332). -/
def execPacketNop (part q : Nat) (s : State) : Host.Outcome State Fault Refusal :=
  packetEvent 0 part q (fun _ _ => false) (fun x => fieldOf x 0x10 48 == 0) (fun st s => s.packetDone part q st) s

/-- The signals a BARRIER waits on (R330). -/
def barrierSignals (x : Nat) : List Nat := (List.range (fieldOf x 0x10 1)).map (fun j => fieldOf x (0x18 + 8 * j) 8)

/-- Whether a BARRIER's body lies in its ranges (R330, R334). -/
def barrierOk (x : Nat) : Bool :=
  let n := fieldOf x 0x10 1
  1 ≤ n && n ≤ 5 && fieldOf x 0x11 7 == 0 &&
    (List.range 5).all (fun j =>
      let a := fieldOf x (0x18 + 8 * j) 8
      if j < n then a != 0 && a % 8 == 0 else a == 0)

/-- One evaluation of a BARRIER (R334). -/
def State.evaluate (s : State) (p q : Nat) (x : Started) : State :=
  let sigs := barrierSignals x.bytes
  if s.agentHeld p .load (sigs.map (fun a => (a, 8))) || s.agentHeld p .update x.sigSpans || s.descHeld p q then s
  else match sigs.mapM (fun a => s.bytes? p a 8) with
    | none => s.packetFail p q x 1
    | some vs => match vs.find? (fun v => v ≥ 2 ^ 63) with
      | some v => s.packetFail p q x (2 ^ 64 - v)
      | none => if vs.all (· == 0) then s.packetDone p q x else s

/-- PACKET_BARRIER (R334): the packet starts and evaluates. -/
def execPacketBarrier (part q : Nat) (s : State) : Host.Outcome State Fault Refusal :=
  packetEvent 2 part q (fun _ _ => false) barrierOk (fun st s => (s.keepPacket part q st).evaluate part q st) s

/-- BARRIER_EVALUATE (R334): a queue's waiting BARRIERs evaluate again. -/
def execBarrierEvaluate (part q : Nat) (s : State) : Host.Outcome State Fault Refusal :=
  .next (((s.hq part q).started.filter (fun x => x.type == 2)).foldl (fun s x => s.evaluate part q x) s)

/-- PACKET_COPY (R332): the entry goes to cluster 0's copy engine of the queue's die, on queue code 5 of the model. -/
def execPacketCopy (part q : Nat) (s : State) : Host.Outcome State Fault Refusal :=
  packetEvent 3 part q (fun _ _ => false) (fun x => fieldOf x 0x20 8 ≤ 2 ^ 40 && fieldOf x 0x28 24 == 0) (fun st s =>
    let x := st.bytes
    let e : Entry := { id := s.uid, owner := (none, s.uid), part := part, slot := (s.hq part q).die * 8192, q := 5,
                       job := .copy (fieldOf x 0x10 8) (fieldOf x 0x18 8) (fieldOf x 0x20 8), code := 0, finished := false }
    ({ s with entries := s.entries ++ [e], uid := s.uid + 1 }).keepPacket part q { st with ref := some e.id }) s

/-- The COPY packet of an engine entry, with its queue. -/
def State.copyPacket (s : State) (e : Entry) : Option (Nat × Started) :=
  (s.part e.part).queues.findSome? (fun h =>
    (h.2.started.find? (fun x => x.type == 3 && x.ref == some e.id)).map (fun x => (h.1, x)))

/-- ENGINE_ENTRY_COMPLETE (R214, R332): an entry whose writes are all performed leaves its queue; a COPY packet's entry
completes its packet. -/
def execEngineEntryComplete (id : Nat) (s : State) : Host.Outcome State Fault Refusal :=
  match s.entries.find? (fun e => e.id == id && e.finished) with
  | none => .next s
  | some e =>
    if e.q ≠ 5 then .next (s.completeEntry e)
    else match s.copyPacket e with
      | none => .next (s.completeEntry e)
      | some (q, x) =>
        if s.agentHeld e.part .update x.sigSpans || s.descHeld e.part q then .next s
        else
          let s := s.completeEntry e
          .next (if e.code = 0 then s.packetDone e.part q x else s.packetFail e.part q x 6)

/-- PACKET_SIGNAL (R331): SUB adds −value, SET writes value. -/
def execPacketSignal (part q : Nat) (s : State) : Host.Outcome State Fault Refusal :=
  packetEvent 4 part q (fun x s => s.agentHeld part .update [(fieldOf x 0x10 8, 8)])
    (fun x => fieldOf x 0x10 8 % 8 == 0 && fieldOf x 0x18 1 ≤ 1 && fieldOf x 0x19 7 == 0 && fieldOf x 0x28 24 == 0) (fun st s =>
      let v := fieldOf st.bytes 0x20 8
      match s.rmw8 part (fieldOf st.bytes 0x10 8) (fun x => if fieldOf st.bytes 0x18 1 = 0 then x + (2 ^ 64 - v) else v) with
      | none => s.queueError part q st.index 7
      | some s' => s'.packetDone part q st) s

/-! ## FRAME (R303, R304) -/

/-- Whether a frame record's fields lie in their ranges, with reserved fields 0 (R304). -/
def frameOk (x : Nat) : Bool :=
  let f (o n : Nat) : Nat := fieldOf x o n
  f 2 1 ≤ 3 && f 3 1 ≤ 1 && f 4 2 < 16384 && f 6 2 < 16384 && f 8 2 != 0 && f 0xA 1 ≤ 2 && f 0xB 1 ≤ 2 && f 0xC 1 ≤ 5 &&
    f 0xD 1 ≤ 4 && f 0xE 1 ≤ 1 && f 0xF 1 ≤ 63 && f 0x10 8 % 64 == 0 && f 0x18 8 % 64 == 0 && (f 0xA 1 != 0 || f 0x18 8 == 0) &&
    f 0x2C 1 ≤ 63 && f 0x2D 1 ≤ 63 && 6 ≤ f 0x2E 1 && f 0x2E 1 ≤ 20 && f 0x2F 1 == 0 && f 0x30 8 % 4096 == 0 && 2 ≤ f 0x38 4 &&
    f 0x3C 4 == 0 && f 0x40 8 % 64 == 0 && f 0x48 8 % 64 == 0 && f 0x60 8 % 8 == 0 && f 0x70 4 ≤ 1 && f 0x78 136 == 0

/-- Binds a frame's queues (R303): sequence numbers from 0, notify registers that cover nothing, device fields 0. -/
def State.bindFrame (s : State) (f : Frame) : State :=
  let fid := s.uid
  let s := f.queues.foldl (fun s k => s.setAqueue k ⟨some fid, 0, 0xFFFFFFFF, []⟩) s
  ((((s.setFrame fid f).devField f 0x68 0).devField f 0x6C 0).devField f 0x74 0 |> fun s => { s with uid := fid + 1 })

/-- The frame that a record describes. -/
def frameOf (part q die addr words : Nat) : Frame :=
  { part := part, queue := q, die := die, addr := addr, words := words, state := 0, partials := 0, rejected := 0, ended := false,
    chains := [], nextChunk := 0, headed := false, hand := none, rendered := [] }

/-- Whether the frame record of a FRAME packet cannot be reached yet (R364). -/
def State.frameAway (s : State) (part x : Nat) : Bool :=
  let a := fieldOf x 0x10 8
  s.agentHeld part .load (pageCuts a 256) || s.agentHeld part .store [(a + 0x68, 16)]

/-- A started FRAME packet: it fails, binds its queues, or waits until they are free (R303, R304). -/
def State.frameTry (s : State) (part q : Nat) (x : Started) : State :=
  let a := fieldOf x.bytes 0x10 8
  match s.bytes? part a 256 with
  | none => s.packetFail part q x 1
  | some r =>
    if !frameOk r then s.packetFail part q x 1
    else
      let f := frameOf part q (s.hq part q).die a r
      if f.queues.any (fun k => (s.aqueue k).frame.isSome) then s
      else (s.bindFrame f).packetDone part q x

/-- PACKET_FRAME (R303, R332): a FRAME packet that waits is tried again; else the queue's head starts. -/
def execPacketFrame (part q : Nat) (s : State) : Host.Outcome State Fault Refusal :=
  let first : State := match (s.hq part q).started.find? (fun x => x.type == 5) with
    | some x => if s.agentHeld part .update x.sigSpans || s.descHeld part q || s.frameAway part x.bytes then s else s.frameTry part q x
    | none => s
  if (first.hq part q).started ≠ (s.hq part q).started then .next first
  else
    packetEvent 5 part q (fun x s => s.frameAway part x) (fun x => fieldOf x 0x10 8 % 64 == 0 && fieldOf x 0x18 40 == 0)
      (fun st s => (s.keepPacket part q st).frameTry part q st) s

end Sys2Proof.Machine
end

