-- ==== Sys2Proof/Machine/Code.lean ====
section
/-! DEFINITION. The code table and its commands (R349, R350). -/
namespace Sys2Proof.Machine

/-! ## The table (R349) -/

/-- Where a code table entry lies. -/
def State.codeAddr (s : State) (p h : Nat) : Nat := (s.part p).ctab.toNat + 32 * h
/-- Whether a code table entry cannot be reached yet (R170, R364). -/
def State.codeAway (s : State) (p h : Nat) : Bool := h < 1024 && s.agentHeld p .load (pageCuts (s.codeAddr p h) 32)
/-- A code table entry, where it can be read. -/
def State.codeEntry (s : State) (p h : Nat) : Option Nat :=
  if h < 1024 && !s.codeAway p h then s.bytes? p (s.codeAddr p h) 32 else none

/-- The state with every die out of reset: a saved context pins its object also while its block is homed on a die in reset, whose
memory keeps it (R363, R350). -/
def State.allUp (s : State) : State := { s with dies := s.dies.map (fun e => (e.1, { e.2 with inReset := false })) }

/-- Bytes of a saved context as its partition's Spring firmware reaches them. -/
def State.supBytes (s : State) (p va n : Nat) : Option Nat :=
  match walk s.allUp (s.part p).sEff false .load va with
  | .ok pa _ => if va % 4096 + n ≤ 4096 then some (s.read pa n) else none
  | _ => none

/-- The PC of a saved context by its block (R237). -/
def State.savedPc (s : State) (p va : Nat) : Option Nat := s.supBytes p (va + 8) 8

/-- Whether a PC lies in an object's image. -/
def inImage (x pc : Nat) : Bool := fieldOf x 0 8 ≤ pc && pc < fieldOf x 0 8 + fieldOf x 8 8

/-- The slots whose threads pin an object. -/
def State.pinSlots (s : State) (p x : Nat) : List Nat :=
  (s.threads.filter (fun e => !isSpring e.1 && e.2.st != .empty && e.2.part == p && inImage x e.2.pc.toNat)).map Prod.fst

/-- The saved contexts that pin an object, as launch and c.tid. -/
def State.pinSaved (s : State) (p x : Nat) : List (Nat × Nat) :=
  s.launches.flatMap (fun e =>
    if e.2.part ≠ p || e.2.done then []
    else (e.2.saved.filter (fun c => match s.savedPc p c.2 with
      | some pc => inImage x pc
      | none => false)).map (fun c => (e.1, c.1)))

/-- The pins of an object (R350). -/
def State.pins (s : State) (p x : Nat) : Nat := (s.pinSlots p x).length + (s.pinSaved p x).length

/-- Sets an entry's state and its pins field. -/
def State.setCode (s : State) (p h st pins : Nat) : State :=
  (s.poke p (s.codeAddr p h + 0x1A) 1 st).poke p (s.codeAddr p h + 0x1C) 4 pins

/-- An entry in state gone becomes free when its pins fall to 0 (R350). -/
def State.sweepCode (s : State) (p : Nat) : State :=
  (s.part p).goneCode.foldl (fun s h => match s.codeEntry p h with
    | some x =>
      if s.pins p x = 0 then
        (s.setCode p h 0 0).setPart p { s.part p with
          goneCode := (s.part p).goneCode.filter (· != h), loaded := (s.part p).loaded.filter (· != h) }
      else s
    | none => s) s

/-- Writes the pins field of an entry whose pins have changed. -/
def State.repin (s : State) (p h : Nat) : State :=
  match s.codeEntry p h with
  | some x => if fieldOf x 0x1C 4 = s.pins p x then s else s.poke p (s.codeAddr p h + 0x1C) 4 (s.pins p x)
  | none => s

/-- What the device does for the code tables after every step: the pins fields of the objects that it has loaded follow their live and
saved contexts, and an entry in state gone becomes free when its pins fall to 0 (R349, R350). -/
def State.codeUpkeep (s : State) : State :=
  s.parts.foldl (fun s e => ((s.part e.1).loaded.foldl (fun s h => s.repin e.1 h) s).sweepCode e.1) s

/-! ## The commands (R350) -/

/-- A command ends with its status: 0 DONE, 1 BUSY, 2 BAD. -/
def State.codeDone (s : State) (p pins result : Nat) : State :=
  s.setPart p { s.part p with codeStatus := BitVec.ofNat 64 (pins % 2 ^ 32 * 2 ^ 32 + result) }

/-- The next posted command of a partition. -/
def State.codeReq (s : State) (p : Nat) : Option (BitVec 64) :=
  s.reqs.findSome? (fun r => match r with
    | .code a v => if a = p then some v else none
    | _ => none)

/-- Runs a partition's next command where it is the one named: an operation, the force bit and a handle. A command with a
reserved operation ends BAD in the place of a LOAD. -/
def codeCommand (op : Nat) (force : Bool) (p h : Nat) (run : Nat → State → State) (s : State) : Host.Outcome State Fault Refusal :=
  match s.codeReq p with
  | none => .next s
  | some v =>
    let o := bitsOf v.toNat 32 4
    if bitsOf v.toNat 0 10 ≠ h then .next s
    else if !((o == op && (o == 0 || bitAt v.toNat 36 == force)) || (op == 0 && o > 1)) || s.codeAway p h then .next s
    else
      let s := { s with reqs := s.reqs.erase (.code p v) }
      match s.codeEntry p h with
      | none => .next (s.codeDone p 0 2)
      | some x => if o > 1 then .next (s.codeDone p (s.pins p x) 2) else .next ((run x s).sweepCode p)

/-- CODE_LOAD (R350): checks the entry and sets its state to loaded. -/
def execCodeLoad (part handle : Nat) (s : State) : Host.Outcome State Fault Refusal :=
  codeCommand 0 false part handle (fun x s =>
    let n := s.pins part x
    if fieldOf x 0x1B 1 ≠ 0 || fieldOf x 0x1A 1 ≠ 0 && fieldOf x 0x1A 1 ≠ 1 then s.codeDone part n 2
    else
      let s := s.setCode part handle 1 n
      (s.setPart part { s.part part with loaded := (s.part part).loaded.filter (· != handle) ++ [handle] }).codeDone part n 0) s

/-- CODE_UNLOAD (R350): BUSY while the object is pinned, else the entry is free. -/
def execCodeUnload (part handle : Nat) (s : State) : Host.Outcome State Fault Refusal :=
  codeCommand 1 false part handle (fun x s =>
    let n := s.pins part x
    if n > 0 then s.codeDone part n 1
    else
      let s := s.setCode part handle 0 0
      (s.setPart part { s.part part with loaded := (s.part part).loaded.filter (· != handle) }).codeDone part 0 0) s

/-- Pre-empts a slot's thread for a forced unload, and marks it gone where it is one of those that pin the object (R346, R350). No
launch waits, so the notice's tval is free. -/
def State.goneSlot (pinning : List Nat) (s : State) (k : Nat) : State :=
  let s := s.preemptSlot ((Config.agentRead (s.fresh * 2 ^ 64)).truncate 32) k
  (if pinning.contains k then s.setThread k { s.thread k with gone := true } else s).bump

/-- CODE_UNLOAD_FORCE (R350): the entry is gone, and so is every context that pins it; the live ones are pre-empted, the four of a
gang together (R154, R346). -/
def execCodeUnloadForce (part handle : Nat) (s : State) : Host.Outcome State Fault Refusal :=
  codeCommand 1 true part handle (fun x s =>
    let n := s.pins part x
    let live := s.pinSlots part x
    let saved := s.pinSaved part x
    let s := s.setCode part handle 2 n
    let s := s.setPart part { s.part part with goneCode := (s.part part).goneCode.filter (· != handle) ++ [handle] }
    let s := ((live.flatMap s.preemptSlots).eraseDups).foldl (State.goneSlot live) s
    let s : State := { s with launches := s.launches.map (fun (e : Nat × Launch) =>
      (e.1, { e.2 with gone := e.2.gone ++ (saved.filter (fun c => c.1 == e.1)).map Prod.snd })) }
    s.codeDone part n 0) s

end Sys2Proof.Machine
end

