-- ==== Sys2Proof/Machine/Control.lean ====
section
/-! DEFINITION. MFS and MTS (R222), the thread control instructions (R223 to R226), and the traps of a word that names no
instruction and of a fetch that fails (R66, R103). -/
namespace Sys2Proof.Machine

/-- The control registers that queued vector instructions write or step, c.fflags and c.srseed, are reached only when the queue is
empty (R53, R104); a change of c.mdepth, which they do not read, is not held. -/
def State.cregBusy (s : State) (i : Nat) : Bool := (i == 0x011 || i == 0x012) && !s.thr.vq.isEmpty

/-- MFS (R222). -/
def execMfs (w : Bool) (d : BitVec 5) (c : BitVec 12) (s : State) : Host.Outcome State Fault Refusal :=
  finish s do
    let s ← waitW w s
    checkCreg s c.toNat
    if s.cregBusy c.toNat then stall s else
    let (v, s) ← readCreg s c.toNat
    .ok ((s.setG d.toNat v).advance 4)

/-- MTS (R222): a write of a read-only register is ignored, and a value that is not accepted traps. -/
def execMts (w : Bool) (a : BitVec 5) (c : BitVec 12) (s : State) : Host.Outcome State Fault Refusal :=
  finish s do
    let s ← waitW w s
    checkCreg s c.toNat
    let (v, s) ← readG s a.toNat
    if cregReadOnly (isSpring s.cur) c.toNat then .ok (s.advance 4)
    else if !cregAccepts c.toNat v.toNat then illegal s
    else if c.toNat = 0x022 && !s.poolOk (coreOf s.cur) v.toNat then illegal s
    else if s.cregBusy c.toNat || (c.toNat = 0x022 && s.poolHeld (coreOf s.cur) v.toNat) then stall s
    else .ok ((s.setCreg s.cur c.toNat v).advance 4)

/-- An instruction that completes and then traps: the resume PC is the next instruction (R223). -/
def softTrap {α : Type} (s : State) (cause : Nat) (v : Word) : Res α := .error ⟨s, .trap cause v (some (s.thr.pc + 4))⟩

/-- SVC (R223). -/
def execSvc (w : Bool) (a : BitVec 5) (s : State) : Host.Outcome State Fault Refusal :=
  finish s do
    let s ← waitW w s
    let (v, s) ← readG s a.toNat
    softTrap s 0x18 v

/-- TRAP (R223). -/
def execTrap (w : Bool) (a : BitVec 5) (s : State) : Host.Outcome State Fault Refusal :=
  finish s do
    let s ← waitW w s
    let (v, s) ← readG s a.toNat
    softTrap s 0x19 v

/-- BRK (R223). -/
def execBrk (w : Bool) (s : State) : Host.Outcome State Fault Refusal :=
  finish s do
    let s ← waitW w s
    softTrap s 0x1A 0

/-- YIELD (R224): it waits until the thread's vector command queue is empty; the thread is pre-empted, with the next instruction as its
resume PC, where a launch of a higher priority waits for slots in its partition; else nothing more happens. -/
def execYield (w : Bool) (s : State) : Host.Outcome State Fault Refusal :=
  finish s do
    let s ← waitW w s
    let s ← noRegion s
    queueEmpty s
    let s := s.advance 4
    match s.launchOf s.thr with
    | none => .ok s
    | some l =>
      match s.waitingAbove s.thr.part l.prio with
      | none => .ok s
      | some n => .ok ((s.preemptSlots s.cur).foldl (fun s k => s.preemptSlot n k) s)

/-- HALT (R105, R225): the thread ends when its vector command queue is empty and its issued accesses are performed; a gang thread
first waits until its MSTs have completed (R161). -/
def execHalt (w : Bool) (s : State) : Host.Outcome State Fault Refusal :=
  finish s do
    let s ← waitW w s
    let s ← noRegion s
    if !s.thr.vq.isEmpty || s.unperformed s.cur then stall s
    else if s.ownsAcc s.cur && s.outCount (s.thr.owner) 2 ≠ 0 then stall s
    else .ok (s.endThread s.cur)

/-- TIMEWAIT (R226): the thread's turns stay idle until its core observes the target pod time. -/
def execTimewait (w : Bool) (a : BitVec 5) (s : State) : Host.Outcome State Fault Refusal :=
  finish s do
    let s ← waitW w s
    let s ← noRegion s
    let (v, s) ← readG s a.toNat
    let seen := s.seenTime
    let s := { s with fresh := s.fresh + 1 }
    if v.toNat ≤ seen then .ok (s.advance 4)
    else .ok (s.putThr { s.thr with timewait := some v })

/-- TIMEWAIT_END (R226): the core observes the target, and the thread goes on at its next turn; a held thread stays at the
TIMEWAIT. -/
def execTimewaitEnd (slot : Nat) (s : State) : Host.Outcome State Fault Refusal :=
  match (s.thread slot).timewait with
  | none => .next s
  | some v =>
    if v.toNat ≤ s.seenTime && !(s.thread slot).held then
      .next (({ s with fresh := s.fresh + 1 }).setThread slot
        { s.thread slot with timewait := none, pc := (s.thread slot).pc + 4 })
    else .next s

/-- ILLEGAL_INSTRUCTION_WORD (R66): a word that names no instruction traps with the word as tval; in a user thread any
word of major 0x3B traps for privilege first (R67). -/
def execIllegalInstructionWord (word : BitVec 32) (s : State) : Host.Outcome State Fault Refusal :=
  finish s do
    let s ← waitW (word.getLsbD 31) s
    if word.extractLsb' 25 6 = 0x3B#6 && !isSpring s.cur then trapNow s 0x02 (word.zeroExtend 64)
    else trapNow s 0x01 (word.zeroExtend 64)

/-- INSTRUCTION_FETCH_FAULT (R60, R103): the fetch at the PC, or of a two-word instruction's payload, traps or parks. -/
def execInstructionFetchFault (s : State) : Host.Outcome State Fault Refusal :=
  finish s (match s.fetchWords s.cur with
    | .error e => .error ⟨s, e⟩
    | .ok _ => .ok s)

end Sys2Proof.Machine
end

