-- ==== Sys2Proof/Machine/Launches.lean ====
section
/-! DEFINITION. Launches (R337 to R348): the checks of a start record, the slot allocator, dispatch, completion and
pre-emption. -/
namespace Sys2Proof.Machine

/-! ## Start records (R338, R339) -/

/-- Step 1 of R339: the ranges and reserved bits of a start record (R338). -/
def startOk (x : Nat) : Bool :=
  let f (o : Nat) : Nat := fieldOf x o 1
  1 ≤ f 0x18 && f 0x18 ≤ 16 && 1 ≤ f 0x19 && f 0x19 ≤ 4 && 1 ≤ f 0x1A && f 0x1A ≤ 8 && 1 ≤ f 0x1B && f 0x1B ≤ 64 && f 0x1C ≤ 3 &&
    f 0x1D ≤ 3 && fieldOf x 0x24 4 == 0

/-- Step 2 of R339: the image base and the kernel entry that a start record names in a loaded object, or none. -/
def State.kernelOf (s : State) (p x : Nat) : Option (Nat × Nat) :=
  match s.codeEntry p (fieldOf x 0x10 4) with
  | none => none
  | some c =>
    if fieldOf c 0x1A 1 ≠ 1 then none
    else (List.range (fieldOf c 0x18 2)).findSome? (fun i => match s.bytes? p (fieldOf c 0x10 8 + 32 * i) 32 with
      | some k => if fieldOf k 8 4 = fieldOf x 0x14 4 then some (fieldOf c 0 8, k) else none
      | none => none)

/-- The shadows of a start record (R338): c.fmt.a, c.fmt.b, c.fmt.c, c.scale.a, c.scale.b, or none where a block cannot be
read or holds a value that R25 or R26 refuses. -/
def State.shadows (s : State) (p x k : Nat) : Option (List Nat) :=
  let fmts : Option (List Nat) :=
    if fieldOf x 0x30 8 = 0 then some [fieldOf k 0xE 1 % 32, fieldOf k 0xF 1 % 32, fieldOf k 0x10 1 % 32]
    else (s.bytes? p (fieldOf x 0x30 8) 8).bind (fun b =>
      let l := [b % 32, b / 2 ^ 8 % 32, b / 2 ^ 16 % 32]
      if b = b % 32 + b / 2 ^ 8 % 32 * 2 ^ 8 + b / 2 ^ 16 % 32 * 2 ^ 16 && ([8, 9, 10].zip l).all (fun e => cregAccepts e.1 e.2) then
        some l
      else none)
  let scales : Option (List Nat) :=
    if fieldOf x 0x38 8 = 0 then some [0, 0]
    else (s.bytes? p (fieldOf x 0x38 8) 16).bind (fun b =>
      let l := [fieldOf b 0 8, fieldOf b 8 8]
      if l.all scaleOk then some l else none)
  match fmts, scales with
  | some a, some b => some (a ++ b)
  | _, _ => none

/-- Whether what a LAUNCH reads at its start, its object's table entry, kernel table and format and scale blocks, cannot be reached
yet (R364). -/
def State.launchAway (s : State) (p x : Nat) : Bool :=
  let h := fieldOf x 0x10 4
  let block (off n : Nat) : List (Nat × Nat) := if fieldOf x off 8 = 0 then [] else pageCuts (fieldOf x off 8) n
  let table (c : Nat) : List (Nat × Nat) := pageCuts (fieldOf c 0x10 8) (32 * fieldOf c 0x18 2)
  s.codeAway p h || s.agentHeld p .load (block 0x30 8 ++ block 0x38 16 ++ (s.codeEntry p h).elim [] table)

/-- The core scratch that a kernel which spills needs, in 4 KiB units (R387). -/
def spillUnits (k : Nat) : Nat := if bitAt (fieldOf k 6 2) 1 then (16 * fieldOf k 0x18 4 + 4095) / 4096 else 0

/-- Step 3 of R339: the request matches its kernel. -/
def kernelOk (x k : Nat) : Bool :=
  let gang := bitAt (fieldOf x 0x1D 1) 0
  fieldOf x 0x18 1 ≤ fieldOf k 0xD 1 && fieldOf k 0xC 1 ≤ fieldOf x 0x1C 1 && gang == bitAt (fieldOf k 6 2) 0 &&
    fieldOf x 0x20 2 ≤ fieldOf x 0x1E 2 && (!gang || (fieldOf x 0x19 1 == 4 && fieldOf x 0x18 1 == 1)) &&
    spillUnits k ≤ fieldOf x 0x1E 2

/-- The launch that a start record makes (R337, R338). -/
def makeLaunch (p q prio index num x base k : Nat) (shadow : List Nat) : Launch :=
  { part := p, num := BitVec.ofNat 32 num, queue := q, index := index, prio := prio, code := fieldOf x 0x10 4, S := fieldOf x 0x18 1,
    C := fieldOf x 0x19 1, Q := fieldOf x 0x1A 1, K := fieldOf x 0x1B 1, gang := bitAt (fieldOf x 0x1D 1) 0,
    budget := 8 * 2 ^ (fieldOf x 0x1C 1), scr := fieldOf x 0x1E 2, cm := fieldOf x 0x20 2, ds := fieldOf x 0x22 2,
    scrBase := [], dsBase := [], place := [], start := base + fieldOf x 0x14 4, args := fieldOf x 0x28 8, shadow := shadow,
    base0 := bitAt (fieldOf x 0x1D 1) 1 || bitAt (fieldOf k 6 2) 1, spill := bitAt (fieldOf k 6 2) 1, stands := [],
    halted := [], killed := [], preempted := false, gone := [],
    saved := [], errs := [], frames := [], outcome := none, done := false, cores := [], codeMem := [] }

/-! ## The allocator (R340 to R343) -/

/-- The clusters of a partition, ascending. -/
def State.partClusters (s : State) (p : Nat) : List Nat := (List.range 64).filter (fun c => (s.part p).clus.getLsbD c)

/-- Whether a launch could be placed in its partition's empty state (R340). -/
def State.fitsEmpty (s : State) (l : Launch) : Bool :=
  let pool := (s.part l.part).poolEff.toNat
  let cs := s.partClusters l.part
  l.K ≤ cs.length && cs.all (fun c => l.ds ≤ (s.dieShare l.part (dieOfCluster c)).2) && l.S * l.budget * 128 ≤ bitsOf pool 0 8 * 4096 && l.scr + bitsOf pool 0 8 ≤ bitsOf pool 8 8

/-- Whether a core has room for a launch with its scratch grant at a base (R20, R19, R341). -/
def State.coreFits (s : State) (l : Launch) (core base : Nat) : Bool :=
  let pool := (s.core core).pool.toNat
  s.coreTakes core l.part (l.S * l.budget) && (!l.gang || (s.core core).accOwner.isNone) &&
    (l.scr == 0 || (base + l.scr + bitsOf pool 0 8 ≤ bitsOf pool 8 8 &&
      (s.coreGrants core).all (fun g => base + l.scr ≤ g.1 || g.1 + g.2 ≤ base)))

/-- The free slots of a core, ascending. -/
def State.freeSlots (s : State) (core : Nat) : List Nat := (List.range 16).filter (fun i => (s.thread (core * 16 + i)).st == .empty)

/-- The lowest cores and slots of a quad that a launch fits on (R343). -/
def State.quadFit (s : State) (l : Launch) (quad base : Nat) : Option (List (Nat × List Nat)) :=
  let cores := (List.range 4).map (fun k => 4 * quad + k)
  let fit := cores.filter (fun c => s.coreFits l c base)
  if l.gang then
    if fit.length < 4 then none
    else ((List.range 16).find? (fun i => cores.all (fun c => (s.freeSlots c).contains i))).map (fun i => cores.map (fun c => (c, [i])))
  else
    let ok := fit.filterMap (fun c => if (s.freeSlots c).length < l.S then none else some (c, (s.freeSlots c).take l.S))
    if ok.length < l.C then none else some (ok.take l.C)

/-- The lowest quads of a cluster that a launch fits on with its scratch grant at a base. -/
def State.clusterAt (s : State) (l : Launch) (c base : Nat) : Option (List (Nat × List Nat)) :=
  let quads := (List.range 8).filterMap (fun i => s.quadFit l (8 * c + i) base)
  if quads.length < l.Q then none else some (quads.take l.Q).flatten

/-- Whether one list of numbers comes before another. -/
def lexLt : List Nat → List Nat → Bool
  | [], [] => false
  | [], _ => true
  | _, [] => false
  | a :: s, b :: t => a < b || (a == b && lexLt s t)

/-- The scratch bases to try in a cluster: 0 and the ends of the grants on its cores, ascending. -/
def State.scratchBases (s : State) (l : Launch) (c : Nat) : List Nat :=
  if l.base0 || l.scr = 0 then [0]
  else sortUp (0 :: (List.range 32).flatMap (fun i => (s.coreGrants (32 * c + i)).map (fun g => g.1 + g.2))).eraseDups

/-- A cluster's part of a launch: the lowest units that fit, and then the lowest base that its cores share (R343). -/
def State.clusterFit (s : State) (l : Launch) (c : Nat) : Option (Nat × List (Nat × List Nat)) :=
  let all := (s.scratchBases l c).filterMap (fun b => (s.clusterAt l c b).map (fun r => (b, r)))
  all.foldl (fun (best : Option (Nat × List (Nat × List Nat))) e => match best with
    | none => some e
    | some x => if lexLt (e.2.map Prod.fst) (x.2.map Prod.fst) then some e else some x) none

/-- The whole grant of a launch, as cluster, base, cores and slots, or none (R341, R343). -/
def State.plan (s : State) (l : Launch) : Option (List (Nat × Nat × List (Nat × List Nat))) :=
  let rows := (s.partClusters l.part).filterMap (fun c =>
    if (s.die (dieOfCluster c)).inReset || (s.dieFit l.part (dieOfCluster c) l.ds (s.dieGrants (dieOfCluster c))).isNone then none
    else (s.clusterFit l c).map (fun r => (c, r.1, r.2)))
  if rows.length < l.K then none else some (rows.take l.K)

/-! ## PACKET_LAUNCH (R332, R337 to R341) -/

/-- A start record that passes R339: it is rejected, or its launch waits for the allocator. -/
def State.admission (s : State) (p q : Nat) (st : Started) (l : Launch) : State :=
  if !s.fitsEmpty l then s.packetFail p q st 2
  else
    let s' := { s with launches := s.launches.set s.uid l, uid := s.uid + 1 }
    let s' := s'.setPart p { s'.part p with launchCount := (s'.part p).launchCount + 1 }
    s'.setHq p q false { s'.hq p q with waiting := some { st with ref := some s.uid } }

/-- PACKET_LAUNCH (R339, R340). -/
def execPacketLaunch (part q : Nat) (s : State) : Host.Outcome State Fault Refusal :=
  packetEvent 1 part q (fun x s => s.launchAway part x) startOk (fun st s =>
    let x := st.bytes
    match s.kernelOf part x with
    | none => s.packetFail part q st 3
    | some (base, k) => match s.shadows part x k with
      | none => s.packetFail part q st 1
      | some sh =>
        if !kernelOk x k then s.packetFail part q st 1
        else
          s.admission part q st
            (makeLaunch part q (s.hq part q).prio st.index (s.part part).launchCount.toNat x base k sh)) s

/-! ## LAUNCH_DISPATCH (R342 to R344) -/

/-- The state of a thread dispatched at clk `now`, whose first turn comes after it (R10, R28, R344). -/
def startThread (l : Launch) (lid tid now : Nat) : Thread :=
  { Thread.empty with
    st := .running, launch := some lid, part := l.part, pc := BitVec.ofNat 64 l.start, ready := now + 1, budget := l.budget,
    g := [(1, BitVec.ofNat 64 l.args)], fmtA := BitVec.ofNat 5 (l.shadow.getD 0 0), fmtB := BitVec.ofNat 5 (l.shadow.getD 1 0),
    fmtC := BitVec.ofNat 5 (l.shadow.getD 2 0), scaleA := BitVec.ofNat 27 (l.shadow.getD 3 0),
    scaleB := BitVec.ofNat 27 (l.shadow.getD 4 0), tid := BitVec.ofNat 32 tid }

/-- Dispatches a launch on a grant (R344). -/
def State.dispatch (s : State) (lid : Nat) (l : Launch) (rows : List (Nat × Nat × List (Nat × List Nat))) : State :=
  let dies := (rows.map (fun r => dieOfCluster r.1)).eraseDups
  let ds : Tab Nat := if l.ds = 0 then []
    else dies.filterMap (fun d => (s.dieFit l.part d l.ds (s.dieGrants d)).map (fun b => (d, b)))
  let cores := rows.flatMap (fun r => r.2.2.map (fun c => (r.2.1, c)))
  let place : Tab Nat := (cores.flatMap (fun c => c.2.2.map (fun i => c.2.1 * 16 + i))).zipIdx.map (fun e => (e.2, e.1))
  let frames := (s.frames.filter (fun f => f.2.part == l.part && f.2.queue == l.queue)).map Prod.fst
  let l' := { l with scrBase := rows.map (fun r => (r.1, r.2.1)), dsBase := ds, place := place, frames := frames,
                       stands := if l.spill then cores.map (fun c => (c.2.1, c.2.1)) else [],
                       cores := if l.scr = 0 then [] else cores.map (fun c => c.2.1), codeMem := s.mem }
  let s := { s with launches := s.launches.set lid l' }
  let s := cores.foldl (fun s c => if l.scr = 0 then s else s.zeroRange (scratchAddr c.2.1 (c.1 * 4096)) (l.scr * 4096)) s
  let s := ds.foldl (fun s e => s.grantDie l.part e.1 e.2 l.ds) s
  let s := if l.gang then cores.foldl (fun s c =>
      s.setCore c.2.1 { s.core c.2.1 with accOwner := some (c.2.2.headD 0, lid), acc := [], accPoison := [] }) s
    else s
  place.foldl (fun s e => s.setThread e.2 (startThread l lid e.1 s.clk)) s

/-- The launches that wait in a partition: priority, queue and launch. -/
def State.waitingIn (s : State) (p : Nat) : List (Nat × Nat × Nat × Launch) :=
  (s.part p).queues.filterMap (fun e => match e.2.waiting with
    | some w => w.ref.bind (fun lid => (s.launches.get? lid).map (fun l => (l.prio, e.1, lid, l)))
    | none => none)

/-- Those of the highest priority, in the sequencer's rotation (R342). -/
def State.waitingFirst (s : State) (p : Nat) : List (Nat × Nat × Launch) :=
  let ws := s.waitingIn p
  let top := ws.foldl (fun n e => max n e.1) 0
  let turn (q : Nat) : Nat := (p * 256 + q + 2047 - (s.die (s.hq p q).die).lastQueue) % 2048
  let rec put (e : Nat × Nat × Launch) : List (Nat × Nat × Launch) → List (Nat × Nat × Launch)
    | [] => [e]
    | x :: t => if turn e.1 < turn x.1 then e :: x :: t else x :: put e t
  ((ws.filter (fun e => e.1 == top)).map (fun e => e.2)).foldr put []

/-- Whether the saved threads of a launch, each of which a save has pre-empted (R236), come before a new launch of a priority (R342, R346). -/
def State.resumeFirst (s : State) (p prio : Nat) : Bool :=
  s.launches.any (fun e => e.2.part == p && !e.2.done && !e.2.saved.isEmpty && e.2.prio ≥ prio)

/-- LAUNCH_DISPATCH (R341 to R344): the first waiting launch that the allocator can grant whole. -/
def execLaunchDispatch (part : Nat) (s : State) : Host.Outcome State Fault Refusal :=
  if s.dev.tripped then .next s
  else match (s.waitingFirst part).findSome? (fun e =>
      if s.resumeFirst part e.2.2.prio then none else (s.plan e.2.2).map (fun r => (e.1, e.2.1, e.2.2, r))) with
  | none => .next s
  | some (q, lid, l, rows) =>
    let s := s.dispatch lid l rows
    let h := s.hq part q
    .next (s.setHq part q false { h with waiting := none, started := h.started ++ h.waiting.toList })

/-! ## LAUNCH_COMPLETE (R215, R332, R348) -/

/-- Whether every thread of a launch has halted and every entry has completed; a launch whose last thread was ended by a KILL
completes once firmware reports it (R348, log entry 112). -/
def State.launchOver (s : State) (lid : Nat) (l : Launch) : Bool :=
  !l.done && !l.place.isEmpty && l.place.all (fun e => l.halted.contains e.1) && !s.entries.any (fun e => e.owner.1 == some lid) &&
    (l.outcome.isSome || !l.halted.getLast?.any l.killed.contains)

/-- The launch's packet among those its queue has started. -/
def State.launchPacket (s : State) (lid : Nat) (l : Launch) : Option Started :=
  (s.hq l.part l.queue).started.find? (fun x => x.type == 1 && x.ref == some lid)

/-- A launch is over: it holds nothing any more. -/
def State.closeLaunch (s : State) (lid : Nat) (l : Launch) : State :=
  { s with launches := s.launches.set lid { l with done := true },
           barriers := s.barriers.filter (fun e => barrierLaunch e.1 != lid) }

/-- LAUNCH_COMPLETE (R331, R332): the packet's writes, which may lie in any L1 of its partition, are performed at its rel scope before
its signal is written, and those of a launch that failed at system scope. -/
def execLaunchComplete (launch : Nat) (s : State) : Host.Outcome State Fault Refusal :=
  match s.launches.get? launch with
  | none => .next s
  | some l =>
    if !s.launchOver launch l then .next s
    else match s.launchPacket launch l with
      | none => .next ((s.closeLaunch launch l).sweepCode l.part)
      | some x =>
        let wide := l.outcome.isSome || fieldOf x.bytes 3 1 ≥ 2
        if s.agentHeld l.part .update x.sigSpans || s.descHeld l.part l.queue || (wide && s.flushPartHeld l.part) then .next s
        else
          let s := if wide then s.flushPart l.part else s
          let s := (s.closeLaunch launch l).sweepCode l.part
          .next (match l.outcome with
            | some c => s.packetFail l.part l.queue x c
            | none => s.packetDone l.part l.queue x)

/-! ## PREEMPTION (R346) -/

/-- The state as the allocator would find it without the launches that `gone` selects. -/
def State.without (s : State) (gone : Nat → Bool) : State :=
  { s with threads := s.threads.filter (fun e => match e.2.launch with
             | some lid => !gone lid
             | none => true),
           cores := s.cores.map (fun e => (e.1, match e.2.accOwner with
             | some (_, lid) => if gone lid then { e.2 with accOwner := none } else e.2
             | none => e.2)),
           launches := s.launches.map (fun e => if gone e.1 then (e.1, { e.2 with done := true }) else e) }

/-- The slots that a launch's threads stand in. -/
def State.slotsOf (s : State) (lid : Nat) : List Nat := (s.threads.filter (fun e => e.2.launch == some lid && e.2.st != .empty)).map Prod.fst

/-- The launches that a waiting one may pre-empt: those of lower priority in its partition that stand in slots. -/
def State.lower (s : State) (p prio : Nat) : List (Nat × Launch) :=
  s.launches.filter (fun e => e.2.part == p && !e.2.done && e.2.prio < prio && !(s.slotsOf e.1).isEmpty)

/-- Whether a launch has been pre-empted and every thread of it that stands in a slot is held (R346). -/
def State.allHeld (s : State) (lid : Nat) (l : Launch) : Bool := l.preempted && (s.slotsOf lid).all (fun k => (s.thread k).held)

/-- The slots that a pre-emption of a launch still has to hold: those whose threads an earlier one does not hold already. -/
def State.toHold (s : State) (lid : Nat) : List Nat :=
  match s.launches.get? lid with
  | some l => if l.preempted then (s.slotsOf lid).filter (fun k => !(s.thread k).held) else s.slotsOf lid
  | none => []

/-- The next launch to pre-empt: of the lowest priority, the newest (R346). -/
def nextVictim (ls : List (Nat × Launch)) : Option Nat :=
  (ls.foldl (fun (best : Option (Nat × Launch)) e => match best with
    | none => some e
    | some b => if e.2.prio < b.2.prio || (e.2.prio == b.2.prio && b.1 < e.1) then some e else some b) none).map Prod.fst

/-- PREEMPTION (R346): one whole launch is held for a waiting launch of a queue with the may-pre-empt flag that does not
fit even without the launches already held. -/
def execPreemption (part : Nat) (s : State) : Host.Outcome State Fault Refusal :=
  match (s.waitingFirst part).find? (fun e => bitAt (s.hq part e.1).flags 1) with
  | none => .next s
  | some (_, _, w) =>
    let low := s.lower part w.prio
    let held := (low.filter (fun e => s.allHeld e.1 e.2)).map Prod.fst
    if ((s.without held.contains).plan w).isSome || ((s.without (low.map Prod.fst).contains).plan w).isNone then .next s
    else match nextVictim (low.filter (fun e => !s.allHeld e.1 e.2)) with
      | none => .next s
      | some v => .next ((s.toHold v).foldl (fun s k => s.preemptSlot w.num k) s)

end Sys2Proof.Machine
end

