-- ==== Sys2Proof/Machine/Resets.lean ====
section
/-! DEFINITION. The reset ladder and bring-up (R333, R361 to R364, R366, R370). -/
namespace Sys2Proof.Machine

/-! ## Discarding work -/

/-- Removes the engine entries that `sel` selects, with the agents' queue entries that they stand for (R215). -/
def State.dropEntries (s : State) (sel : Entry → Bool) : State :=
  let ids := (s.entries.filter sel).map (fun e => e.id)
  { s.unhold ids with
    entries := s.entries.filter (fun e => !ids.contains e.id),
    aqueues := s.aqueues.map (fun e => (e.1, { e.2 with items := e.2.items.filter (fun i => !ids.contains i.id) })) }

/-- Ends a launch with a failure code: its threads end as by KILL and its entries are discarded (R363, rung 1). -/
def State.endLaunch (s : State) (lid code : Nat) : State :=
  let s := (s.slotsOf lid).foldl State.killThread s
  let s := s.dropEntries (fun e => e.owner.1 == some lid)
  match s.launches.get? lid with
  | none => s
  | some l => s.closeLaunch lid { l with outcome := some (l.outcome.getD code) }

/-- Ends what a started or waiting packet has made: its launch, or its copy entry. -/
def State.endPacket (s : State) (x : Started) : State :=
  match x.ref with
  | none => s
  | some r => if x.type = 1 then s.endLaunch r 5 else s.dropEntries (fun e => e.id == r)

/-- The valid packets of a queue that have not completed, in order (R333). -/
def State.openPackets (s : State) (p q : Nat) : List Started :=
  let h := s.hq p q
  h.started ++ h.waiting.toList ++ (List.range (h.wr - h.rd)).filterMap (fun i =>
    (s.bytes? p (h.packetAddr (h.rd + i)) 64).map (fun x => ⟨h.rd + i, x, none⟩))

/-- Rung 1 on a queue (R333, R363): its packets are discarded and −5 is written to their signals, a release at system scope
(R331). -/
def State.resetQueue (s : State) (p q : Nat) : State :=
  let xs := s.openPackets p q
  let s := (xs.foldl State.endPacket s).flushPart p
  let s := xs.foldl (fun s x => s.signalWith p q x (fun _ => 2 ^ 64 - 5)) s
  s.setHq p q false { s.hq p q with rd := (s.hq p q).wr, state := 1, ecode := 0, eindex := 0, started := [], waiting := none }

/-- Removes a posted request, or none where there is no such request. -/
def State.takeReq (s : State) (r : Req) : Option State :=
  if s.reqs.contains r then some { s with reqs := s.reqs.erase r } else none

/-- Whether what a reset of a queue accesses cannot be reached yet: its open packets, their signals and its descriptor (R364). -/
def State.queueAway (s : State) (p q : Nat) : Bool :=
  let h := s.hq p q
  s.agentHeld p .load ((s.descAddr p q, 64) :: (List.range (h.wr - h.rd)).map (fun i => (h.packetAddr (h.rd + i), 64))) ||
    s.agentHeld p .update ((s.openPackets p q).flatMap Started.sigSpans) || s.descHeld p q

/-- QUEUE_RESET (R333, R363): rung 1, and the descriptor is read again (R328). -/
def execQueueReset (part q : Nat) (s : State) : Host.Outcome State Fault Refusal :=
  match s.takeReq (.qreset part q) with
  | none => .next s
  | some s' =>
    if s'.queueAway part q || s'.flushPartHeld part then .next s
    else
      let s := s'.resetQueue part q
      let h := { s.hq part q with seen := true }
      .next ((match s.bytes? part (s.descAddr part q) 64 with
        | some x => if descOn x then s.setHq part q false (h.capture x) else s.setHq part q false { h with state := 0 }
        | none => s.setHq part q false { h with state := 0 }).raiseIrq (part + 1) 3)

/-! ## Frames and engine units (R363, rung 2) -/

/-- A tile unit without a frame. -/
def TileUnit.dropFrame (u : TileUnit) (fid : Nat) : TileUnit :=
  let mine : Bool := match u.bin with
    | some (g, _, _) => g == fid
    | none => false
  { u with bin := if mine then none else u.bin, prims := if mine then [] else u.prims, cur := if mine then none else u.cur,
           pixels := if mine then [] else u.pixels, frag := u.frag.filter (fun g => g.frame != fid),
           tiles := u.tiles.filter (fun t => t.frame != fid), frags := u.frags.filter (fun g => g.frame != fid) }

/-- An entry of an agent queue completes with error code 5. -/
def State.failItem (s : State) (key : Nat) (i : QItem) : State :=
  let s := match s.entries.find? (fun e => e.id == i.id) with
    | some e => s.recordErr e.owner 4 5
    | none => s
  s.processed key i.seq

/-- A frame whose unit is reset ends with −5 in its signal; the entries that its agents hold complete with error code 5. -/
def State.endFrame (s : State) (fid : Nat) : State :=
  match s.frame? fid with
  | none => s
  | some f =>
    if f.state = 3 then s
    else
      let held := f.queues.flatMap (fun k =>
        ((s.aqueue k).items.filter (fun i => i.taken || (match f.hand with
          | some h => k == f.queues.headD 0 && h.prim.seq == i.seq
          | none => false))).map (fun i => (k, i)))
      let s := held.foldl (fun s e => s.failItem e.1 e.2) s
      let s : State :=
        { s with tiles := s.tiles.map (fun (e : Nat × TileUnit) => (e.1, e.2.dropFrame fid)),
                 holds := s.holds.filter (fun h => h != (unitKey 4 f.lowest, meshTag fid)),
                 woken := s.woken.filter (fun h => h != (unitKey 4 f.lowest, meshTag fid)) }
      let s := f.clusters.foldl (fun s c => s.clearUnit 3 c) s
      let s := s.frameState fid { f with hand := none, ended := true, rendered := List.range f.bins } 3
      let sig := f.fld 0x60 8
      ((if sig = 0 then s else (s.rmw8 f.part sig (fun _ => 2 ^ 64 - 5)).getD s)).raiseIrq (f.part + 1) 2

/-- The frames that use a tile unit or a die's distributor. -/
def State.framesOn (s : State) (sel : Frame → Bool) : List Nat := (s.frames.filter (fun e => sel e.2)).map Prod.fst

/-- Whether what the end of a frame among those selected writes, its record and its signal, cannot be reached yet (R364). -/
def State.framesAway (s : State) (sel : Frame → Bool) : Bool :=
  s.frames.any (fun e => sel e.2 && e.2.state != 3 && (s.agentHeld e.2.part .store e.2.deviceSpan ||
    s.agentHeld e.2.part .update (if e.2.fld 0x60 8 = 0 then [] else [(e.2.fld 0x60 8, 8)])))

/-- The entries that an engine unit holds: kind 0 copy, 1 cell-march, 4 collective (R363). -/
def State.heldEntries (s : State) (kind unit : Nat) : List Nat :=
  (s.entries.filter (fun e => !e.finished && (match kind, e.job with
    | 1, .march m => m.taken && clusterOf e.slot == unit
    | 0, .copy _ _ _ => clusterOf e.slot == unit && (s.holds ++ s.woken).contains (unitKey 0 unit, e.id)
    | 0, .fill _ _ _ => clusterOf e.slot == unit && (s.holds ++ s.woken).contains (unitKey 0 unit, e.id)
    | 4, .coll _ _ _ _ _ _ _ _ => true
    | _, _ => false))).map (fun e => e.id)

/-- Whether a reset of a unit ends a frame: that of a tile unit, and that of a die's distributor. -/
def endsFrame (kind unit : Nat) (f : Frame) : Bool :=
  (kind == 2 && f.clusters.contains unit) || (kind == 3 && f.die == unit)

/-- Rung 2 on a unit. -/
def State.resetUnit (s : State) (kind unit : Nat) : State :=
  match kind with
  | 2 => ((s.framesOn (endsFrame 2 unit)).foldl State.endFrame s).clearUnit 3 unit
  | 3 => (s.framesOn (endsFrame 3 unit)).foldl State.endFrame s
  | _ =>
    let s' := (s.heldEntries kind unit).foldl (fun s id => s.finishEntry id 5) s
    match kind with
    | 0 => s'.clearUnit 0 unit
    | 1 => s'.clearUnit 2 unit
    | _ => s'.clearUnit 1 0

/-- ENGINE_RESET (R363). -/
def execEngineReset (part kind unit : Nat) (s : State) : Host.Outcome State Fault Refusal :=
  match s.takeReq (.ereset part kind unit) with
  | none => .next s
  | some s' => if s'.framesAway (endsFrame kind unit) then .next s else .next ((s'.resetUnit kind unit).raiseIrq (part + 1) 3)

/-! ## Rung 3: a partition (R363, R370) -/

/-- A core after a reset that discards its pool; the boundaries stay until a partition start sets them. -/
def State.resetCore (s : State) (c : Nat) : State :=
  (s.setCore c { Core.fresh with pool := (s.core c).pool }).zeroRange (scratchAddr c 0) (2 ^ 20)

/-- The cores of a cluster, its supervisor core last. -/
def clusterCores (c : Nat) : List Nat := (List.range 32).map (fun i => 32 * c + i) ++ [2048 + c]

/-- What a reset discards in a cluster: its slots, cores, gangs, trap ring, tile unit and held accesses. -/
def State.resetCluster (s : State) (c : Nat) : State :=
  let s := ((s.threads.filter (fun e => clusterOf e.1 == c)).map Prod.fst).foldl (fun s k => (s.dropLease k).vacate k) s
  let s := (clusterCores c).foldl State.resetCore s
  { s with quads := s.quads.filter (fun e => e.1 / 8 != c), clusters := s.clusters.erase c, tiles := s.tiles.erase c,
           marchLast := s.marchLast.erase c, holds := s.holds.filter (fun h => h.1 / 64 != c || h.1 % 64 == 1),
           woken := s.woken.filter (fun h => h.1 / 64 != c || h.1 % 64 == 1), threads := s.threads.filter (fun e => clusterOf e.1 != c),
           scq := s.scq.filter (fun a => clusterOfCore a.core != c), amoq := s.amoq.filter (fun a => clusterOfCore a.core != c) }

/-- The spare quad of a cluster takes the place of a quad whose uncorrectable count has reached the partition's limit
(R370). -/
def State.takeSpare (s : State) (p c : Nat) : State :=
  match (List.range 8).find? (fun i => s.dev.quadErrs.getD (8 * c + i) 0 ≥ (s.part p).spare.toNat) with
  | none => s
  | some i =>
    if (s.dev.spares.get? c).isSome then s
    else { s with dev := { s.dev with spares := s.dev.spares.set c i, quadErrs := s.dev.quadErrs.erase (8 * c + i) } }

/-- Rung 3 on a partition. -/
def State.resetPart (s : State) (p : Nat) : State :=
  let qs := (s.part p).queues.map Prod.fst
  let s := qs.foldl (fun s q => s.resetQueue p q) s
  let s := qs.foldl (fun s q => s.setHq p q false { s.hq p q with state := 0 }) s
  let s := (s.framesOn (fun f => f.part == p)).foldl State.endFrame s
  let s := ((s.launches.filter (fun e => e.2.part == p && !e.2.done)).map Prod.fst).foldl (fun s lid => s.endLaunch lid 5) s
  let s := s.dropEntries (fun e => e.part == p)
  let s := (s.framesOn (fun f => f.part == p)).foldl (fun s fid => match s.frame? fid with
    | some f =>
      let s := f.queues.foldl (fun s k => s.setAqueue k { s.aqueue k with frame := none }) s
      { s with frames := s.frames.erase fid }
    | none => s) s
  let s := (s.partClusters p).foldl State.resetCluster s
  let s := (s.partClusters p).foldl (fun s c => s.takeSpare p c) s
  s.setPart p { s.part p with state := 0, launchCount := 0, queues := [], goneCode := [], loaded := [] }

/-- Whether a request asks for a rung on a target. -/
def isRung (n : Nat) (target : Option Nat) : Req → Bool
  | .rung m t _ => m == n && target.all (· == t)
  | _ => false

/-- Drops the posted requests for a rung. -/
def State.dropRung (s : State) (n : Nat) (target : Option Nat) : State := { s with reqs := s.reqs.filter (fun r => !isRung n target r) }

/-- Whether what a partition's reset accesses cannot be reached yet (R364). -/
def State.partAway (s : State) (p : Nat) : Bool :=
  (s.part p).queues.any (fun e => s.queueAway p e.1) || s.flushPartHeld p || s.framesAway (fun f => f.part == p)

/-- RESET_PARTITION (R363): rung 3, or a virtual function's FLR; ignored during a seal (R365). -/
def execResetPartition (part : Nat) (s : State) : Host.Outcome State Fault Refusal :=
  if !s.dev.sealing && s.partAway part then .next s
  else
    let s := s.dropRung 3 (some part)
    .next (if s.dev.sealing then s else (s.resetPart part).raiseIrq (part + 1) 3)

/-! ## Rung 4: a die (R363, R364) -/

/-- The launches with a thread on a die. -/
def State.launchesOn (s : State) (die : Nat) : List Nat :=
  ((s.threads.filter (fun e => dieOf e.1 == die && e.2.st != .empty)).filterMap (fun e => e.2.launch)).eraseDups

/-- A launch with a thread on a reset die ends FAULT: all its threads end. -/
def State.faultLaunch (s : State) (lid : Nat) : State :=
  let s := (s.slotsOf lid).foldl State.killThread s
  match s.launches.get? lid with
  | none => s
  | some l =>
    let rest := (l.place.map Prod.fst).filter (fun t => !l.halted.contains t)
    { s with launches := s.launches.set lid { l with outcome := some (l.outcome.getD 4), halted := l.halted ++ rest } }

/-- The COPY packets whose entries a die's reset discards fail with QUEUE_RESET. -/
def State.failCopies (s : State) (die : Nat) : State :=
  (s.entries.filter (fun e => e.q == 5 && dieOf e.slot == die)).foldl (fun s e => match s.copyPacket e with
    | some (q, x) => s.packetFail e.part q x 5
    | none => s) s

/-- Rung 4 on a die: what its reset discards. -/
def State.resetDie (s : State) (die : Nat) : State :=
  let s := (List.range 16).foldl (fun s i => (clusterCores (16 * die + i)).foldl (fun s c => s.flushStrm c (fun _ => true)) s) s
  let s := (s.launchesOn die).foldl State.faultLaunch s
  let s := s.failCopies die
  let s := s.dropEntries (fun e => dieOf e.slot == die)
  let s := (s.framesOn (fun f => f.die == die)).foldl State.endFrame s
  let s := (List.range 16).foldl (fun s i => s.resetCluster (16 * die + i)) s
  let s := (List.range 8).foldl (fun s p => (s.partClusters p).foldl (fun s c => if dieOfCluster c = die then s.takeSpare p c else s) s) s
  let s := s.zeroRange (dieScratchAddr die 0) (2 ^ 30)
  s.setDie die { s.die die with inReset := true, holder := [] }

/-- Whether what a die's reset accesses cannot be reached yet: the homes of its dirty bytes, its frames' ends, and the signals and
descriptors of the COPY packets that it fails (R364). -/
def State.dieAway (s : State) (die : Nat) : Bool :=
  (List.range 16).any (fun i => (clusterCores (16 * die + i)).any s.flushHeld) || s.framesAway (fun f => f.die == die) ||
    (s.entries.filter (fun e => e.q == 5 && dieOf e.slot == die)).any (fun e => (s.copyPacket e).any (fun c =>
      s.agentHeld e.part .update c.2.sigSpans || s.descHeld e.part c.1))

/-- RESET_DIE (R363, R364): rung 4, once what it accesses waits for no other die in reset; ignored during a seal (R365). -/
def execResetDie (die : Nat) (s : State) : Host.Outcome State Fault Refusal :=
  if s.dieAway die && !s.dev.sealing then .next s
  else
    let s := s.dropRung 4 (some die)
    .next (if s.dev.sealing then s else s.resetDie die)

/-- DIE_RESET_RETURN (R364): the accesses held for the die go on. -/
def execDieResetReturn (die : Nat) (s : State) : Host.Outcome State Fault Refusal :=
  if (s.die die).inReset then .next ((s.setDie die { s.die die with inReset := false }).raiseIrq 0 3) else .next s

/-! ## Bring-up (R336, R361) -/

/-- The sequencer's patch image is checked and loaded, or the patch RAM stays invalid with fail code 0x12 (R336, R361). -/
def State.loadPatch (s : State) : State :=
  let ok := Config.nyldoronPasses s.fresh
  let v : BitVec 32 := if ok then Config.patchVersion s.fresh else 0
  let d := { s.dev with
    patched := ok, fail := if ok then s.dev.fail else 0x12,
    patchRam := if ok then (Config.patchImage s.fresh).filter (fun e => e.1 < 128) else [] }
  ({ s with dev := d, parts := (List.range 8).map (fun p => (p, { s.part p with patch := v })) }).bump

/-- The word that the queue sequencer fetches at an address of its control store (R336): that of the valid patch entry with the lowest
number whose address it is, or the control store's own. -/
def State.microWord (s : State) (a : BitVec 12) : BitVec 96 :=
  match least ((s.dev.patchRam.filter (fun e => e.2.1 == a)).map Prod.fst) with
  | some n => (s.dev.patchRam.getD n (a, Config.controlStore a)).2
  | none => Config.controlStore a

/-- The fail code of a stage, and whether it stops bring-up (R361). -/
def stageFail (n : Nat) : BitVec 8 × Bool :=
  match n with
  | 1 => (0x11, false)
  | 2 => (0x21, true)
  | 3 => (0x31, true)
  | 4 => (0x41, true)
  | 5 => (0x42, true)
  | 7 => (0x52, false)
  | _ => (0, false)

/-- Runs stages of bring-up up to the first that stops it (R361). -/
def State.stages (s : State) : List Nat → State
  | [] => s
  | n :: t =>
    let s := { s with dev := { s.dev with stage := BitVec.ofNat 4 n } }
    let s := if n = 1 then s.loadPatch else s
    if n = 6 || n = 8 || Config.stagePasses (s.fresh * 16 + n) then s.stages t
    else
      let (c, stop) := stageFail n
      let s := { s with dev := { s.dev with fail := c } }
      if stop then s else s.stages t

/-- Whether a store address lies in this package's memories. -/
def State.ownCell (s : State) (a : Nat) : Bool :=
  a ≥ 2 ^ 56 || (paPkg a == s.dev.pkg.toNat && (isNear (paOff a) || isFar (paOff a)))

/-- Whether a store address lies in this package's Stillwater region. -/
def State.inStillwater (s : State) (a : Nat) : Bool := a < 2 ^ 56 && paPkg a == s.dev.pkg.toNat && isStillwater (paOff a)

/-- Drops the written bytes, poison and latent errors of the storage that `sel` selects. -/
def State.wipe (s : State) (sel : Nat → Bool) : State :=
  { s with mem := s.mem.filter (fun c => !sel c.1), poison := s.poison.filter (fun a => !sel a),
           latent := s.latent.filter (fun a => !sel a), tierErrs := s.tierErrs.filter (fun l => !sel (l * 64)) }

/-- Whether a posted request is the root of trust's or the reset controller's, which a function-level reset leaves (R363). -/
def Req.survives : Req → Bool
  | .mailbox | .restore | .startSeal | .rung _ _ _ => true
  | _ => false

/-- What rungs 5 and 6 and cold reset discard beside memory: all compute state (R363). c.time is zeroed (R10). -/
def State.resetCompute (s : State) : State :=
  let s := (List.range 8).foldl State.resetPart s
  let s := s.wipe (fun a => a ≥ 2 ^ 56)
  { s with
    clk := 0, gtime := s.podTime, gclk := 0, gadj := 0, threads := [], cores := [], quads := [], clusters := [],
    dies := s.dies.map (fun e => (e.1, { e.2 with inReset := false, lastQueue := 2047, nextStart := 0, holder := [] })),
    parts := [], launches := [], barriers := [], homes := [], scq := [], amoq := [], entries := [], fences := [], remote := [], aqueues := [],
    frames := [], tiles := [], marchLast := [], holds := [], woken := [], reqs := s.reqs.filter Req.survives, strong := [], hotness := [],
    hotOut := [] }

/-- RESET_FUNCTION (R363): rung 5, or the physical function's FLR; ignored during a seal (R365). -/
def execResetFunction (wipe : Bool) (s : State) : Host.Outcome State Fault Refusal :=
  let s := s.dropRung 5 none
  if s.dev.sealing then .next s
  else
    let s := s.resetCompute
    let s : State := if wipe then { s.wipe s.ownCell with image := none, dev := { s.dev with sealed := false } } else s
    .next (s.loadPatch.raiseIrq 0 3)

/-- What rung 6 and cold reset discard: everything but what `keepImage` says survives in Stillwater (R363, R365). -/
def State.resetAll (s : State) (keepImage : Bool) : State :=
  let s := s.resetCompute
  let s := s.wipe (fun a => s.ownCell a && !(keepImage && s.inStillwater a))
  let d := s.dev
  { s with
    gtime := 0, dies := [], reqs := [], image := if keepImage then s.image else none,
    dev := { Device.fresh with
      stage := 0, lc := d.lc, sealed := keepImage && d.sealed, sealKey := if d.keep then d.sealKey else none, keyRecv := d.keyRecv,
      spares := d.spares, lanes := d.lanes, bootCount := d.bootCount + 1, irqs := d.irqs } }

/-- Rung 6 itself: links retrain from stage 2. Bring-up stands before stage 7, so that pkg can be written (R354). -/
def State.deviceReset (s : State) : State :=
  let keep := s.dev.keep && s.dev.sealed
  let s := (s.resetAll keep).loadPatch
  (s.stages [2, 3, 4, 5, 6]).bump.raiseIrq 0 3

/-- A seal begins (R279, R365): every slot halts, and every dirty line goes home. -/
def State.beginSeal (s : State) : State :=
  let s := (s.cores.map Prod.fst).foldl (fun s c => s.flushStrm c (fun _ => true)) s
  { s with threads := s.threads.map (fun e => (e.1, { e.2 with held := true })), dev := { s.dev with sealing := true } }

/-- RESET_DEVICE (R363, R365): rung 6, or PERST#; a seal comes first when keep is set. -/
def execResetDevice (s : State) : Host.Outcome State Fault Refusal :=
  let s := s.dropRung 6 none
  if s.dev.sealing then .next { s with dev := { s.dev with rung6Held := true } }
  else if s.dev.keep && !(s.dev.tripped && s.dev.sealed) then
    let s := s.beginSeal
    .next { s with dev := { s.dev with rung6Held := true } }
  else .next s.deviceReset

/-- POWER_UP (R361, R362): cold reset and stages 1 to 6; where bring-up stands there, its next step is Tarn training and
stage 8. -/
def execPowerUp (s : State) : Host.Outcome State Fault Refusal :=
  if s.dev.stage = 6 then .next (s.stages [7, 8]).bump
  else
    let s := s.resetAll false
    let s := { s with dev := { s.dev with sealKey := some s.uid, keyRecv := false, irqs := [] }, uid := s.uid + 1 }
    .next (s.stages [1, 2, 3, 4, 5, 6]).bump

end Sys2Proof.Machine
end

