-- ==== Sys2Proof/Machine/Device.lean ====
section
/-! DEFINITION. Sealing, restoring, the mailbox, and power and cooling (R279, R365 to R368, R371). -/
namespace Sys2Proof.Machine

/-! ## Sealing (R279, R365, R368) -/

/-- Whether a store address is sealed (R279): the near tier, die scratch and core scratch. -/
def State.sealedPlace (s : State) (a : Nat) : Bool := a ≥ 2 ^ 56 || (paPkg a == s.dev.pkg.toNat && isNear (paOff a))

/-- Whether a poisoned word of a thread lies in its core's pool: a word of a vector register. -/
def inFile (p : Nat) : Bool := 0x10000 ≤ p && p < 0x20000

/-- The accumulator stores with their poison, by core (R279). -/
def State.accImage (s : State) : List (Nat × Tab (BitVec 32) × List Nat) := s.cores.map (fun e => (e.1, e.2.acc, e.2.accPoison))

/-- The register files in the core pools with their poison, by slot (R279). -/
def State.fileImage (s : State) : List (Nat × Tab (BitVec 1024) × List Nat) :=
  s.threads.map (fun e => (e.1, e.2.v.map (fun r => (r.1, r.2.bits)), e.2.poison.filter inFile))

/-- SEAL (R365): a write of the seal bit starts a seal. -/
def execSeal (s : State) : Host.Outcome State Fault Refusal :=
  match s.takeReq .startSeal with
  | none => .next s
  | some s => .next (if s.dev.sealing then s else s.beginSeal)

/-- SEAL_COMPLETE (R279, R365): Stillwater holds the image, sealed is set, and a held rung 6 takes effect. -/
def execSealComplete (s : State) : Host.Outcome State Fault Refusal :=
  if !s.dev.sealing then .next s
  else
    let im : Image := { id := s.uid, key := s.dev.sealKey, cells := s.mem.filter (fun c => s.sealedPlace c.1),
                        poison := s.poison.filter s.sealedPlace, accs := s.accImage, files := s.fileImage, foreign := [] }
    let held := s.dev.rung6Held
    let s := s.wipe s.inStillwater
    let s := { s with image := some im, uid := s.uid + 1, dev := { s.dev with sealed := true, sealing := false, rung6Held := false } }
    .next (if held then s.deviceReset else s)

/-- Puts an image's bytes and poison back where they were sealed from (R368). -/
def State.putImage (s : State) (cells : List Host.Cell) (poison : List Nat) : State :=
  let s := s.wipe s.sealedPlace
  { s with mem := (cells.filter (fun c => s.sealedPlace c.1)).foldl (fun m c => memSet m c.1 c.2) s.mem, poison := s.poison ++ poison }

/-- Puts an image's accumulator words back (R279, R368). -/
def State.putAccs (s : State) (accs : List (Nat × Tab (BitVec 32) × List Nat)) : State :=
  accs.foldl (fun s e => s.setCore e.1 { s.core e.1 with acc := e.2.1, accPoison := e.2.2 })
    { s with cores := s.cores.map (fun e => (e.1, { e.2 with acc := [], accPoison := [] })) }

/-- A register file with an image's words; a register's tag is not of the core pool, and stays. -/
def Thread.putFile (t : Thread) (file : Tab (BitVec 1024)) (poison : List Nat) : Thread :=
  { t with v := file.foldl (fun v r => v.set r.1 { v.getD r.1 ⟨0, 0, 0⟩ with bits := r.2 }) (t.v.map (fun r => (r.1, { r.2 with bits := 0 }))),
           poison := t.poison.filter (fun p => !inFile p) ++ poison.filter inFile }

/-- Puts an image's register files back (R279, R368). -/
def State.putFiles (s : State) (files : List (Nat × Tab (BitVec 1024) × List Nat)) : State :=
  files.foldl (fun s e => s.setThread e.1 ((s.thread e.1).putFile e.2.1 e.2.2))
    { s with threads := s.threads.map (fun e => (e.1, e.2.putFile [] [])) }

/-- RESTORE (R368): an image of this package under its own key restores; any other is accepted or refused as its check
value says, and what it decrypts to is free. -/
def execRestore (s : State) : Host.Outcome State Fault Refusal :=
  match s.takeReq .restore with
  | none => .next s
  | some s =>
    let no : State := { s with dev := { s.dev with mstat := 3 } }
    if s.dev.sealKey.isNone || (!s.dev.sealed && !s.dev.keyRecv) then .next no
    else
      let mine := match s.image with
        | some im => im.key == s.dev.sealKey && im.foreign.isEmpty && s.dev.sealed
        | none => false
      let whole := match s.image with
        | some im => im.foreign.isEmpty
        | none => false
      if !mine && !Config.nyldoronPasses s.fresh then .next no.bump
      else
        let s' := match s.image, whole with
          | some im, true => ((s.putImage im.cells im.poison).putAccs im.accs).putFiles im.files
          | _, _ =>
            ((s.putImage (Config.restoredCells s.fresh) []).putAccs (Config.restoredAccs s.fresh)).putFiles (Config.restoredFiles s.fresh)
        .next { s'.bump with image := none, dev := { s'.dev with sealed := false } }

/-! ## Power and cooling (R371) -/

/-- THERMAL_TRIP (R371): a sensor reaches 110 °C: the module seals if keep is set, and holds every slot. -/
def execThermalTrip (s : State) : Host.Outcome State Fault Refusal :=
  let s := if s.dev.keep && !s.dev.sealing then s.beginSeal else s
  .next { s with threads := s.threads.map (fun (e : Nat × Thread) => (e.1, { e.2 with held := true })), dev := { s.dev with tripped := true } }

/-- POWER_LIMIT_THROTTLE (R371): idle clk between the K-steps of the arrays; no result changes. -/
def execPowerLimitThrottle (s : State) : Host.Outcome State Fault Refusal :=
  let n := Config.idleClk s.fresh
  .next ({ s with quads := s.quads.map (fun (e : Nat × Gang) =>
    (e.1, if e.2.step.isSome then { e.2 with endAt := e.2.endAt + n } else e.2)) } : State).bump

/-! ## The mailbox (R366 to R368) -/

/-- The store address of a byte of the mailbox buffer, in host memory (R265, R354). -/
def State.mboxAddr (s : State) (off : Nat) : Nat := 0x180000000000 + s.dev.mbuf.toNat + off

/-- A mailbox command ends: 2 done, 3 refused. -/
def State.mboxEnd (s : State) (st : BitVec 2) : State := ({ s with dev := { s.dev with mstat := st } } : State).raiseIrq 0 3

/-- The posted command where it is the one named; an unknown command is refused in the place of a REPORT (R367). -/
def mboxCommand (n : Nat) (run : State → State) (s : State) : Host.Outcome State Fault Refusal :=
  match s.takeReq .mailbox with
  | none => .next s
  | some s' =>
    let c := s.dev.mbox.toNat % 256
    if c = n then .next (run s') else if c > 5 && n = 0 then .next (s'.mboxEnd 3) else .next s

/-- `n` bytes from the root of trust, as a number. -/
def trustBytes (use n : Nat) : Nat := (List.range n).foldr (fun i x => (Config.nyldoronByte (use * 4096 + i)).toNat + 256 * x) 0

/-- A report (R368): the digests and the signature are the root of trust's. -/
def State.report (s : State) (nonce : Nat) : Nat :=
  let d := s.dev
  0x0152444B + 1 * 2 ^ 32 + d.lc.toNat * 2 ^ 48 + d.pkg.toNat * 2 ^ 56 + d.bootCount.toNat * 2 ^ 64 + nonce * 2 ^ 128 +
    trustBytes s.fresh 32 * 2 ^ 384 + (if d.patched then trustBytes (s.fresh + 1) 32 else 0) * 2 ^ 640 +
    trustBytes (s.fresh + 2) 32 * 2 ^ 896 + controlRead s 0x018 * 2 ^ 1152 + trustBytes (s.fresh + 3) 384 * 2 ^ 2048

/-- MBOX_REPORT (R367, R368). -/
def execMboxReport (s : State) : Host.Outcome State Fault Refusal :=
  mboxCommand 0 (fun s =>
    let nonce := s.read (s.mboxAddr 0) 32
    ((s.write none (s.mboxAddr 0) 640 (s.report nonce)).bump.bump.bump.bump).mboxEnd 2) s

/-- MBOX_CERT (R367). -/
def execMboxCert (s : State) : Host.Outcome State Fault Refusal :=
  mboxCommand 1 (fun s =>
    let c := Config.certificate s.dev.pkg.toNat
    (s.write none (s.mboxAddr 0) c.length (c.foldr (fun b x => b.toNat + 256 * x) 0)).mboxEnd 2) s

/-- MBOX_LIFECYCLE (R366, R367): a move to a higher state destroys the seal key, wipes every memory and ends with rung 6. -/
def execMboxLifecycle (s : State) : Host.Outcome State Fault Refusal :=
  mboxCommand 2 (fun s =>
    let v := s.dev.mbox.extractLsb' 8 2
    if v.toNat ≤ s.dev.lc.toNat then s.mboxEnd 2
    else ({ s with dev := { s.dev with lc := v, sealKey := none, keep := false, sealed := false } } : State).deviceReset) s

/-- A partition starts (R355, R367, R227): its pool layout goes to its cores, its trap rings are empty, and its table roots
take effect. -/
def State.startPart (s : State) (p : Nat) : State :=
  let x := s.part p
  let cs := s.partClusters p
  let s := (cs.flatMap clusterCores).foldl (fun s c => s.setCore c { s.core c with pool := x.pool }) s
  let s := { s with clusters := cs.foldl (fun t c => t.erase c) s.clusters }
  s.setPart p { x with state := 1, uEff := x.uroot, sEff := x.sroot, poolEff := x.pool }

/-- MBOX_LOADSPRING (R366, R367): the firmware image is checked and its partition starts; refused in BLANK. -/
def execMboxLoadspring (s : State) : Host.Outcome State Fault Refusal :=
  mboxCommand 3 (fun s =>
    if s.dev.lc = 0 || !Config.nyldoronPasses s.fresh then s.bump.mboxEnd 3
    else (s.startPart (bitsOf s.dev.mbox.toNat 16 3)).bump.mboxEnd 2) s

/-- MBOX_KEYXFER (R367): the seal key, wrapped to the public key at mbuf, whose certificate is checked. -/
def execMboxKeyxfer (s : State) : Host.Outcome State Fault Refusal :=
  mboxCommand 4 (fun s =>
    if s.dev.sealKey.isNone || !Config.nyldoronPasses s.fresh then s.bump.mboxEnd 3
    else (s.write none (s.mboxAddr 0) 384 (trustBytes s.fresh 384)).bump.mboxEnd 2) s

/-- MBOX_KEYRECV (R367): a key is unwrapped from mbuf and installed as the seal key. -/
def execMboxKeyrecv (s : State) : Host.Outcome State Fault Refusal :=
  mboxCommand 5 (fun s =>
    if !Config.nyldoronPasses s.fresh then s.bump.mboxEnd 3
    else ({ s with uid := s.uid + 1, dev := { s.dev with sealKey := some s.uid, keyRecv := true } } : State).bump.mboxEnd 2) s

end Sys2Proof.Machine
end

