-- ==== Sys2Proof/Machine/Events.lean ====
section
/-! DEFINITION. Steps that the machine makes of itself: the landing of results (R21), the trap ring and its dispatcher (R227),
the STRM bytes of an L1 (R244, R250) and the records of strong accesses (R254). -/
namespace Sys2Proof.Machine

/-- LONG_LATENCY_RESULT_LAND (R21): the n-th pending result of a slot lands, where it may. -/
def execLongLatencyResultLand (slot n : Nat) (s : State) : Host.Outcome State Fault Refusal :=
  let t := s.thread slot
  match t.pend[n]? with
  | none => .next s
  | some p =>
    if s.landable slot p then .next (s.setThread slot (({ t with pend := t.pend.eraseIdx n }.land p).readyAt t s.clk)) else .next s

/-- TRAP_RECORD_DEFERRED_WRITE (R227): a record that waits for a place in a cluster's ring is written. -/
def execTrapRecordDeferredWrite (cluster : Nat) (s : State) : Host.Outcome State Fault Refusal := .next (s.pumpRing cluster 64)

/-- The lowest EMPTY Spring slot of a cluster. -/
def State.emptySpring (s : State) (c : Nat) : Option Nat :=
  ((List.range 16).map (fun i => 32768 + c * 16 + i)).find? (fun k => (s.thread k).st == .empty)

/-- The virtual address of a place of a cluster's trap ring, through the die scratch window (R30, R355). -/
def State.ringVa (s : State) (part c place : Nat) : Word :=
  BitVec.ofNat 64 (winDie + (s.part part).tring.toNat + 4096 * (c % 16) + 64 * place)

/-- SPRING_DISPATCH (R227): the oldest record that no Spring slot has taken starts one at the firmware's entry point, with
its format and scale shadows 0 (log entry 117). -/
def execSpringDispatch (cluster : Nat) (s : State) : Host.Outcome State Fault Refusal :=
  let x := s.cluster cluster
  let p := s.partOfCluster cluster
  match x.undelivered, s.emptySpring cluster with
  | (place, r) :: rest, some k =>
    if (s.part p).state ≠ 1 || s.dev.tripped then .next s
    else
      let t := { Thread.empty with
        st := .running, part := p, ringPos := some place, ident := s.uid, pc := (s.part p).entry, ready := s.clk + 1,
        g := [(1, s.ringVa p cluster place)], cause := r.cause.zeroExtend 64, tval := r.tval, epc := r.resume }
      .next { (s.setCluster cluster { x with undelivered := rest }).setThread k t with uid := s.uid + 1 }
  | _, _ => .next s

/-- Writes one line of a core's dirty STRM bytes to its home (R250). -/
def State.evictStrm (s : State) (core line : Nat) : State := s.flushStrm core (· == line)

/-- STRM_LINE_EVICTION (R250): a core's dirty bytes of a line reach the line's home. -/
def execStrmLineEviction (core line : Nat) (s : State) : Host.Outcome State Fault Refusal :=
  if s.homeDown (line * 64) 1 then .next s else .next (s.evictStrm core line)

/-- ACCESS_PERFORMED (R244): stores are performed for every agent when they issue, but for those of STRM lines that the core
keeps (log entry 13). The oldest atomic of the core that waits at its home and may go is performed there (R165); else the
oldest of the core's STRM lines goes to its home. -/
def execAccessPerformed (core : Nat) (s : State) : Host.Outcome State Fault Refusal :=
  match s.amoq.find? (fun r => r.core == core && s.amoReady r) with
  | some r => .next (s.performAmo r)
  | none =>
    match (s.core core).strm with
    | [] => .next s
    | (a, _) :: _ => if s.homeDown a 1 then .next s else .next (s.evictStrm core (lineOf a))

/-- MIXTRAP_RECORD_DROP (R254): a home drops its record of a line's last strong access. -/
def execMixtrapRecordDrop (line : Nat) (s : State) : Host.Outcome State Fault Refusal :=
  .next { s with strong := s.strong.erase line }

end Sys2Proof.Machine
end

