-- ==== Sys2Proof/Machine/Graphics.lean ====
section
/-! DEFINITION. The issue of SAMPLE, BOXTEST, TRITEST and PARTITION (R188 to R201). -/
namespace Sys2Proof.Machine

/-- c.vl above 32 (R188, R407). -/
def planeCheck (s : State) (vl : Nat) : Res Unit := if vl > 32 then trapNow s 0x04 0x1000 else .ok ()

/-- The alignment of a descriptor's address (R190). -/
def descAlign (s : State) (x : Word) : Res Unit := if x.toNat % 64 ≠ 0 then trapNow s 0x07 x else .ok ()

/-- SAMPLE (R189), by its filter. -/
def issueSample (filter : Nat) (w : Bool) (d a b : BitVec 5) (m : BitVec 3) (s : State) : Res State := do
  let (vl, vs, s) ← vecBegin w s
  boundCheck s [d.toNat, b.toNat] []
  tagCheck s 0 [(d.toNat, fun x y => x == 0x0B && y == 4), (b.toNat, fun x y => x == 0x0B && y == 4)]
  planeCheck s vl
  let s ← noRegion s
  let (x, s) ← readG s a.toNat
  descAlign s x
  vecIssue s { mkCmd s (.sample filter) d.toNat a.toNat b.toNat m.toNat vl vs with x := x }

/-- BOXTEST and TRITEST (R195, R197): `n` the registers of v[d]. -/
def issueRays (op : VOp) (n : Nat) (w : Bool) (d a b m : Nat) (s : State) : Res State := do
  let (vl, vs, s) ← vecBegin w s
  if vs ≠ 0 then illegal s
  else
    boundCheck s [d, b] []
    let clear := !overlaps d n b 8
    tagCheck s 0 [(d, fun x y => x == 0x0B && y == n && clear), (b, fun x y => x == 0x0B && y == 8)]
    planeCheck s vl
    let s ← noRegion s
    let (x, s) ← readG s a
    let (y, s) ← readG s (a + 1)
    descAlign s x
    vecIssue s { mkCmd s op d a b m vl vs with x := x, y := y }

/-- PARTITION (R200). -/
def issuePartition (w : Bool) (d a b m : Nat) (s : State) : Res State := do
  let (vl, vs, s) ← vecBegin w s
  if vs ≠ 0 then illegal s
  else
    boundCheck s [b] []
    tagCheck s 0 [(b, fun x y => x == 0x06 && y == 1)]
    planeCheck s vl
    let s ← noRegion s
    let (x, s) ← readG s a
    let (y, s) ← readG s (a + 1)
    descAlign s x
    vecIssue s { mkCmd s .partition d a b m vl vs with x := x, y := y }

/-- SAMPLE_NEAR (R189). -/
def execSampleNear (w : Bool) (d a b : BitVec 5) (m : BitVec 3) (s : State) : Host.Outcome State Fault Refusal :=
  finish s (issueSample 0 w d a b m s)

/-- SAMPLE_BIL (R189). -/
def execSampleBil (w : Bool) (d a b : BitVec 5) (m : BitVec 3) (s : State) : Host.Outcome State Fault Refusal :=
  finish s (issueSample 1 w d a b m s)

/-- SAMPLE_TRI (R189). -/
def execSampleTri (w : Bool) (d a b : BitVec 5) (m : BitVec 3) (s : State) : Host.Outcome State Fault Refusal :=
  finish s (issueSample 2 w d a b m s)

/-- BOXTEST (R197). -/
def execBoxtest (w : Bool) (d : BitVec 5) (a : BitVec 4) (b : BitVec 5) (m : BitVec 3) (s : State) : Host.Outcome State Fault Refusal :=
  finish s (issueRays .boxtest 1 w d.toNat (2 * a.toNat) b.toNat m.toNat s)

/-- TRITEST (R197). -/
def execTritest (w : Bool) (d : BitVec 5) (a : BitVec 4) (b : BitVec 5) (m : BitVec 3) (s : State) : Host.Outcome State Fault Refusal :=
  finish s (issueRays .tritest 4 w d.toNat (2 * a.toNat) b.toNat m.toNat s)

/-- PARTITION (R200). -/
def execPartition (w : Bool) (d : BitVec 5) (a : BitVec 4) (b : BitVec 5) (m : BitVec 3) (s : State) : Host.Outcome State Fault Refusal :=
  finish s (issuePartition w d.toNat (2 * a.toNat) b.toNat m.toNat s)

end Sys2Proof.Machine
end

