-- ==== Sys2Proof/Machine/HostSide.lean ====
section
/-! DEFINITION. What the host, the pod and chance do to the package (R251, R278, R280, R356, R358, R360, R361, R370). -/
namespace Sys2Proof.Machine

/-! ## BAR2 and other packages (R251, R356) -/

/-- The near-tier base of a function's BAR2 aperture: function 0 is the physical one, v + 1 virtual function v. -/
def State.aperture (s : State) (fn : Nat) : Nat :=
  (if fn = 0 then s.dev.b2base.toNat else (s.part (fn - 1)).b2base.toNat) * 2 ^ 30

/-- HOST_BAR2_ACCESS (R356, R251): a write where `data` is given, else a read, whose value goes to the host. An access beyond
the near tier is not performed and is logged. -/
def execHostBar2Access (fn off n : Nat) (data : Option (BitVec 64)) (s : State) : Host.Outcome State Fault Refusal :=
  let x := off + s.aperture fn
  let pa := s.dev.pkg.toNat * 2 ^ 45 + x
  if x + n > 0x6000000000 then .next { s with dev := { s.dev with aer := s.dev.aer ++ [(fn, off, data.isSome)] } }
  else if s.spansHeld [⟨pa, 2, n⟩] then .next s
  else match data with
    | some v => .next (s.write none pa n v.toNat)
    | none => .next s

/-- The bytes of Stillwater that a write from another package changes are no longer the image that was sealed (R369). -/
def State.overImage (s : State) (a n : Nat) : State :=
  match s.image with
  | some im => if s.inStillwater a then { s with image := some { im with foreign := im.foreign ++ (List.range n).map (· + a) } } else s
  | none => s

/-- Whether a write puts back the sealed image's own bytes, as another package read them (R369). -/
def State.putsBack (s : State) (a n v : Nat) : Bool :=
  match s.image with
  | some im => s.inStillwater a && (List.range n).all (fun i =>
      !im.foreign.contains (a + i) && (Config.sealedByte (im.id * 2 ^ 64 + a + i)).toNat == fieldOf v i 1)
  | none => false

/-- ACCESS_FROM_ANOTHER_PACKAGE (R251, R279): performed at this package's home, its own Stillwater included; what a read
returns goes to the other package. -/
def execAccessFromAnotherPackage (addr n : Nat) (data : Option (BitVec 64)) (s : State) : Host.Outcome State Fault Refusal :=
  if paPkg addr ≠ s.dev.pkg.toNat || paReserved addr || addr ≥ 2 ^ 52 || s.spansHeld [⟨addr, 2, n⟩] then .next s
  else match data with
    | none => .next s
    | some v =>
      if s.isReg addr 2 then .next (regWrite s false (paOff addr - 0x100000000000) n v.toNat)
      else if s.putsBack addr n v.toNat then .next s
      else .next ((s.overImage addr n).write none addr n v.toNat)

/-! ## Tarn and pod time (R358, R360, R361, R370) -/

/-- TARN_LANE_FAIL (R370): a spare lane comes in; a link has two. -/
def execTarnLaneFail (link : Nat) (s : State) : Host.Outcome State Fault Refusal :=
  if link ≥ 9 then .next s
  else .next { s with dev := { s.dev with lanes := s.dev.lanes.set link (min (s.dev.lanes.getD link 0 + 1) 2) } }

/-- TARN_LINK_LOSS (R360): a link goes down; a package left without a link to the master clears locked. -/
def execTarnLinkLoss (link : Nat) (s : State) : Host.Outcome State Fault Refusal :=
  let ls := s.dev.links.erase link
  let linked := !ls.isEmpty && Config.masterLinked s.fresh
  .next ({ s with dev := { s.dev with links := ls, locked := s.dev.locked && (linked || s.dev.master) } } : State).bump

/-- TARN_LINK_TRAINING (R358, R361): a link trains, but for one whose far end reports this package's index. -/
def execTarnLinkTraining (link farPkg : Nat) (s : State) : Host.Outcome State Fault Refusal :=
  if link ≥ 9 then .next s
  else if farPkg % 128 = s.dev.pkg.toNat then
    .next { s with dev := { s.dev with fail := 0x51, links := s.dev.links.erase link } }
  else .next { s with dev := { s.dev with links := s.dev.links.set link (farPkg % 128) } }

/-- POD_TIME_SYNC (R360): the master's time arrives over a link; the counter slews towards it, and locked tells whether it
lies within 25 ns. -/
def execPodTimeSync (time : BitVec 64) (s : State) : Host.Outcome State Fault Refusal :=
  if s.dev.master || s.dev.links.isEmpty then .next s
  else
    let now := s.podTime
    let d : Int := (time.toNat : Int) - now
    .next { s with gtime := now, gclk := s.clk, gadj := d, dev := { s.dev with locked := d.natAbs ≤ 25 } }

/-! ## Hotness (R278) -/

/-- Where a region's entry lies in a hotness table, by the region's number within the package. -/
def hotIndex (r : Nat) : Nat := if r < 0x600000 then r else 6291456 + (r - 0x1000000)

/-- SatN of R33 at 16 bits. -/
def satAdd16 (a b : Nat) : Nat := min (a + b) 0xFFFF

/-- A table entry after a region's counters have been written. -/
def hotEntry (old epoch u t i : Nat) : Nat :=
  let same := bitsOf old 48 16 == epoch % 65536
  let a (lo x : Nat) : Nat := if same then satAdd16 (bitsOf old lo 16) x else x
  epoch % 65536 * 2 ^ 48 + a 32 i * 2 ^ 32 + a 16 t * 2 ^ 16 + a 0 u

/-- Writes one region's counters to its partition's table, under the epoch in which they were counted (R278). -/
def State.writeHot (s : State) (e : HotEntry) : State :=
  let base := (s.part e.part).hot.toNat
  let a := base + 8 * hotIndex e.region
  if base = 0 || paReserved a then s else s.write none a 8 (hotEntry (s.read a 8) e.epoch e.u e.t e.i)

/-- Whether the entry of a region in the hotness table of a partition that has one is homed on a die in reset (R364). -/
def State.hotHeld (s : State) (e : HotEntry) : Bool :=
  (s.part e.part).hot != 0 && s.homeDown ((s.part e.part).hot.toNat + 8 * hotIndex e.region) 2

/-- HOTNESS_EPOCH_END (R278): the slices write the regions that they counted in epochs that have ended, and those put aside earlier,
to the hotness table and clear their counters. -/
def execHotnessEpochEnd (s : State) : Host.Outcome State Fault Refusal :=
  let ended (e : HotEntry) : Bool := e.epoch != epochAt s.clk
  let out := s.hotOut ++ s.hotness.filter ended
  let s' := (out.filter (fun e => !s.hotHeld e)).foldl State.writeHot s
  .next { s' with hotness := s.hotness.filter (fun e => !ended e), hotOut := out.filter s.hotHeld }

/-! ## Errors (R280, R284) -/

/-- The die that holds a store address. -/
def dieOfStore (a : Nat) : Nat :=
  if a ≥ 2 ^ 57 then (a - 2 ^ 57) / 2 ^ 30 else if a ≥ 2 ^ 56 then dieOfCluster (clusterOfCore ((a - 2 ^ 56) / 2 ^ 20)) else homeDie a

/-- Counts a corrected error on a die, of a row of R280's table (R284). -/
def State.countCorrected (s : State) (die row : Nat) : State :=
  let d := s.die die
  s.setDie die { d with corrected := d.corrected.set row (sat32 (d.corrected.getD row 0)) }

/-- The structure code and location of a word of storage (R283). -/
def memPlace (a : Nat) : Nat × Nat := ((memTval a).toNat / 2 ^ 56, (memTval a).toNat % 2 ^ 56)

/-- PATROL_SCRUB (R280): the scrubber reads the line of a store address: correctable errors are corrected and counted, and
poison is logged. -/
def execPatrolScrub (addr : Nat) (s : State) : Host.Outcome State Fault Refusal :=
  let here (a : Nat) : Bool := lineOf a == lineOf addr
  let die := dieOfStore addr
  if 2 ^ 56 ≤ addr && addr < 2 ^ 57 then .next s
  else
    let s := (s.latent.filter here).foldl (fun s a => s.countCorrected die (s.errRow 6 a)) { s with latent := s.latent.filter (fun a => !here a) }
    .next ((s.poison.filter here).foldl (fun s a => s.logError die ⟨(memPlace a).1, (memPlace a).2, s.clk, 2⟩) s)

/-- Logs and counts an error that nothing consumes, with the location that R283 or log entry 101 gives. -/
def State.noteFatal (s : State) (die code loc : Nat) : State := s.logError die ⟨code, loc, s.clk, 0⟩

/-- A soft error in a register, mask or stack word (R280): `w` as `Thread.poison` numbers it. -/
def State.regError (s : State) (k kind w : Nat) (fatal : Bool) : State :=
  let t := s.thread k
  if t.st == .empty || (kind = 1 && (w = 0 || w > 31)) then s
  else if fatal then s.setThread k { t with poison := if t.poison.contains w then t.poison else t.poison ++ [w] }
  else s.countCorrected (dieOf k) (s.errRow kind 0)

/-- A soft error in an accumulator word (R139, R280). -/
def State.accError (s : State) (c w : Nat) (fatal : Bool) : State :=
  let x := s.core c
  if fatal then s.setCore c { x with accPoison := if x.accPoison.contains w then x.accPoison else x.accPoison ++ [w] }
  else s.countCorrected (dieOfCluster (clusterOfCore c)) 4

/-- A soft error in a 32-bit word of an L1 (R280), which is of the core pool; one of a word that holds no dirty byte has no effect. -/
def State.l1Error (s : State) (c a : Nat) (fatal : Bool) : State :=
  let x := s.core c
  if !x.strm.any (fun e => e.1 / 4 == a / 4) then s
  else if fatal then s.setCore c { x with strmBad := if x.strmBad.contains (a / 4 * 4) then x.strmBad else x.strmBad ++ [a / 4 * 4] }
  else s.countCorrected (dieOfCluster (clusterOfCore c)) 1

/-- Whether the tiers hold the error of a storage address's line (R280). -/
def State.tierError (s : State) (a : Nat) (b : Bool) : State :=
  let rest := s.tierErrs.filter (· != lineOf a)
  { s with tierErrs := if b then rest ++ [lineOf a] else rest }

/-- SOFT_ERROR (R280, R283): a stored word takes an error. `kind` is the structure's code of R283 or of log entry 101: 1 to 3 a
register, 4 an accumulator word, 5 core scratch, 6 die scratch or the L2, 7 an instruction cache, 8 a TLB or filter, 9 a directory,
10 a line of a tier, 11 an L1. `loc` is slot key × 2^20 + the word's number for 1 to 3 (as `Thread.poison` numbers them), core × 2^16 +
the word's number for 4, a store address for 5, 6 and 10, the core for 7, the die for 8, the partition + 8 × the die for 9, and
core × 2^57 + the store address for 11. -/
def execSoftError (kind loc : Nat) (fatal : Bool) (s : State) : Host.Outcome State Fault Refusal :=
  .next (match kind with
    | 1 | 2 | 3 => s.regError (loc / 2 ^ 20) kind (loc % 2 ^ 20) fatal
    | 4 => s.accError (loc / 2 ^ 16) (loc % 2 ^ 16) fatal
    | 5 => if fatal then s.addPoison [granuleOf loc] else s.countCorrected (dieOfStore loc) 1
    | 6 =>
      let s := s.tierError loc false
      if fatal then s.addPoison [granuleOf loc] else { s with latent := s.latent ++ [loc] }
    | 7 => if fatal then s.noteFatal (dieOfCluster (clusterOfCore loc)) 7 loc else s
    | 8 => if fatal then s.noteFatal (loc % 4) 8 loc else s
    | 9 => if fatal then (s.noteFatal (loc / 8 % 4) 9 (loc % 8)).partError (loc % 8) else s.countCorrected (loc / 8 % 4) 7
    | 10 =>
      let s := s.tierError loc true
      if fatal then s.addPoison ((List.range 8).map (fun i => lineOf loc * 64 + 8 * i)) else { s with latent := s.latent ++ [loc] }
    | 11 => s.l1Error (loc / 2 ^ 57) (loc % 2 ^ 57) fatal
    | _ => s)

end Sys2Proof.Machine
end

