-- ==== Sys2Proof/Machine/Ident.lean ====
section
/-! DEFINITION. Thread identity (R94). -/
namespace Sys2Proof.Machine

/-- TID (R94). -/
def execTid (w : Bool) (d : BitVec 5) (s : State) : Host.Outcome State Fault Refusal :=
  finish s (scalarC w d 4 (fun s => s.thr.tid.zeroExtend 64) s)

/-- PLACE (R94). -/
def execPlace (w : Bool) (d : BitVec 5) (s : State) : Host.Outcome State Fault Refusal :=
  finish s (scalarC w d 4 (fun s => (s.place s.cur).zeroExtend 64) s)

/-- LSIZE (R94). -/
def execLsize (w : Bool) (d : BitVec 5) (s : State) : Host.Outcome State Fault Refusal :=
  finish s (scalarC w d 4 (fun s => BitVec.ofNat 64 (s.lsize s.thr)) s)

end Sys2Proof.Machine
end

