-- ==== Sys2Proof/Machine/Imm.lean ====
section
/-! DEFINITION. The immediate and upper-immediate operations (R89 to R91). -/
namespace Sys2Proof.Machine

/-- ADDI (R89). -/
def execAddi (w : Bool) (d a : BitVec 5) (i : BitVec 15) (s : State) : Host.Outcome State Fault Refusal :=
  finish s (scalarR w d a 4 (fun x => immOp 0x02 x (i.signExtend 64)) s)

/-- ANDI (R89). -/
def execAndi (w : Bool) (d a : BitVec 5) (i : BitVec 15) (s : State) : Host.Outcome State Fault Refusal :=
  finish s (scalarR w d a 4 (fun x => immOp 0x03 x (i.signExtend 64)) s)

/-- ORI (R89). -/
def execOri (w : Bool) (d a : BitVec 5) (i : BitVec 15) (s : State) : Host.Outcome State Fault Refusal :=
  finish s (scalarR w d a 4 (fun x => immOp 0x04 x (i.signExtend 64)) s)

/-- XORI (R89). -/
def execXori (w : Bool) (d a : BitVec 5) (i : BitVec 15) (s : State) : Host.Outcome State Fault Refusal :=
  finish s (scalarR w d a 4 (fun x => immOp 0x05 x (i.signExtend 64)) s)

/-- SLTI (R89). -/
def execSlti (w : Bool) (d a : BitVec 5) (i : BitVec 15) (s : State) : Host.Outcome State Fault Refusal :=
  finish s (scalarR w d a 4 (fun x => immOp 0x07 x (i.signExtend 64)) s)

/-- SLTNI (R89). -/
def execSltni (w : Bool) (d a : BitVec 5) (i : BitVec 15) (s : State) : Host.Outcome State Fault Refusal :=
  finish s (scalarR w d a 4 (fun x => immOp 0x08 x (i.signExtend 64)) s)

/-- ADDI_L (R89). -/
def execAddiL (w : Bool) (d a : BitVec 5) (i : BitVec 32) (s : State) : Host.Outcome State Fault Refusal :=
  finish s (scalarR w d a 8 (fun x => x + i.signExtend 64) s)

/-- SLLI (R90). -/
def execSlli (w : Bool) (d a : BitVec 5) (sh : BitVec 6) (s : State) : Host.Outcome State Fault Refusal :=
  finish s (scalarR w d a 4 (fun x => shiftOp 0 x sh.toNat) s)

/-- SRLI (R90). -/
def execSrli (w : Bool) (d a : BitVec 5) (sh : BitVec 6) (s : State) : Host.Outcome State Fault Refusal :=
  finish s (scalarR w d a 4 (fun x => shiftOp 1 x sh.toNat) s)

/-- SRAI (R90). -/
def execSrai (w : Bool) (d a : BitVec 5) (sh : BitVec 6) (s : State) : Host.Outcome State Fault Refusal :=
  finish s (scalarR w d a 4 (fun x => shiftOp 2 x sh.toNat) s)

/-- SLLIW (R90). -/
def execSlliw (w : Bool) (d a sh : BitVec 5) (s : State) : Host.Outcome State Fault Refusal :=
  finish s (scalarR w d a 4 (fun x => shiftOp 3 x sh.toNat) s)

/-- SRLIW (R90). -/
def execSrliw (w : Bool) (d a sh : BitVec 5) (s : State) : Host.Outcome State Fault Refusal :=
  finish s (scalarR w d a 4 (fun x => shiftOp 4 x sh.toNat) s)

/-- SRAIW (R90). -/
def execSraiw (w : Bool) (d a sh : BitVec 5) (s : State) : Host.Outcome State Fault Refusal :=
  finish s (scalarR w d a 4 (fun x => shiftOp 5 x sh.toNat) s)

/-- RORI (R90). -/
def execRori (w : Bool) (d a : BitVec 5) (sh : BitVec 6) (s : State) : Host.Outcome State Fault Refusal :=
  finish s (scalarR w d a 4 (fun x => shiftOp 6 x sh.toNat) s)

/-- LUI (R91). -/
def execLui (w : Bool) (d : BitVec 5) (i : BitVec 20) (s : State) : Host.Outcome State Fault Refusal :=
  finish s (scalarC w d 4 (fun _ => i.signExtend 64 <<< 12) s)

/-- ADDPC (R91). -/
def execAddpc (w : Bool) (d : BitVec 5) (i : BitVec 20) (s : State) : Host.Outcome State Fault Refusal :=
  finish s (scalarC w d 4 (fun s => s.thr.pc + 4 * i.signExtend 64) s)

/-- ADDPC_L (R91). -/
def execAddpcL (w : Bool) (d : BitVec 5) (i : BitVec 32) (s : State) : Host.Outcome State Fault Refusal :=
  finish s (scalarC w d 8 (fun s => s.thr.pc + i.signExtend 64) s)

end Sys2Proof.Machine
end

