-- ==== Sys2Proof/Machine/MulDiv.lean ====
section
/-! DEFINITION. Multiplication and division (R92). -/
namespace Sys2Proof.Machine

/-- MUL (R92). -/
def execMul (w : Bool) (d a b : BitVec 5) (s : State) : Host.Outcome State Fault Refusal :=
  finish s (scalarRR w d a b (mulOp 0x0) s)

/-- MULH (R92). -/
def execMulh (w : Bool) (d a b : BitVec 5) (s : State) : Host.Outcome State Fault Refusal :=
  finish s (scalarRR w d a b (mulOp 0x1) s)

/-- MULHN (R92). -/
def execMulhn (w : Bool) (d a b : BitVec 5) (s : State) : Host.Outcome State Fault Refusal :=
  finish s (scalarRR w d a b (mulOp 0x2) s)

/-- MULHSN (R92). -/
def execMulhsn (w : Bool) (d a b : BitVec 5) (s : State) : Host.Outcome State Fault Refusal :=
  finish s (scalarRR w d a b (mulOp 0x3) s)

/-- DIV (R92). -/
def execDiv (w : Bool) (d a b : BitVec 5) (s : State) : Host.Outcome State Fault Refusal :=
  finish s (scalarRR w d a b (mulOp 0x4) s)

/-- DIVN (R92). -/
def execDivn (w : Bool) (d a b : BitVec 5) (s : State) : Host.Outcome State Fault Refusal :=
  finish s (scalarRR w d a b (mulOp 0x5) s)

/-- REM (R92). -/
def execRem (w : Bool) (d a b : BitVec 5) (s : State) : Host.Outcome State Fault Refusal :=
  finish s (scalarRR w d a b (mulOp 0x6) s)

/-- REMN (R92). -/
def execRemn (w : Bool) (d a b : BitVec 5) (s : State) : Host.Outcome State Fault Refusal :=
  finish s (scalarRR w d a b (mulOp 0x7) s)

/-- MULW (R92). -/
def execMulw (w : Bool) (d a b : BitVec 5) (s : State) : Host.Outcome State Fault Refusal :=
  finish s (scalarRR w d a b (mulOp 0x8) s)

/-- DIVW (R92). -/
def execDivw (w : Bool) (d a b : BitVec 5) (s : State) : Host.Outcome State Fault Refusal :=
  finish s (scalarRR w d a b (mulOp 0xC) s)

/-- DIVNW (R92). -/
def execDivnw (w : Bool) (d a b : BitVec 5) (s : State) : Host.Outcome State Fault Refusal :=
  finish s (scalarRR w d a b (mulOp 0xD) s)

/-- REMW (R92). -/
def execRemw (w : Bool) (d a b : BitVec 5) (s : State) : Host.Outcome State Fault Refusal :=
  finish s (scalarRR w d a b (mulOp 0xE) s)

/-- REMNW (R92). -/
def execRemnw (w : Bool) (d a b : BitVec 5) (s : State) : Host.Outcome State Fault Refusal :=
  finish s (scalarRR w d a b (mulOp 0xF) s)

end Sys2Proof.Machine
end

