-- ==== Sys2Proof/Machine/VecCvt.lean ====
section
/-! DEFINITION. The issue of the conversions of major 0x23 (R123 to R125). -/
namespace Sys2Proof.Machine

/-- The formats of VCVT (R123). -/
def cvtFmt (f : Nat) : Bool := fmtIsInt f || fmtIsFloat f || (0x0D ≤ f && f ≤ 0x0F)
/-- The block formats of VCVT.SC and VCVT.DS (R123). -/
def blockFmt (f : Nat) : Bool := 0x0D ≤ f && f ≤ 0x10
/-- The scale format of a block format (R123). -/
def scaleFmt (f : Nat) : Nat := if f = 0x10 then 0x12 else 0x11

/-- The checks of a conversion (R106, R123): SR with an integer destination, the formats of v[d] and v[a], their overlap, and
the scale register: its number, its format, and the group of the other role that it must not lie in. -/
def cvtForm (s : State) (vl d a r : Nat) (pd pa : Nat → Bool) (scale : Option (Nat × Nat × Nat)) : Res Unit := do
  boundCheck s (d :: a :: (match scale with
    | some (b, _, _) => [b]
    | none => [])) []
  let t := s.thr
  let apart := match scale with
    | some (b, _, o) => !overlaps o (t.grp o) b 1
    | none => true
  let clear := (!overlaps d (t.grp d) a (t.grp a) || (d == a && t.ew d == t.ew a)) && apart
  if r = 4 && fmtIsInt (t.fmt d) then illegal s
  else
    tagCheck s vl [(d, fun x _ => pd x && clear), (a, fun x _ => pa x)]
    match scale with
    | some (b, f, _) => tagCheck s 0 [(b, fun x y => x == f && y == 1)]
    | none => .ok ()

/-- VCVT and VCVT.SAT (R123). -/
def issueCvt (op : VOp) (p : Nat → Bool) (w : Bool) (d a : BitVec 5) (m r : BitVec 3) (s : State) : Res State := do
  let (vl, vs, s) ← vecBegin w s
  cvtForm s vl d.toNat a.toNat r.toNat p p none
  vecIssue s { mkCmd s op d.toNat a.toNat 0 m.toNat vl vs with r := r.toNat }

/-- VCVT.SC (R123, R124). -/
def issueSc (w : Bool) (d a b : BitVec 5) (m r : BitVec 3) (s : State) : Res State := do
  let (vl, vs, s) ← vecBegin w s
  cvtForm s vl d.toNat a.toNat r.toNat fmtIsFloat blockFmt (some (b.toNat, scaleFmt (s.thr.fmt a.toNat), d.toNat))
  vecIssue s { mkCmd s .cvtSc d.toNat a.toNat b.toNat m.toNat vl vs with r := r.toNat }

/-- VCVT.DS (R123, R125): whole blocks only, checked with R67's second step (log entry 118). -/
def issueDs (w : Bool) (d a b : BitVec 5) (r : BitVec 3) (s : State) : Res State := do
  let (vl, vs, s) ← vecBegin w s
  if vl % 32 ≠ 0 || vs % 32 ≠ 0 then illegal s
  else
    cvtForm s vl d.toNat a.toNat r.toNat blockFmt fmtIsFloat (some (b.toNat, scaleFmt (s.thr.fmt d.toNat), a.toNat))
    vecIssue s { mkCmd s .cvtDs d.toNat a.toNat b.toNat 0 vl vs with r := r.toNat }

/-- VCVT (R123). -/
def execVcvt (w : Bool) (d a : BitVec 5) (m r : BitVec 3) (s : State) : Host.Outcome State Fault Refusal :=
  finish s (issueCvt .cvt cvtFmt w d a m r s)

/-- VCVT_SAT (R123). -/
def execVcvtSat (w : Bool) (d a : BitVec 5) (m r : BitVec 3) (s : State) : Host.Outcome State Fault Refusal :=
  finish s (issueCvt .cvtSat fmtIsInt w d a m r s)

/-- VCVT_SC (R124). -/
def execVcvtSc (w : Bool) (d a b : BitVec 5) (m r : BitVec 3) (s : State) : Host.Outcome State Fault Refusal :=
  finish s (issueSc w d a b m r s)

/-- VCVT_DS (R125). -/
def execVcvtDs (w : Bool) (d a b : BitVec 5) (r : BitVec 3) (s : State) : Host.Outcome State Fault Refusal :=
  finish s (issueDs w d a b r s)

end Sys2Proof.Machine
end

