-- ==== Sys2Proof/Machine/VecFloat.lean ====
section
/-! DEFINITION. The issue of the floating-point instructions of major 0x22 (R119 to R121). -/
namespace Sys2Proof.Machine

/-- An operation of R119 on v[a] and v[b], by fn7. -/
def issueFlt (code : Nat) (w : Bool) (d a b : BitVec 5) (m : BitVec 3) (s : State) : Res State := do
  let (vl, vs, s) ← vecBegin w s
  sameForm s vl fmtIsFloat d.toNat [a.toNat, b.toNat]
  vecIssue s (mkCmd s (.flt code) d.toNat a.toNat b.toNat m.toNat vl vs)

/-- A unary operation of R119, by fn7. -/
def issueUnary (code : Nat) (w : Bool) (d a : BitVec 5) (m : BitVec 3) (s : State) : Res State := do
  let (vl, vs, s) ← vecBegin w s
  sameForm s vl fmtIsFloat d.toNat [a.toNat]
  vecIssue s (mkCmd s (.unary code) d.toNat a.toNat 0 m.toNat vl vs)

/-- The natural format of a floating-point format's width (R120). -/
def classFmt (f : Nat) : Nat := if f = 0x0B then 0x06 else if f = 0x0C then 0x08 else 0x04

/-- VFCLASS (R120): v[d] is judged against v[a] where v[a] has a floating-point format, and else by itself (R407). -/
def issueClass (w : Bool) (d a : BitVec 5) (m : BitVec 3) (s : State) : Res State := do
  let (vl, vs, s) ← vecBegin w s
  boundCheck s [d.toNat, a.toNat] []
  let f := s.thr.fmt a.toNat
  let n := s.thr.grp a.toNat
  tagCheck s vl [(d.toNat, fun x y => if fmtIsFloat f then x == classFmt f && y == n else x == 0x04 || x == 0x06 || x == 0x08), (a.toNat, fun x _ => fmtIsFloat x)]
  vecIssue s (mkCmd s .cls d.toNat a.toNat 0 m.toNat vl vs)

/-- A compare of R121, by fn7. -/
def issueCmpFlt (code : Nat) (w : Bool) (d : BitVec 3) (a b : BitVec 5) (m : BitVec 3) (s : State) : Res State := do
  let (vl, vs, s) ← vecBegin w s
  sameForm s vl fmtIsFloat a.toNat [b.toNat]
  vecIssue s (mkCmd s (.cmpFlt code) d.toNat a.toNat b.toNat m.toNat vl vs)

/-- VFADD (R119). -/
def execVfadd (w : Bool) (d a b : BitVec 5) (m : BitVec 3) (s : State) : Host.Outcome State Fault Refusal :=
  finish s (issueFlt 0x00 w d a b m s)

/-- VFSUB (R119). -/
def execVfsub (w : Bool) (d a b : BitVec 5) (m : BitVec 3) (s : State) : Host.Outcome State Fault Refusal :=
  finish s (issueFlt 0x01 w d a b m s)

/-- VFMUL (R119). -/
def execVfmul (w : Bool) (d a b : BitVec 5) (m : BitVec 3) (s : State) : Host.Outcome State Fault Refusal :=
  finish s (issueFlt 0x02 w d a b m s)

/-- VFDIV (R119). -/
def execVfdiv (w : Bool) (d a b : BitVec 5) (m : BitVec 3) (s : State) : Host.Outcome State Fault Refusal :=
  finish s (issueFlt 0x03 w d a b m s)

/-- VFMA (R119). -/
def execVfma (w : Bool) (d a b : BitVec 5) (m : BitVec 3) (s : State) : Host.Outcome State Fault Refusal :=
  finish s (issueFlt 0x04 w d a b m s)

/-- VFMS (R119). -/
def execVfms (w : Bool) (d a b : BitVec 5) (m : BitVec 3) (s : State) : Host.Outcome State Fault Refusal :=
  finish s (issueFlt 0x05 w d a b m s)

/-- VFNMA (R119). -/
def execVfnma (w : Bool) (d a b : BitVec 5) (m : BitVec 3) (s : State) : Host.Outcome State Fault Refusal :=
  finish s (issueFlt 0x06 w d a b m s)

/-- VFMIN (R119). -/
def execVfmin (w : Bool) (d a b : BitVec 5) (m : BitVec 3) (s : State) : Host.Outcome State Fault Refusal :=
  finish s (issueFlt 0x07 w d a b m s)

/-- VFMAX (R119). -/
def execVfmax (w : Bool) (d a b : BitVec 5) (m : BitVec 3) (s : State) : Host.Outcome State Fault Refusal :=
  finish s (issueFlt 0x08 w d a b m s)

/-- VFSGNJ (R119). -/
def execVfsgnj (w : Bool) (d a b : BitVec 5) (m : BitVec 3) (s : State) : Host.Outcome State Fault Refusal :=
  finish s (issueFlt 0x09 w d a b m s)

/-- VFSGNJN (R119). -/
def execVfsgnjn (w : Bool) (d a b : BitVec 5) (m : BitVec 3) (s : State) : Host.Outcome State Fault Refusal :=
  finish s (issueFlt 0x0A w d a b m s)

/-- VFSQRT (R119). -/
def execVfsqrt (w : Bool) (d a : BitVec 5) (m : BitVec 3) (s : State) : Host.Outcome State Fault Refusal :=
  finish s (issueUnary 0x10 w d a m s)

/-- VFRCP (R119). -/
def execVfrcp (w : Bool) (d a : BitVec 5) (m : BitVec 3) (s : State) : Host.Outcome State Fault Refusal :=
  finish s (issueUnary 0x11 w d a m s)

/-- VFRSQRT (R119). -/
def execVfrsqrt (w : Bool) (d a : BitVec 5) (m : BitVec 3) (s : State) : Host.Outcome State Fault Refusal :=
  finish s (issueUnary 0x12 w d a m s)

/-- VFEXP2 (R119). -/
def execVfexp2 (w : Bool) (d a : BitVec 5) (m : BitVec 3) (s : State) : Host.Outcome State Fault Refusal :=
  finish s (issueUnary 0x13 w d a m s)

/-- VFLOG2 (R119). -/
def execVflog2 (w : Bool) (d a : BitVec 5) (m : BitVec 3) (s : State) : Host.Outcome State Fault Refusal :=
  finish s (issueUnary 0x14 w d a m s)

/-- VFABS (R119). -/
def execVfabs (w : Bool) (d a : BitVec 5) (m : BitVec 3) (s : State) : Host.Outcome State Fault Refusal :=
  finish s (issueUnary 0x15 w d a m s)

/-- VFNEG (R119). -/
def execVfneg (w : Bool) (d a : BitVec 5) (m : BitVec 3) (s : State) : Host.Outcome State Fault Refusal :=
  finish s (issueUnary 0x16 w d a m s)

/-- VFCLASS (R120). -/
def execVfclass (w : Bool) (d a : BitVec 5) (m : BitVec 3) (s : State) : Host.Outcome State Fault Refusal :=
  finish s (issueClass w d a m s)

/-- VFCMPEQ (R121). -/
def execVfcmpeq (w : Bool) (d : BitVec 3) (a b : BitVec 5) (m : BitVec 3) (s : State) : Host.Outcome State Fault Refusal :=
  finish s (issueCmpFlt 0x20 w d a b m s)

/-- VFCMPLT (R121). -/
def execVfcmplt (w : Bool) (d : BitVec 3) (a b : BitVec 5) (m : BitVec 3) (s : State) : Host.Outcome State Fault Refusal :=
  finish s (issueCmpFlt 0x21 w d a b m s)

/-- VFCMPLE (R121). -/
def execVfcmple (w : Bool) (d : BitVec 3) (a b : BitVec 5) (m : BitVec 3) (s : State) : Host.Outcome State Fault Refusal :=
  finish s (issueCmpFlt 0x22 w d a b m s)

/-- VFCMPUN (R121). -/
def execVfcmpun (w : Bool) (d : BitVec 3) (a b : BitVec 5) (m : BitVec 3) (s : State) : Host.Outcome State Fault Refusal :=
  finish s (issueCmpFlt 0x23 w d a b m s)

end Sys2Proof.Machine
end

