-- ==== Sys2Proof/Machine/VecInt.lean ====
section
/-! DEFINITION. The issue of the integer instructions of major 0x21 (R116 to R118). -/
namespace Sys2Proof.Machine

/-- An operation of R116 on v[a] and v[b], by fn7. -/
def issueInt (code : Nat) (w : Bool) (d a b : BitVec 5) (m : BitVec 3) (s : State) : Res State := do
  let (vl, vs, s) ← vecBegin w s
  sameForm s vl fmtIsInt d.toNat [a.toNat, b.toNat]
  vecIssue s (mkCmd s (.int code) d.toNat a.toNat b.toNat m.toNat vl vs)

/-- VABS (R116). -/
def issueAbs (w : Bool) (d a : BitVec 5) (m : BitVec 3) (s : State) : Res State := do
  let (vl, vs, s) ← vecBegin w s
  sameForm s vl fmtIsInt d.toNat [a.toNat]
  vecIssue s (mkCmd s .abs d.toNat a.toNat 0 m.toNat vl vs)

/-- A compare of R117, by fn7. -/
def issueCmpInt (code : Nat) (w : Bool) (d : BitVec 3) (a b : BitVec 5) (m : BitVec 3) (s : State) : Res State := do
  let (vl, vs, s) ← vecBegin w s
  sameForm s vl fmtIsInt a.toNat [b.toNat]
  vecIssue s (mkCmd s (.cmpInt code) d.toNat a.toNat b.toNat m.toNat vl vs)

/-- The checks of a widening form (R106, R118): v[d] is judged against what v[a] calls for, and where v[a]'s format has no
place in the form, by its own format alone, so that v[a] is the operand that fails (R407). -/
def wideForm (s : State) (vl d a : Nat) (bs : List Nat) : Res Unit := do
  boundCheck s (d :: a :: bs) []
  let t := s.thr
  let f := t.fmt a
  let n := t.grp a
  let free := (a :: bs).all (fun x => !overlaps d (t.grp d) x (t.grp x))
  tagCheck s vl [(d, fun x y => (if 1 ≤ f && f ≤ 6 then x == f + 2 && y == 2 * n else 3 ≤ x && x ≤ 8) && free),
    (a, fun x y => 1 ≤ x && x ≤ 6 && y ≤ 4)]
  tagCheck s vl (bs.map (fun o => (o, fun x y => x == f && y == n)))

/-- A widening form of R118, by fn7. -/
def issueWide (code : Nat) (w : Bool) (d a b : BitVec 5) (m : BitVec 3) (s : State) : Res State := do
  let (vl, vs, s) ← vecBegin w s
  wideForm s vl d.toNat a.toNat [b.toNat]
  vecIssue s (mkCmd s (.wide code) d.toNat a.toNat b.toNat m.toNat vl vs)

/-- VADD (R116). -/
def execVadd (w : Bool) (d a b : BitVec 5) (m : BitVec 3) (s : State) : Host.Outcome State Fault Refusal :=
  finish s (issueInt 0x00 w d a b m s)

/-- VSUB (R116). -/
def execVsub (w : Bool) (d a b : BitVec 5) (m : BitVec 3) (s : State) : Host.Outcome State Fault Refusal :=
  finish s (issueInt 0x01 w d a b m s)

/-- VMUL (R116). -/
def execVmul (w : Bool) (d a b : BitVec 5) (m : BitVec 3) (s : State) : Host.Outcome State Fault Refusal :=
  finish s (issueInt 0x02 w d a b m s)

/-- VMULH (R116). -/
def execVmulh (w : Bool) (d a b : BitVec 5) (m : BitVec 3) (s : State) : Host.Outcome State Fault Refusal :=
  finish s (issueInt 0x03 w d a b m s)

/-- VMULHN (R116). -/
def execVmulhn (w : Bool) (d a b : BitVec 5) (m : BitVec 3) (s : State) : Host.Outcome State Fault Refusal :=
  finish s (issueInt 0x04 w d a b m s)

/-- VMADD (R116). -/
def execVmadd (w : Bool) (d a b : BitVec 5) (m : BitVec 3) (s : State) : Host.Outcome State Fault Refusal :=
  finish s (issueInt 0x05 w d a b m s)

/-- VDIV (R116). -/
def execVdiv (w : Bool) (d a b : BitVec 5) (m : BitVec 3) (s : State) : Host.Outcome State Fault Refusal :=
  finish s (issueInt 0x06 w d a b m s)

/-- VDIVN (R116). -/
def execVdivn (w : Bool) (d a b : BitVec 5) (m : BitVec 3) (s : State) : Host.Outcome State Fault Refusal :=
  finish s (issueInt 0x07 w d a b m s)

/-- VREM (R116). -/
def execVrem (w : Bool) (d a b : BitVec 5) (m : BitVec 3) (s : State) : Host.Outcome State Fault Refusal :=
  finish s (issueInt 0x08 w d a b m s)

/-- VREMN (R116). -/
def execVremn (w : Bool) (d a b : BitVec 5) (m : BitVec 3) (s : State) : Host.Outcome State Fault Refusal :=
  finish s (issueInt 0x09 w d a b m s)

/-- VAND (R116). -/
def execVand (w : Bool) (d a b : BitVec 5) (m : BitVec 3) (s : State) : Host.Outcome State Fault Refusal :=
  finish s (issueInt 0x0A w d a b m s)

/-- VOR (R116). -/
def execVor (w : Bool) (d a b : BitVec 5) (m : BitVec 3) (s : State) : Host.Outcome State Fault Refusal :=
  finish s (issueInt 0x0B w d a b m s)

/-- VXOR (R116). -/
def execVxor (w : Bool) (d a b : BitVec 5) (m : BitVec 3) (s : State) : Host.Outcome State Fault Refusal :=
  finish s (issueInt 0x0C w d a b m s)

/-- VSLL (R116). -/
def execVsll (w : Bool) (d a b : BitVec 5) (m : BitVec 3) (s : State) : Host.Outcome State Fault Refusal :=
  finish s (issueInt 0x0D w d a b m s)

/-- VSRL (R116). -/
def execVsrl (w : Bool) (d a b : BitVec 5) (m : BitVec 3) (s : State) : Host.Outcome State Fault Refusal :=
  finish s (issueInt 0x0E w d a b m s)

/-- VSRA (R116). -/
def execVsra (w : Bool) (d a b : BitVec 5) (m : BitVec 3) (s : State) : Host.Outcome State Fault Refusal :=
  finish s (issueInt 0x0F w d a b m s)

/-- VMIN (R116). -/
def execVmin (w : Bool) (d a b : BitVec 5) (m : BitVec 3) (s : State) : Host.Outcome State Fault Refusal :=
  finish s (issueInt 0x10 w d a b m s)

/-- VMAX (R116). -/
def execVmax (w : Bool) (d a b : BitVec 5) (m : BitVec 3) (s : State) : Host.Outcome State Fault Refusal :=
  finish s (issueInt 0x11 w d a b m s)

/-- VMINN (R116). -/
def execVminn (w : Bool) (d a b : BitVec 5) (m : BitVec 3) (s : State) : Host.Outcome State Fault Refusal :=
  finish s (issueInt 0x12 w d a b m s)

/-- VMAXN (R116). -/
def execVmaxn (w : Bool) (d a b : BitVec 5) (m : BitVec 3) (s : State) : Host.Outcome State Fault Refusal :=
  finish s (issueInt 0x13 w d a b m s)

/-- VSADD (R116). -/
def execVsadd (w : Bool) (d a b : BitVec 5) (m : BitVec 3) (s : State) : Host.Outcome State Fault Refusal :=
  finish s (issueInt 0x14 w d a b m s)

/-- VSADDN (R116). -/
def execVsaddn (w : Bool) (d a b : BitVec 5) (m : BitVec 3) (s : State) : Host.Outcome State Fault Refusal :=
  finish s (issueInt 0x15 w d a b m s)

/-- VSSUB (R116). -/
def execVssub (w : Bool) (d a b : BitVec 5) (m : BitVec 3) (s : State) : Host.Outcome State Fault Refusal :=
  finish s (issueInt 0x16 w d a b m s)

/-- VSSUBN (R116). -/
def execVssubn (w : Bool) (d a b : BitVec 5) (m : BitVec 3) (s : State) : Host.Outcome State Fault Refusal :=
  finish s (issueInt 0x17 w d a b m s)

/-- VABS (R116). -/
def execVabs (w : Bool) (d a : BitVec 5) (m : BitVec 3) (s : State) : Host.Outcome State Fault Refusal :=
  finish s (issueAbs w d a m s)

/-- VCMPEQ (R117). -/
def execVcmpeq (w : Bool) (d : BitVec 3) (a b : BitVec 5) (m : BitVec 3) (s : State) : Host.Outcome State Fault Refusal :=
  finish s (issueCmpInt 0x20 w d a b m s)

/-- VCMPNE (R117). -/
def execVcmpne (w : Bool) (d : BitVec 3) (a b : BitVec 5) (m : BitVec 3) (s : State) : Host.Outcome State Fault Refusal :=
  finish s (issueCmpInt 0x21 w d a b m s)

/-- VCMPLT (R117). -/
def execVcmplt (w : Bool) (d : BitVec 3) (a b : BitVec 5) (m : BitVec 3) (s : State) : Host.Outcome State Fault Refusal :=
  finish s (issueCmpInt 0x22 w d a b m s)

/-- VCMPGE (R117). -/
def execVcmpge (w : Bool) (d : BitVec 3) (a b : BitVec 5) (m : BitVec 3) (s : State) : Host.Outcome State Fault Refusal :=
  finish s (issueCmpInt 0x23 w d a b m s)

/-- VCMPLTN (R117). -/
def execVcmpltn (w : Bool) (d : BitVec 3) (a b : BitVec 5) (m : BitVec 3) (s : State) : Host.Outcome State Fault Refusal :=
  finish s (issueCmpInt 0x24 w d a b m s)

/-- VCMPGEN (R117). -/
def execVcmpgen (w : Bool) (d : BitVec 3) (a b : BitVec 5) (m : BitVec 3) (s : State) : Host.Outcome State Fault Refusal :=
  finish s (issueCmpInt 0x25 w d a b m s)

/-- VWADD (R118). -/
def execVwadd (w : Bool) (d a b : BitVec 5) (m : BitVec 3) (s : State) : Host.Outcome State Fault Refusal :=
  finish s (issueWide 0x28 w d a b m s)

/-- VWMUL (R118). -/
def execVwmul (w : Bool) (d a b : BitVec 5) (m : BitVec 3) (s : State) : Host.Outcome State Fault Refusal :=
  finish s (issueWide 0x29 w d a b m s)

end Sys2Proof.Machine
end

