-- ==== Sys2Proof/Machine/VecMask.lean ====
section
/-! DEFINITION. The issue of the mask instructions of major 0x25 (R131, R132). -/
namespace Sys2Proof.Machine

/-- A mask operation whose sources are masks; it captures c.vl, which m0 shows, and leaves c.vstart (R131). -/
def issueMask (op : VOp) (w : Bool) (d a b : Nat) (s : State) : Res State := do
  let s ← waitW w s
  let (vl, s) ← if a = 0 || b = 0 then readVl s else .ok (s.thr.vl.toNat, s)
  issueCmd s (mkCmd s op d a b 0 vl 0)

/-- A mask operation of one source. -/
def issueMask1 (op : VOp) (w : Bool) (d a : Nat) (s : State) : Res State := issueMask op w d a 1 s

/-- MBOUND (R131): `b` the width code. -/
def issueMbound (w : Bool) (d : BitVec 3) (a b : BitVec 5) (s : State) : Res State := do
  let s ← waitW w s
  let (x, s) ← readG s a.toNat
  issueCmd s { mkCmd s .mbound d.toNat 0 b.toNat 0 0 0 with x := x }

/-- MFROMV (R131). -/
def issueMfromv (w : Bool) (d : BitVec 3) (a : BitVec 5) (s : State) : Res State := do
  let s ← waitW w s
  let (vl, s) := capture s codeVl (s.thr.vl.zeroExtend 64)
  sameForm s vl.toNat fmtIsInt a.toNat []
  captured s [codeVl]
  issueCmd s (mkCmd s .mfromv d.toNat a.toNat 0 0 vl.toNat 0)

/-- MTOV (R131). -/
def issueMtov (w : Bool) (d : BitVec 5) (a : BitVec 3) (s : State) : Res State := do
  let s ← waitW w s
  let (vl, s) := capture s codeVl (s.thr.vl.zeroExtend 64)
  sameForm s vl.toNat fmtIsInt d.toNat []
  captured s [codeVl]
  issueCmd s (mkCmd s .mtov d.toNat a.toNat 0 0 vl.toNat 0)

/-- The mask-stack trap (R132, R407). -/
def stackTrap {α : Type} (s : State) : Res α := trapNow s 0x09 (s.thr.mdepth.zeroExtend 64)

/-- MPUSH (R132): c.mdepth rises at issue. -/
def issueMpush (w : Bool) (a : BitVec 3) (s : State) : Res State := do
  let s ← waitW w s
  let (vl, s) ← if a = 0 then readVl s else .ok (s.thr.vl.toNat, s)
  let n := s.thr.mdepth
  if n.toNat ≥ 16 then stackTrap s
  else issueCmd (s.putThr { s.thr with mdepth := n + 1 }) { mkCmd s .mpush 1 a.toNat 0 0 vl 0 with r := n.toNat }

/-- MELSE (R132). -/
def issueMelse (w : Bool) (s : State) : Res State := do
  let s ← waitW w s
  if s.thr.mdepth = 0 then stackTrap s
  else issueCmd s { mkCmd s .melse 1 0 0 0 0 0 with r := s.thr.mdepth.toNat }

/-- MPOP (R132): c.mdepth falls at issue. -/
def issueMpop (w : Bool) (s : State) : Res State := do
  let s ← waitW w s
  let n := s.thr.mdepth
  if n = 0 then stackTrap s
  else issueCmd (s.putThr { s.thr with mdepth := n - 1 }) { mkCmd s .mpop 1 0 0 0 0 0 with r := n.toNat }

/-- MBOUND (R131). -/
def execMbound (w : Bool) (d : BitVec 3) (a b : BitVec 5) (s : State) : Host.Outcome State Fault Refusal :=
  finish s (issueMbound w d a b s)

/-- MAND (R131). -/
def execMand (w : Bool) (d a b : BitVec 3) (s : State) : Host.Outcome State Fault Refusal :=
  finish s (issueMask (.mlogic 0x01) w d.toNat a.toNat b.toNat s)

/-- MOR (R131). -/
def execMor (w : Bool) (d a b : BitVec 3) (s : State) : Host.Outcome State Fault Refusal :=
  finish s (issueMask (.mlogic 0x02) w d.toNat a.toNat b.toNat s)

/-- MXOR (R131). -/
def execMxor (w : Bool) (d a b : BitVec 3) (s : State) : Host.Outcome State Fault Refusal :=
  finish s (issueMask (.mlogic 0x03) w d.toNat a.toNat b.toNat s)

/-- MANDN (R131). -/
def execMandn (w : Bool) (d a b : BitVec 3) (s : State) : Host.Outcome State Fault Refusal :=
  finish s (issueMask (.mlogic 0x04) w d.toNat a.toNat b.toNat s)

/-- MNOT (R131). -/
def execMnot (w : Bool) (d a : BitVec 3) (s : State) : Host.Outcome State Fault Refusal :=
  finish s (issueMask1 (.mlogic 0x05) w d.toNat a.toNat s)

/-- MMV (R131). -/
def execMmv (w : Bool) (d a : BitVec 3) (s : State) : Host.Outcome State Fault Refusal :=
  finish s (issueMask1 .mmv w d.toNat a.toNat s)

/-- MCNT (R131). -/
def execMcnt (w : Bool) (d : BitVec 5) (a : BitVec 3) (s : State) : Host.Outcome State Fault Refusal :=
  finish s (issueMask1 .mcnt w d.toNat a.toNat s)

/-- MFIRST (R131). -/
def execMfirst (w : Bool) (d : BitVec 5) (a : BitVec 3) (s : State) : Host.Outcome State Fault Refusal :=
  finish s (issueMask1 .mfirst w d.toNat a.toNat s)

/-- MFROMV (R131). -/
def execMfromv (w : Bool) (d : BitVec 3) (a : BitVec 5) (s : State) : Host.Outcome State Fault Refusal :=
  finish s (issueMfromv w d a s)

/-- MTOV (R131). -/
def execMtov (w : Bool) (d : BitVec 5) (a : BitVec 3) (s : State) : Host.Outcome State Fault Refusal :=
  finish s (issueMtov w d a s)

/-- MPUSH (R132). -/
def execMpush (w : Bool) (a : BitVec 3) (s : State) : Host.Outcome State Fault Refusal :=
  finish s (issueMpush w a s)

/-- MELSE (R132). -/
def execMelse (w : Bool) (s : State) : Host.Outcome State Fault Refusal :=
  finish s (issueMelse w s)

/-- MPOP (R132). -/
def execMpop (w : Bool) (s : State) : Host.Outcome State Fault Refusal :=
  finish s (issueMpop w s)

end Sys2Proof.Machine
end

