-- ==== Sys2Proof/Machine/VecMove.lean ====
section
/-! DEFINITION. The issue of the configuration and move instructions of major 0x20 (R110 to R115). -/
namespace Sys2Proof.Machine

/-- Writes a register's tag. -/
def Thread.setTag (t : Thread) (r : Nat) (fmt : BitVec 5) (grp : BitVec 2) : Thread :=
  t.setV r { t.getV r with fmt := fmt, grp := grp }

/-- The last part of VCFG, VGRANT and VTAG, whose effects come at issue: they take a place in the queue as every vector instruction
does (R104), and a start of the sequencer that does nothing (log entry 111). -/
def issueCfg (s : State) : Res State := issueCmd s (mkCmd s .cfg 0 0 0 0 0 0)

/-- VCFG (R110). -/
def issueVcfg (w : Bool) (d t : BitVec 5) (g : BitVec 2) (s : State) : Res State := do
  let s ← waitW w s
  let n := 2 ^ g.toNat
  boundCheck s [] [(d.toNat, n)]
  issueCfg (s.putThr ((List.range n).foldl (fun x j => x.setTag (d.toNat + j) t g) s.thr))

/-- VGRANT (R111). -/
def issueVgrant (w : Bool) (d a b : BitVec 5) (s : State) : Res State := do
  let s ← waitW w s
  boundCheck s [] [(b.toNat, 1)]
  tagUnless s b.toNat (s.thr.ew b.toNat != 0)
  let (x, s) ← readG s a.toNat
  let n := min x.toNat (s.thr.count b.toNat)
  let s := s.putThr ((s.thr.trim n).clearVstart)
  issueCfg (s.setG d.toNat (x - BitVec.ofNat 64 n))

/-- VMV (R112). -/
def issueVmv (w : Bool) (d a : BitVec 5) (m : BitVec 3) (s : State) : Res State := do
  let (vl, vs, s) ← vecBegin w s
  sameForm s vl (fun _ => true) d.toNat [a.toNat]
  vecIssue s (mkCmd s .mv d.toNat a.toNat 0 m.toNat vl vs)

/-- VSPLAT (R112). -/
def issueVsplat (w : Bool) (d a : BitVec 5) (m : BitVec 3) (s : State) : Res State := do
  let (vl, vs, s) ← vecBegin w s
  sameForm s vl (fun _ => true) d.toNat []
  let (x, s) ← readG s a.toNat
  vecIssue s { mkCmd s .splat d.toNat 0 0 m.toNat vl vs with x := x }

/-- VGET (R113). -/
def issueVget (w : Bool) (d a b : BitVec 5) (s : State) : Res State := do
  let s ← waitW w s
  sameForm s 0 (· != fmtVf4) a.toNat []
  let (y, s) ← readG s b.toNat
  issueCmd s { mkCmd s .get d.toNat a.toNat 0 0 0 0 with y := y }

/-- VPUT (R113). -/
def issueVput (w : Bool) (d a b : BitVec 5) (s : State) : Res State := do
  let s ← waitW w s
  sameForm s 0 (fun _ => true) d.toNat []
  let (x, s) ← readG s a.toNat
  let (y, s) ← readG s b.toNat
  issueCmd s { mkCmd s .put d.toNat 0 0 0 0 0 with x := x, y := y }

/-- The register that VMOVR and VMOVW address: g[a] + k as a signed sum, within the budget (R114). -/
def relReg (s : State) (x : Word) (k : Nat) : Res Nat := do
  let j : Int := x.toInt + k
  if j < 0 || j ≥ s.thr.budget then trapNow s 0x03 (BitVec.ofInt 64 j) else .ok j.toNat

/-- VMOVR (R114): the tag is copied at issue. -/
def issueVmovr (w : Bool) (d a k : BitVec 5) (s : State) : Res State := do
  let s ← waitW w s
  boundCheck s [] [(d.toNat, 1)]
  let (x, s) ← readG s a.toNat
  let j ← relReg s x k.toNat
  tagUnless s j (s.thr.fmt j != 0)
  let v := s.thr.getV j
  issueCmd (s.putThr (s.thr.setTag d.toNat v.fmt v.grp)) (mkCmd s .movr d.toNat j 0 0 0 0)

/-- VMOVW (R114). -/
def issueVmovw (w : Bool) (d a k : BitVec 5) (s : State) : Res State := do
  let s ← waitW w s
  boundCheck s [] [(d.toNat, 1)]
  let (x, s) ← readG s a.toNat
  let j ← relReg s x k.toNat
  tagUnless s d.toNat (s.thr.fmt d.toNat != 0)
  let v := s.thr.getV d.toNat
  issueCmd (s.putThr (s.thr.setTag j v.fmt v.grp)) (mkCmd s .movw d.toNat j 0 0 0 0)

/-- VTAG (R115). -/
def issueVtag (w : Bool) (d a : BitVec 5) (s : State) : Res State := do
  let s ← waitW w s
  boundCheck s [] [(a.toNat, 1)]
  tagUnless s a.toNat (s.thr.fmt a.toNat != 0)
  issueCfg (s.setG d.toNat (BitVec.ofNat 64 ((s.thr.getV a.toNat).grp.toNat * 32 + s.thr.fmt a.toNat)))

/-- VCFG (R110). -/
def execVcfg (w : Bool) (d t : BitVec 5) (g : BitVec 2) (s : State) : Host.Outcome State Fault Refusal :=
  finish s (issueVcfg w d t g s)

/-- VGRANT (R111). -/
def execVgrant (w : Bool) (d a b : BitVec 5) (s : State) : Host.Outcome State Fault Refusal :=
  finish s (issueVgrant w d a b s)

/-- VMV (R112). -/
def execVmv (w : Bool) (d a : BitVec 5) (m : BitVec 3) (s : State) : Host.Outcome State Fault Refusal :=
  finish s (issueVmv w d a m s)

/-- VSPLAT (R112). -/
def execVsplat (w : Bool) (d a : BitVec 5) (m : BitVec 3) (s : State) : Host.Outcome State Fault Refusal :=
  finish s (issueVsplat w d a m s)

/-- VGET (R113). -/
def execVget (w : Bool) (d a b : BitVec 5) (s : State) : Host.Outcome State Fault Refusal :=
  finish s (issueVget w d a b s)

/-- VPUT (R113). -/
def execVput (w : Bool) (d a b : BitVec 5) (s : State) : Host.Outcome State Fault Refusal :=
  finish s (issueVput w d a b s)

/-- VMOVR (R114). -/
def execVmovr (w : Bool) (d a k : BitVec 5) (s : State) : Host.Outcome State Fault Refusal :=
  finish s (issueVmovr w d a k s)

/-- VMOVW (R114). -/
def execVmovw (w : Bool) (d a k : BitVec 5) (s : State) : Host.Outcome State Fault Refusal :=
  finish s (issueVmovw w d a k s)

/-- VTAG (R115). -/
def execVtag (w : Bool) (d a : BitVec 5) (s : State) : Host.Outcome State Fault Refusal :=
  finish s (issueVtag w d a s)

end Sys2Proof.Machine
end

