-- ==== Sys2Proof/Machine/VecPerm.lean ====
section
/-! DEFINITION. The issue of the movement, scan and reduction instructions of major 0x24 (R126 to R130). -/
namespace Sys2Proof.Machine

/-- A form of R126: v[d] and v[a] of one form, and the scalar g[b]. -/
def issueShift (op : VOp) (w : Bool) (d a b : BitVec 5) (m : BitVec 3) (s : State) : Res State := do
  let (vl, vs, s) ← vecBegin w s
  sameForm s vl (fun _ => true) d.toNat [a.toNat]
  let (y, s) ← readG s b.toNat
  vecIssue s { mkCmd s op d.toNat a.toNat 0 m.toNat vl vs with y := y }

/-- VPICK (R127). -/
def issuePick (w : Bool) (d a b : BitVec 5) (m : BitVec 3) (s : State) : Res State := do
  let (vl, vs, s) ← vecBegin w s
  boundCheck s [d.toNat, a.toNat, b.toNat] []
  let t := s.thr
  let f := t.fmt d.toNat
  let n := t.grp d.toNat
  let clear := !overlaps d.toNat n b.toNat (t.grp b.toNat)
  tagCheck s vl [(d.toNat, fun _ _ => clear), (a.toNat, fun x y => x == f && y == n && x != fmtVf4),
    (b.toNat, fun x _ => fmtIsInt x && x % 2 == 0)]
  vecIssue s (mkCmd s .pick d.toNat a.toNat b.toNat m.toNat vl vs)

/-- VPACK and VSPREAD (R128). The check of c.vstart comes with those of R67's second step (log entry 118). -/
def issuePack (op : VOp) (w : Bool) (d a : BitVec 5) (m : BitVec 3) (s : State) : Res State := do
  let (vl, vs, s) ← vecBegin w s
  if op = .pack && vs ≠ 0 then illegal s
  else
    boundCheck s [d.toNat, a.toNat] []
    let t := s.thr
    let f := t.fmt d.toNat
    let n := t.grp d.toNat
    let clear := !overlaps d.toNat n a.toNat (t.grp a.toNat)
    tagCheck s vl [(d.toNat, fun _ _ => clear), (a.toNat, fun x y => x == f && y == n && x != fmtVf4)]
    vecIssue s (mkCmd s op d.toNat a.toNat 0 m.toNat vl vs)

/-- A scan (R129): `p` the formats it takes. -/
def issueScan (op : VOp) (p : Nat → Bool) (w : Bool) (d a b : BitVec 5) (m : BitVec 3) (s : State) : Res State := do
  let (vl, vs, s) ← vecBegin w s
  sameForm s vl p d.toNat [a.toNat]
  let (y, s) ← readG s b.toNat
  vecIssue s { mkCmd s op d.toNat a.toNat 0 m.toNat vl vs with y := y }

/-- A reduction (R130): `p` the formats it takes. -/
def issueReduce (op : VOp) (p : Nat → Bool) (w : Bool) (d a b : BitVec 5) (m : BitVec 3) (s : State) : Res State := do
  let (vl, vs, s) ← vecBegin w s
  sameForm s vl p a.toNat []
  let (y, s) ← readG s b.toNat
  vecIssue s { mkCmd s op d.toNat a.toNat 0 m.toNat vl vs with y := y }

/-- VSHIFT (R126). -/
def execVshift (w : Bool) (d a b : BitVec 5) (m : BitVec 3) (s : State) : Host.Outcome State Fault Refusal :=
  finish s (issueShift .shift w d a b m s)

/-- VROT (R126). -/
def execVrot (w : Bool) (d a b : BitVec 5) (m : BitVec 3) (s : State) : Host.Outcome State Fault Refusal :=
  finish s (issueShift .rot w d a b m s)

/-- VFEEDLO (R126). -/
def execVfeedlo (w : Bool) (d a b : BitVec 5) (m : BitVec 3) (s : State) : Host.Outcome State Fault Refusal :=
  finish s (issueShift .feedLo w d a b m s)

/-- VFEEDHI (R126). -/
def execVfeedhi (w : Bool) (d a b : BitVec 5) (m : BitVec 3) (s : State) : Host.Outcome State Fault Refusal :=
  finish s (issueShift .feedHi w d a b m s)

/-- VPICK (R127). -/
def execVpick (w : Bool) (d a b : BitVec 5) (m : BitVec 3) (s : State) : Host.Outcome State Fault Refusal :=
  finish s (issuePick w d a b m s)

/-- VPACK (R128). -/
def execVpack (w : Bool) (d a : BitVec 5) (m : BitVec 3) (s : State) : Host.Outcome State Fault Refusal :=
  finish s (issuePack .pack w d a m s)

/-- VSPREAD (R128). -/
def execVspread (w : Bool) (d a : BitVec 5) (m : BitVec 3) (s : State) : Host.Outcome State Fault Refusal :=
  finish s (issuePack .spread w d a m s)

/-- VSCANADD (R129). -/
def execVscanadd (w : Bool) (d a b : BitVec 5) (m : BitVec 3) (s : State) : Host.Outcome State Fault Refusal :=
  finish s (issueScan (.scanInt 0x08) fmtIsInt w d a b m s)

/-- VSCANMIN (R129). -/
def execVscanmin (w : Bool) (d a b : BitVec 5) (m : BitVec 3) (s : State) : Host.Outcome State Fault Refusal :=
  finish s (issueScan (.scanInt 0x09) fmtIsInt w d a b m s)

/-- VSCANMAX (R129). -/
def execVscanmax (w : Bool) (d a b : BitVec 5) (m : BitVec 3) (s : State) : Host.Outcome State Fault Refusal :=
  finish s (issueScan (.scanInt 0x0A) fmtIsInt w d a b m s)

/-- VFSCANADD (R129). -/
def execVfscanadd (w : Bool) (d a b : BitVec 5) (m : BitVec 3) (s : State) : Host.Outcome State Fault Refusal :=
  finish s (issueScan .scanFlt fmtIsFloat w d a b m s)

/-- VREDSUM (R130). -/
def execVredsum (w : Bool) (d a b : BitVec 5) (m : BitVec 3) (s : State) : Host.Outcome State Fault Refusal :=
  finish s (issueReduce (.redInt 0x10) fmtIsInt w d a b m s)

/-- VREDMIN (R130). -/
def execVredmin (w : Bool) (d a b : BitVec 5) (m : BitVec 3) (s : State) : Host.Outcome State Fault Refusal :=
  finish s (issueReduce (.redInt 0x11) fmtIsInt w d a b m s)

/-- VREDMAX (R130). -/
def execVredmax (w : Bool) (d a b : BitVec 5) (m : BitVec 3) (s : State) : Host.Outcome State Fault Refusal :=
  finish s (issueReduce (.redInt 0x12) fmtIsInt w d a b m s)

/-- VREDMINN (R130). -/
def execVredminn (w : Bool) (d a b : BitVec 5) (m : BitVec 3) (s : State) : Host.Outcome State Fault Refusal :=
  finish s (issueReduce (.redInt 0x13) fmtIsInt w d a b m s)

/-- VREDMAXN (R130). -/
def execVredmaxn (w : Bool) (d a b : BitVec 5) (m : BitVec 3) (s : State) : Host.Outcome State Fault Refusal :=
  finish s (issueReduce (.redInt 0x14) fmtIsInt w d a b m s)

/-- VREDAND (R130). -/
def execVredand (w : Bool) (d a b : BitVec 5) (m : BitVec 3) (s : State) : Host.Outcome State Fault Refusal :=
  finish s (issueReduce (.redInt 0x15) fmtIsInt w d a b m s)

/-- VREDOR (R130). -/
def execVredor (w : Bool) (d a b : BitVec 5) (m : BitVec 3) (s : State) : Host.Outcome State Fault Refusal :=
  finish s (issueReduce (.redInt 0x16) fmtIsInt w d a b m s)

/-- VREDXOR (R130). -/
def execVredxor (w : Bool) (d a b : BitVec 5) (m : BitVec 3) (s : State) : Host.Outcome State Fault Refusal :=
  finish s (issueReduce (.redInt 0x17) fmtIsInt w d a b m s)

/-- VFREDSUM (R130). -/
def execVfredsum (w : Bool) (d a b : BitVec 5) (m : BitVec 3) (s : State) : Host.Outcome State Fault Refusal :=
  finish s (issueReduce (.redFlt 0x18) fmtIsFloat w d a b m s)

/-- VFREDMIN (R130). -/
def execVfredmin (w : Bool) (d a b : BitVec 5) (m : BitVec 3) (s : State) : Host.Outcome State Fault Refusal :=
  finish s (issueReduce (.redFlt 0x19) fmtIsFloat w d a b m s)

/-- VFREDMAX (R130). -/
def execVfredmax (w : Bool) (d a b : BitVec 5) (m : BitVec 3) (s : State) : Host.Outcome State Fault Refusal :=
  finish s (issueReduce (.redFlt 0x1A) fmtIsFloat w d a b m s)

end Sys2Proof.Machine
end

