-- ==== Sys2Proof/Machine/VecScalar.lean ====
section
/-! DEFINITION. The issue of the vector–scalar forms of major 0x29 (R122): g[b] stands for every element of v[b]. -/
namespace Sys2Proof.Machine

/-- A .G form of major 0x21: fn7[5:0] is its operation. -/
def issueIntG (w : Bool) (d a b : BitVec 5) (m : BitVec 3) (p : BitVec 6) (s : State) : Res State := do
  let (vl, vs, s) ← vecBegin w s
  let code := p.toNat
  let cmp := 0x20 ≤ code && code ≤ 0x25
  let wide := code ≥ 0x28
  if cmp then sameForm s vl fmtIsInt a.toNat []
  else if wide then wideForm s vl d.toNat a.toNat []
  else sameForm s vl fmtIsInt d.toNat [a.toNat]
  let (y, s) ← readG s b.toNat
  let op := if cmp then VOp.cmpIntG code else if wide then VOp.wideG code else VOp.intG code
  vecIssue s { mkCmd s op d.toNat a.toNat 0 m.toNat vl vs with y := y }

/-- A .G form of major 0x22: fn7[5:0] is its operation. -/
def issueFltG (w : Bool) (d a b : BitVec 5) (m : BitVec 3) (p : BitVec 6) (s : State) : Res State := do
  let (vl, vs, s) ← vecBegin w s
  let code := p.toNat
  let cmp := code ≥ 0x20
  if cmp then sameForm s vl fmtIsFloat a.toNat [] else sameForm s vl fmtIsFloat d.toNat [a.toNat]
  let (y, s) ← readG s b.toNat
  vecIssue s { mkCmd s (if cmp then .cmpFltG code else .fltG code) d.toNat a.toNat 0 m.toNat vl vs with y := y }

/-- VINT_G (R122). -/
def execVintG (w : Bool) (d a b : BitVec 5) (m : BitVec 3) (p : BitVec 6) (s : State) : Host.Outcome State Fault Refusal :=
  finish s (issueIntG w d a b m p s)

/-- VFLOAT_G (R122). -/
def execVfloatG (w : Bool) (d a b : BitVec 5) (m : BitVec 3) (p : BitVec 6) (s : State) : Host.Outcome State Fault Refusal :=
  finish s (issueFltG w d a b m p s)

end Sys2Proof.Machine
end

