-- ==== Sys2Proof/Machine/Dispatch.lean ====
section
/-! DEFINITION. The dispatch: one arm for each constructor of `Instr`, each one call of the instruction's meaning. -/
namespace Sys2Proof.Machine

/-- The effect of one instruction, or of one step of an agent, on the state. -/
def exec (i : Instr) (s : State) : Host.Outcome State Fault Refusal :=
  match i with
  | .add w d a b => Sys2Proof.Machine.execAdd w d a b s
  | .sub w d a b => Sys2Proof.Machine.execSub w d a b s
  | .and w d a b => Sys2Proof.Machine.execAnd w d a b s
  | .or w d a b => Sys2Proof.Machine.execOr w d a b s
  | .xor w d a b => Sys2Proof.Machine.execXor w d a b s
  | .sll w d a b => Sys2Proof.Machine.execSll w d a b s
  | .srl w d a b => Sys2Proof.Machine.execSrl w d a b s
  | .sra w d a b => Sys2Proof.Machine.execSra w d a b s
  | .slt w d a b => Sys2Proof.Machine.execSlt w d a b s
  | .sltn w d a b => Sys2Proof.Machine.execSltn w d a b s
  | .min w d a b => Sys2Proof.Machine.execMin w d a b s
  | .max w d a b => Sys2Proof.Machine.execMax w d a b s
  | .minn w d a b => Sys2Proof.Machine.execMinn w d a b s
  | .maxn w d a b => Sys2Proof.Machine.execMaxn w d a b s
  | .addw w d a b => Sys2Proof.Machine.execAddw w d a b s
  | .subw w d a b => Sys2Proof.Machine.execSubw w d a b s
  | .sllw w d a b => Sys2Proof.Machine.execSllw w d a b s
  | .srlw w d a b => Sys2Proof.Machine.execSrlw w d a b s
  | .sraw w d a b => Sys2Proof.Machine.execSraw w d a b s
  | .aluH w d a b p => Sys2Proof.Machine.execAluH w d a b p s
  | .addiH w d a im => Sys2Proof.Machine.execAddiH w d a im s
  | .andiH w d a im => Sys2Proof.Machine.execAndiH w d a im s
  | .oriH w d a im => Sys2Proof.Machine.execOriH w d a im s
  | .xoriH w d a im => Sys2Proof.Machine.execXoriH w d a im s
  | .addi w d a im => Sys2Proof.Machine.execAddi w d a im s
  | .andi w d a im => Sys2Proof.Machine.execAndi w d a im s
  | .ori w d a im => Sys2Proof.Machine.execOri w d a im s
  | .xori w d a im => Sys2Proof.Machine.execXori w d a im s
  | .slti w d a im => Sys2Proof.Machine.execSlti w d a im s
  | .sltni w d a im => Sys2Proof.Machine.execSltni w d a im s
  | .addiL w d a im => Sys2Proof.Machine.execAddiL w d a im s
  | .slli w d a sz => Sys2Proof.Machine.execSlli w d a sz s
  | .srli w d a sz => Sys2Proof.Machine.execSrli w d a sz s
  | .srai w d a sz => Sys2Proof.Machine.execSrai w d a sz s
  | .slliw w d a sz => Sys2Proof.Machine.execSlliw w d a sz s
  | .srliw w d a sz => Sys2Proof.Machine.execSrliw w d a sz s
  | .sraiw w d a sz => Sys2Proof.Machine.execSraiw w d a sz s
  | .rori w d a sz => Sys2Proof.Machine.execRori w d a sz s
  | .lui w d im => Sys2Proof.Machine.execLui w d im s
  | .addpc w d im => Sys2Proof.Machine.execAddpc w d im s
  | .addpcL w d im => Sys2Proof.Machine.execAddpcL w d im s
  | .mul w d a b => Sys2Proof.Machine.execMul w d a b s
  | .mulh w d a b => Sys2Proof.Machine.execMulh w d a b s
  | .mulhn w d a b => Sys2Proof.Machine.execMulhn w d a b s
  | .mulhsn w d a b => Sys2Proof.Machine.execMulhsn w d a b s
  | .div w d a b => Sys2Proof.Machine.execDiv w d a b s
  | .divn w d a b => Sys2Proof.Machine.execDivn w d a b s
  | .rem w d a b => Sys2Proof.Machine.execRem w d a b s
  | .remn w d a b => Sys2Proof.Machine.execRemn w d a b s
  | .mulw w d a b => Sys2Proof.Machine.execMulw w d a b s
  | .divw w d a b => Sys2Proof.Machine.execDivw w d a b s
  | .divnw w d a b => Sys2Proof.Machine.execDivnw w d a b s
  | .remw w d a b => Sys2Proof.Machine.execRemw w d a b s
  | .remnw w d a b => Sys2Proof.Machine.execRemnw w d a b s
  | .clz w d a => Sys2Proof.Machine.execClz w d a s
  | .ctz w d a => Sys2Proof.Machine.execCtz w d a s
  | .popc w d a => Sys2Proof.Machine.execPopc w d a s
  | .brev w d a => Sys2Proof.Machine.execBrev w d a s
  | .bswap w d a => Sys2Proof.Machine.execBswap w d a s
  | .rol w d a b => Sys2Proof.Machine.execRol w d a b s
  | .ror w d a b => Sys2Proof.Machine.execRor w d a b s
  | .sextb w d a => Sys2Proof.Machine.execSextb w d a s
  | .sexth w d a => Sys2Proof.Machine.execSexth w d a s
  | .sextw w d a => Sys2Proof.Machine.execSextw w d a s
  | .zextw w d a => Sys2Proof.Machine.execZextw w d a s
  | .bext w d a b => Sys2Proof.Machine.execBext w d a b s
  | .bdep w d a b => Sys2Proof.Machine.execBdep w d a b s
  | .clzw w d a => Sys2Proof.Machine.execClzw w d a s
  | .ctzw w d a => Sys2Proof.Machine.execCtzw w d a s
  | .popcw w d a => Sys2Proof.Machine.execPopcw w d a s
  | .tid w d => Sys2Proof.Machine.execTid w d s
  | .place w d => Sys2Proof.Machine.execPlace w d s
  | .lsize w d => Sys2Proof.Machine.execLsize w d s
  | .lb w d a o im => Sys2Proof.Machine.execLb w d a o im s
  | .lh w d a o im => Sys2Proof.Machine.execLh w d a o im s
  | .lw w d a o im => Sys2Proof.Machine.execLw w d a o im s
  | .ld w d a o im => Sys2Proof.Machine.execLd w d a o im s
  | .lbn w d a o im => Sys2Proof.Machine.execLbn w d a o im s
  | .lhn w d a o im => Sys2Proof.Machine.execLhn w d a o im s
  | .lwn w d a o im => Sys2Proof.Machine.execLwn w d a o im s
  | .sb w o a b im => Sys2Proof.Machine.execSb w o a b im s
  | .sh w o a b im => Sys2Proof.Machine.execSh w o a b im s
  | .sw w o a b im => Sys2Proof.Machine.execSw w o a b im s
  | .sd w o a b im => Sys2Proof.Machine.execSd w o a b im s
  | .loadScoped w d a sz o => Sys2Proof.Machine.execLoadScoped w d a sz o s
  | .storeScoped w a b sz o => Sys2Proof.Machine.execStoreScoped w a b sz o s
  | .beq w o a b => Sys2Proof.Machine.execBeq w o a b s
  | .bne w o a b => Sys2Proof.Machine.execBne w o a b s
  | .blt w o a b => Sys2Proof.Machine.execBlt w o a b s
  | .bge w o a b => Sys2Proof.Machine.execBge w o a b s
  | .bltn w o a b => Sys2Proof.Machine.execBltn w o a b s
  | .bgen w o a b => Sys2Proof.Machine.execBgen w o a b s
  | .call w d o => Sys2Proof.Machine.execCall w d o s
  | .callr w d a im => Sys2Proof.Machine.execCallr w d a im s
  | .amoadd w d a b z o => Sys2Proof.Machine.execAmoadd w d a b z o s
  | .amoand w d a b z o => Sys2Proof.Machine.execAmoand w d a b z o s
  | .amoor w d a b z o => Sys2Proof.Machine.execAmoor w d a b z o s
  | .amoxor w d a b z o => Sys2Proof.Machine.execAmoxor w d a b z o s
  | .amomin w d a b z o => Sys2Proof.Machine.execAmomin w d a b z o s
  | .amomax w d a b z o => Sys2Proof.Machine.execAmomax w d a b z o s
  | .amominn w d a b z o => Sys2Proof.Machine.execAmominn w d a b z o s
  | .amomaxn w d a b z o => Sys2Proof.Machine.execAmomaxn w d a b z o s
  | .amoswap w d a b z o => Sys2Proof.Machine.execAmoswap w d a b z o s
  | .cas w d a b z o => Sys2Proof.Machine.execCas w d a b z o s
  | .amofadd w d a b z o => Sys2Proof.Machine.execAmofadd w d a b z o s
  | .casQ w d a b o => Sys2Proof.Machine.execCasQ w d a b o s
  | .lease w d a o => Sys2Proof.Machine.execLease w d a o s
  | .leaseN w d a b o => Sys2Proof.Machine.execLeaseN w d a b o s
  | .lend w d o => Sys2Proof.Machine.execLend w d o s
  | .fence w k sz => Sys2Proof.Machine.execFence w k sz s
  | .bar w n sz => Sys2Proof.Machine.execBar w n sz s
  | .bara w n sz => Sys2Proof.Machine.execBara w n sz s
  | .barw w n sz => Sys2Proof.Machine.execBarw w n sz s
  | .claim w d a b => Sys2Proof.Machine.execClaim w d a b s
  | .vwait w d a b m c => Sys2Proof.Machine.execVwait w d a b m c s
  | .vwaitT w d a b m c => Sys2Proof.Machine.execVwaitT w d a b m c s
  | .wfe w => Sys2Proof.Machine.execWfe w s
  | .wake w a => Sys2Proof.Machine.execWake w a s
  | .vcfg w d t g => Sys2Proof.Machine.execVcfg w d t g s
  | .vgrant w d a b => Sys2Proof.Machine.execVgrant w d a b s
  | .vmv w d a m => Sys2Proof.Machine.execVmv w d a m s
  | .vsplat w d a m => Sys2Proof.Machine.execVsplat w d a m s
  | .vget w d a b => Sys2Proof.Machine.execVget w d a b s
  | .vput w d a b => Sys2Proof.Machine.execVput w d a b s
  | .vmovr w d a k => Sys2Proof.Machine.execVmovr w d a k s
  | .vmovw w d a k => Sys2Proof.Machine.execVmovw w d a k s
  | .vtag w d a => Sys2Proof.Machine.execVtag w d a s
  | .vadd w d a b m => Sys2Proof.Machine.execVadd w d a b m s
  | .vsub w d a b m => Sys2Proof.Machine.execVsub w d a b m s
  | .vmul w d a b m => Sys2Proof.Machine.execVmul w d a b m s
  | .vmulh w d a b m => Sys2Proof.Machine.execVmulh w d a b m s
  | .vmulhn w d a b m => Sys2Proof.Machine.execVmulhn w d a b m s
  | .vmadd w d a b m => Sys2Proof.Machine.execVmadd w d a b m s
  | .vdiv w d a b m => Sys2Proof.Machine.execVdiv w d a b m s
  | .vdivn w d a b m => Sys2Proof.Machine.execVdivn w d a b m s
  | .vrem w d a b m => Sys2Proof.Machine.execVrem w d a b m s
  | .vremn w d a b m => Sys2Proof.Machine.execVremn w d a b m s
  | .vand w d a b m => Sys2Proof.Machine.execVand w d a b m s
  | .vor w d a b m => Sys2Proof.Machine.execVor w d a b m s
  | .vxor w d a b m => Sys2Proof.Machine.execVxor w d a b m s
  | .vsll w d a b m => Sys2Proof.Machine.execVsll w d a b m s
  | .vsrl w d a b m => Sys2Proof.Machine.execVsrl w d a b m s
  | .vsra w d a b m => Sys2Proof.Machine.execVsra w d a b m s
  | .vmin w d a b m => Sys2Proof.Machine.execVmin w d a b m s
  | .vmax w d a b m => Sys2Proof.Machine.execVmax w d a b m s
  | .vminn w d a b m => Sys2Proof.Machine.execVminn w d a b m s
  | .vmaxn w d a b m => Sys2Proof.Machine.execVmaxn w d a b m s
  | .vsadd w d a b m => Sys2Proof.Machine.execVsadd w d a b m s
  | .vsaddn w d a b m => Sys2Proof.Machine.execVsaddn w d a b m s
  | .vssub w d a b m => Sys2Proof.Machine.execVssub w d a b m s
  | .vssubn w d a b m => Sys2Proof.Machine.execVssubn w d a b m s
  | .vabs w d a m => Sys2Proof.Machine.execVabs w d a m s
  | .vcmpeq w d a b m => Sys2Proof.Machine.execVcmpeq w d a b m s
  | .vcmpne w d a b m => Sys2Proof.Machine.execVcmpne w d a b m s
  | .vcmplt w d a b m => Sys2Proof.Machine.execVcmplt w d a b m s
  | .vcmpge w d a b m => Sys2Proof.Machine.execVcmpge w d a b m s
  | .vcmpltn w d a b m => Sys2Proof.Machine.execVcmpltn w d a b m s
  | .vcmpgen w d a b m => Sys2Proof.Machine.execVcmpgen w d a b m s
  | .vwadd w d a b m => Sys2Proof.Machine.execVwadd w d a b m s
  | .vwmul w d a b m => Sys2Proof.Machine.execVwmul w d a b m s
  | .vfadd w d a b m => Sys2Proof.Machine.execVfadd w d a b m s
  | .vfsub w d a b m => Sys2Proof.Machine.execVfsub w d a b m s
  | .vfmul w d a b m => Sys2Proof.Machine.execVfmul w d a b m s
  | .vfdiv w d a b m => Sys2Proof.Machine.execVfdiv w d a b m s
  | .vfma w d a b m => Sys2Proof.Machine.execVfma w d a b m s
  | .vfms w d a b m => Sys2Proof.Machine.execVfms w d a b m s
  | .vfnma w d a b m => Sys2Proof.Machine.execVfnma w d a b m s
  | .vfmin w d a b m => Sys2Proof.Machine.execVfmin w d a b m s
  | .vfmax w d a b m => Sys2Proof.Machine.execVfmax w d a b m s
  | .vfsgnj w d a b m => Sys2Proof.Machine.execVfsgnj w d a b m s
  | .vfsgnjn w d a b m => Sys2Proof.Machine.execVfsgnjn w d a b m s
  | .vfsqrt w d a m => Sys2Proof.Machine.execVfsqrt w d a m s
  | .vfrcp w d a m => Sys2Proof.Machine.execVfrcp w d a m s
  | .vfrsqrt w d a m => Sys2Proof.Machine.execVfrsqrt w d a m s
  | .vfexp2 w d a m => Sys2Proof.Machine.execVfexp2 w d a m s
  | .vflog2 w d a m => Sys2Proof.Machine.execVflog2 w d a m s
  | .vfabs w d a m => Sys2Proof.Machine.execVfabs w d a m s
  | .vfneg w d a m => Sys2Proof.Machine.execVfneg w d a m s
  | .vfclass w d a m => Sys2Proof.Machine.execVfclass w d a m s
  | .vfcmpeq w d a b m => Sys2Proof.Machine.execVfcmpeq w d a b m s
  | .vfcmplt w d a b m => Sys2Proof.Machine.execVfcmplt w d a b m s
  | .vfcmple w d a b m => Sys2Proof.Machine.execVfcmple w d a b m s
  | .vfcmpun w d a b m => Sys2Proof.Machine.execVfcmpun w d a b m s
  | .vintG w d a b m p => Sys2Proof.Machine.execVintG w d a b m p s
  | .vfloatG w d a b m p => Sys2Proof.Machine.execVfloatG w d a b m p s
  | .vcvt w d a m r => Sys2Proof.Machine.execVcvt w d a m r s
  | .vcvtSat w d a m r => Sys2Proof.Machine.execVcvtSat w d a m r s
  | .vcvtSc w d a b m r => Sys2Proof.Machine.execVcvtSc w d a b m r s
  | .vcvtDs w d a b r => Sys2Proof.Machine.execVcvtDs w d a b r s
  | .vshift w d a b m => Sys2Proof.Machine.execVshift w d a b m s
  | .vrot w d a b m => Sys2Proof.Machine.execVrot w d a b m s
  | .vfeedlo w d a b m => Sys2Proof.Machine.execVfeedlo w d a b m s
  | .vfeedhi w d a b m => Sys2Proof.Machine.execVfeedhi w d a b m s
  | .vpick w d a b m => Sys2Proof.Machine.execVpick w d a b m s
  | .vpack w d a m => Sys2Proof.Machine.execVpack w d a m s
  | .vspread w d a m => Sys2Proof.Machine.execVspread w d a m s
  | .vscanadd w d a b m => Sys2Proof.Machine.execVscanadd w d a b m s
  | .vscanmin w d a b m => Sys2Proof.Machine.execVscanmin w d a b m s
  | .vscanmax w d a b m => Sys2Proof.Machine.execVscanmax w d a b m s
  | .vfscanadd w d a b m => Sys2Proof.Machine.execVfscanadd w d a b m s
  | .vredsum w d a b m => Sys2Proof.Machine.execVredsum w d a b m s
  | .vredmin w d a b m => Sys2Proof.Machine.execVredmin w d a b m s
  | .vredmax w d a b m => Sys2Proof.Machine.execVredmax w d a b m s
  | .vredminn w d a b m => Sys2Proof.Machine.execVredminn w d a b m s
  | .vredmaxn w d a b m => Sys2Proof.Machine.execVredmaxn w d a b m s
  | .vredand w d a b m => Sys2Proof.Machine.execVredand w d a b m s
  | .vredor w d a b m => Sys2Proof.Machine.execVredor w d a b m s
  | .vredxor w d a b m => Sys2Proof.Machine.execVredxor w d a b m s
  | .vfredsum w d a b m => Sys2Proof.Machine.execVfredsum w d a b m s
  | .vfredmin w d a b m => Sys2Proof.Machine.execVfredmin w d a b m s
  | .vfredmax w d a b m => Sys2Proof.Machine.execVfredmax w d a b m s
  | .mbound w d a b => Sys2Proof.Machine.execMbound w d a b s
  | .mand w d a b => Sys2Proof.Machine.execMand w d a b s
  | .mor w d a b => Sys2Proof.Machine.execMor w d a b s
  | .mxor w d a b => Sys2Proof.Machine.execMxor w d a b s
  | .mandn w d a b => Sys2Proof.Machine.execMandn w d a b s
  | .mnot w d a => Sys2Proof.Machine.execMnot w d a s
  | .mmv w d a => Sys2Proof.Machine.execMmv w d a s
  | .mcnt w d a => Sys2Proof.Machine.execMcnt w d a s
  | .mfirst w d a => Sys2Proof.Machine.execMfirst w d a s
  | .mfromv w d a => Sys2Proof.Machine.execMfromv w d a s
  | .mtov w d a => Sys2Proof.Machine.execMtov w d a s
  | .mpush w a => Sys2Proof.Machine.execMpush w a s
  | .melse w => Sys2Proof.Machine.execMelse w s
  | .mpop w => Sys2Proof.Machine.execMpop w s
  | .vld w d a m => Sys2Proof.Machine.execVld w d a m s
  | .vlds w d a b m => Sys2Proof.Machine.execVlds w d a b m s
  | .vldx w d a b m => Sys2Proof.Machine.execVldx w d a b m s
  | .vst w d a m => Sys2Proof.Machine.execVst w d a m s
  | .vsts w d a b m => Sys2Proof.Machine.execVsts w d a b m s
  | .vstx w d a b m => Sys2Proof.Machine.execVstx w d a b m s
  | .gld w d a b m => Sys2Proof.Machine.execGld w d a b m s
  | .scs w d a b m => Sys2Proof.Machine.execScs w d a b m s
  | .vamoadd w d a b m => Sys2Proof.Machine.execVamoadd w d a b m s
  | .vamoand w d a b m => Sys2Proof.Machine.execVamoand w d a b m s
  | .vamoor w d a b m => Sys2Proof.Machine.execVamoor w d a b m s
  | .vamoxor w d a b m => Sys2Proof.Machine.execVamoxor w d a b m s
  | .vamomin w d a b m => Sys2Proof.Machine.execVamomin w d a b m s
  | .vamomax w d a b m => Sys2Proof.Machine.execVamomax w d a b m s
  | .vamominn w d a b m => Sys2Proof.Machine.execVamominn w d a b m s
  | .vamomaxn w d a b m => Sys2Proof.Machine.execVamomaxn w d a b m s
  | .vamofadd w d a b m => Sys2Proof.Machine.execVamofadd w d a b m s
  | .mgang w => Sys2Proof.Machine.execMgang w s
  | .mmaVreg w sz a b k => Sys2Proof.Machine.execMmaVreg w sz a b k s
  | .mmaScratch w sz a b k => Sys2Proof.Machine.execMmaScratch w sz a b k s
  | .mmaDownconv w sz t b k => Sys2Proof.Machine.execMmaDownconv w sz t b k s
  | .mmaSlideVreg w sz a b k => Sys2Proof.Machine.execMmaSlideVreg w sz a b k s
  | .mmaSlideScratch w sz a b k => Sys2Proof.Machine.execMmaSlideScratch w sz a b k s
  | .mst w sz a b => Sys2Proof.Machine.execMst w sz a b s
  | .mwait w => Sys2Proof.Machine.execMwait w s
  | .mzero w sz => Sys2Proof.Machine.execMzero w sz s
  | .mrd w d sz b => Sys2Proof.Machine.execMrd w d sz b s
  | .mwr w sz a b => Sys2Proof.Machine.execMwr w sz a b s
  | .mcvt w d sz b => Sys2Proof.Machine.execMcvt w d sz b s
  | .sampleNear w d a b m => Sys2Proof.Machine.execSampleNear w d a b m s
  | .sampleBil w d a b m => Sys2Proof.Machine.execSampleBil w d a b m s
  | .sampleTri w d a b m => Sys2Proof.Machine.execSampleTri w d a b m s
  | .boxtest w d a b m => Sys2Proof.Machine.execBoxtest w d a b m s
  | .tritest w d a b m => Sys2Proof.Machine.execTritest w d a b m s
  | .partition w d a b m => Sys2Proof.Machine.execPartition w d a b m s
  | .marchRecord w d a b m => Sys2Proof.Machine.execMarchRecord w d a b m s
  | .marchAcc w d a b m => Sys2Proof.Machine.execMarchAcc w d a b m s
  | .marchLocate w d a b m => Sys2Proof.Machine.execMarchLocate w d a b m s
  | .qpushTile w a b n => Sys2Proof.Machine.execQpushTile w a b n s
  | .qpushBlend w a b n => Sys2Proof.Machine.execQpushBlend w a b n s
  | .qpushMesh w a b n => Sys2Proof.Machine.execQpushMesh w a b n s
  | .copy w a => Sys2Proof.Machine.execCopy w a s
  | .fill w a => Sys2Proof.Machine.execFill w a s
  | .coll w a => Sys2Proof.Machine.execColl w a s
  | .qfence w sz => Sys2Proof.Machine.execQfence w sz s
  | .qwait w d q => Sys2Proof.Machine.execQwait w d q s
  | .qstat w d q => Sys2Proof.Machine.execQstat w d q s
  | .mfs w d c => Sys2Proof.Machine.execMfs w d c s
  | .mts w a c => Sys2Proof.Machine.execMts w a c s
  | .svc w a => Sys2Proof.Machine.execSvc w a s
  | .trap w a => Sys2Proof.Machine.execTrap w a s
  | .brk w => Sys2Proof.Machine.execBrk w s
  | .yield w => Sys2Proof.Machine.execYield w s
  | .halt w => Sys2Proof.Machine.execHalt w s
  | .timewait w a => Sys2Proof.Machine.execTimewait w a s
  | .tres w d a b => Sys2Proof.Machine.execTres w d a b s
  | .ctxsave w d a b => Sys2Proof.Machine.execCtxsave w d a b s
  | .ctxload w d a b => Sys2Proof.Machine.execCtxload w d a b s
  | .tlbinvPage w a b => Sys2Proof.Machine.execTlbinvPage w a b s
  | .tlbinvPartition w a b => Sys2Proof.Machine.execTlbinvPartition w a b s
  | .slotctlHold w a b => Sys2Proof.Machine.execSlotctlHold w a b s
  | .slotctlRelease w a b => Sys2Proof.Machine.execSlotctlRelease w a b s
  | .slotctlKill w a b => Sys2Proof.Machine.execSlotctlKill w a b s
  | .slotctlDebug w a b => Sys2Proof.Machine.execSlotctlDebug w a b s
  | .slotctlPool w a b => Sys2Proof.Machine.execSlotctlPool w a b s
  | .wakepThread w a => Sys2Proof.Machine.execWakepThread w a s
  | .wakepAgent w a => Sys2Proof.Machine.execWakepAgent w a s
  | .vectorSequencerStart core => Sys2Proof.Machine.execVectorSequencerStart core s
  | .longLatencyResultLand slot n => Sys2Proof.Machine.execLongLatencyResultLand slot n s
  | .trapRecordDeferredWrite cluster => Sys2Proof.Machine.execTrapRecordDeferredWrite cluster s
  | .springDispatch cluster => Sys2Proof.Machine.execSpringDispatch cluster s
  | .gangJoinRelease quad slot => Sys2Proof.Machine.execGangJoinRelease quad slot s
  | .gangOpStart quad => Sys2Proof.Machine.execGangOpStart quad s
  | .gangKstepEnd quad => Sys2Proof.Machine.execGangKstepEnd quad s
  | .gangOpComplete quad => Sys2Proof.Machine.execGangOpComplete quad s
  | .mstDrainStart core => Sys2Proof.Machine.execMstDrainStart core s
  | .mstComplete core => Sys2Proof.Machine.execMstComplete core s
  | .leaseHomeRecord line => Sys2Proof.Machine.execLeaseHomeRecord line s
  | .leaseExpire slot => Sys2Proof.Machine.execLeaseExpire slot s
  | .vwaitPass slot => Sys2Proof.Machine.execVwaitPass slot s
  | .vwaitTimeout slot => Sys2Proof.Machine.execVwaitTimeout slot s
  | .barrierRelease bkey => Sys2Proof.Machine.execBarrierRelease bkey s
  | .timewaitEnd slot => Sys2Proof.Machine.execTimewaitEnd slot s
  | .scPerform => Sys2Proof.Machine.execScPerform s
  | .copyEngineEntry unit => Sys2Proof.Machine.execCopyEngineEntry unit s
  | .engineEntryComplete id => Sys2Proof.Machine.execEngineEntryComplete id s
  | .collMatch key => Sys2Proof.Machine.execCollMatch key s
  | .marchEntryTake cluster => Sys2Proof.Machine.execMarchEntryTake cluster s
  | .marchStep cluster id ray => Sys2Proof.Machine.execMarchStep cluster id ray s
  | .marchEntryComplete cluster id => Sys2Proof.Machine.execMarchEntryComplete cluster id s
  | .meshTri die q => Sys2Proof.Machine.execMeshTri die q s
  | .meshEnd die q => Sys2Proof.Machine.execMeshEnd die q s
  | .tileJob cluster q => Sys2Proof.Machine.execTileJob cluster q s
  | .tileMark cluster q => Sys2Proof.Machine.execTileMark cluster q s
  | .binRender cluster => Sys2Proof.Machine.execBinRender cluster s
  | .tileSpill cluster => Sys2Proof.Machine.execTileSpill cluster s
  | .fragmentWrite cluster => Sys2Proof.Machine.execFragmentWrite cluster s
  | .tileWriteback cluster tile => Sys2Proof.Machine.execTileWriteback cluster tile s
  | .blendOrdered cluster q => Sys2Proof.Machine.execBlendOrdered cluster q s
  | .blendApply cluster n => Sys2Proof.Machine.execBlendApply cluster n s
  | .blendDirect cluster q => Sys2Proof.Machine.execBlendDirect cluster q s
  | .frameDone frame => Sys2Proof.Machine.execFrameDone frame s
  | .frameUnbind frame => Sys2Proof.Machine.execFrameUnbind frame s
  | .doorbell part q value => Sys2Proof.Machine.execDoorbell part q value s
  | .packetNop part q => Sys2Proof.Machine.execPacketNop part q s
  | .packetLaunch part q => Sys2Proof.Machine.execPacketLaunch part q s
  | .packetBarrier part q => Sys2Proof.Machine.execPacketBarrier part q s
  | .packetCopy part q => Sys2Proof.Machine.execPacketCopy part q s
  | .packetSignal part q => Sys2Proof.Machine.execPacketSignal part q s
  | .packetFrame part q => Sys2Proof.Machine.execPacketFrame part q s
  | .barrierEvaluate part q => Sys2Proof.Machine.execBarrierEvaluate part q s
  | .launchDispatch part => Sys2Proof.Machine.execLaunchDispatch part s
  | .launchComplete launch => Sys2Proof.Machine.execLaunchComplete launch s
  | .preemption part => Sys2Proof.Machine.execPreemption part s
  | .queueReset part q => Sys2Proof.Machine.execQueueReset part q s
  | .engineReset part kind unit => Sys2Proof.Machine.execEngineReset part kind unit s
  | .resetPartition part => Sys2Proof.Machine.execResetPartition part s
  | .resetDie die => Sys2Proof.Machine.execResetDie die s
  | .dieResetReturn die => Sys2Proof.Machine.execDieResetReturn die s
  | .resetFunction wipe => Sys2Proof.Machine.execResetFunction wipe s
  | .resetDevice => Sys2Proof.Machine.execResetDevice s
  | .powerUp => Sys2Proof.Machine.execPowerUp s
  | .seal => Sys2Proof.Machine.execSeal s
  | .sealComplete => Sys2Proof.Machine.execSealComplete s
  | .restore => Sys2Proof.Machine.execRestore s
  | .thermalTrip => Sys2Proof.Machine.execThermalTrip s
  | .powerLimitThrottle => Sys2Proof.Machine.execPowerLimitThrottle s
  | .mboxReport => Sys2Proof.Machine.execMboxReport s
  | .mboxCert => Sys2Proof.Machine.execMboxCert s
  | .mboxLifecycle => Sys2Proof.Machine.execMboxLifecycle s
  | .mboxLoadspring => Sys2Proof.Machine.execMboxLoadspring s
  | .mboxKeyxfer => Sys2Proof.Machine.execMboxKeyxfer s
  | .mboxKeyrecv => Sys2Proof.Machine.execMboxKeyrecv s
  | .codeLoad part handle => Sys2Proof.Machine.execCodeLoad part handle s
  | .codeUnload part handle => Sys2Proof.Machine.execCodeUnload part handle s
  | .codeUnloadForce part handle => Sys2Proof.Machine.execCodeUnloadForce part handle s
  | .registerWrite off n value => Sys2Proof.Machine.execRegisterWrite off n value s
  | .hostBar2Access fn off n data => Sys2Proof.Machine.execHostBar2Access fn off n data s
  | .tarnLaneFail link => Sys2Proof.Machine.execTarnLaneFail link s
  | .podTimeSync time => Sys2Proof.Machine.execPodTimeSync time s
  | .hotnessEpochEnd => Sys2Proof.Machine.execHotnessEpochEnd s
  | .patrolScrub addr => Sys2Proof.Machine.execPatrolScrub addr s
  | .illegalInstructionWord word => Sys2Proof.Machine.execIllegalInstructionWord word s
  | .instructionFetchFault => Sys2Proof.Machine.execInstructionFetchFault s
  | .accessPerformed core => Sys2Proof.Machine.execAccessPerformed core s
  | .strmLineEviction core line => Sys2Proof.Machine.execStrmLineEviction core line s
  | .mixtrapRecordDrop line => Sys2Proof.Machine.execMixtrapRecordDrop line s
  | .softError kind loc fatal => Sys2Proof.Machine.execSoftError kind loc fatal s
  | .accessFromAnotherPackage addr n data => Sys2Proof.Machine.execAccessFromAnotherPackage addr n data s
  | .tarnLinkLoss link => Sys2Proof.Machine.execTarnLinkLoss link s
  | .tarnLinkTraining link farPkg => Sys2Proof.Machine.execTarnLinkTraining link farPkg s

end Sys2Proof.Machine
end

