-- ==== Sys2Proof/Machine/Schedule.lean ====
section
/-! DEFINITION. The steps of the agents that a state may call for. When the agenda is empty, `step` takes the first of them
that changes the state; an agenda puts them in any other order. -/
namespace Sys2Proof.Machine

/-- The step that a posted request asks for (R353). -/
noncomputable def Req.event (s : State) : Req → Instr
  | .doorbell p q v => .doorbell p q v
  | .qreset p q => .queueReset p q
  | .ereset p k u => .engineReset p k u
  | .rung n t w => if n = 3 then .resetPartition t else if n = 4 then .resetDie t else if n = 5 then .resetFunction w else .resetDevice
  | .startSeal => .seal
  | .restore => .restore
  | .mailbox =>
    match s.dev.mbox.toNat % 256 with
    | 1 => .mboxCert
    | 2 => .mboxLifecycle
    | 3 => .mboxLoadspring
    | 4 => .mboxKeyxfer
    | 5 => .mboxKeyrecv
    | _ => .mboxReport
  | .code p v =>
    let h := bitsOf v.toNat 0 10
    if bitsOf v.toNat 32 4 = 1 then (if bitAt v.toNat 36 then .codeUnloadForce p h else .codeUnload p h) else .codeLoad p h

/-- The steps of a slot's thread beside its turns. -/
noncomputable def threadEvents (k : Nat) (t : Thread) : List Instr :=
  (match t.st with
   | .waiting (.vwait _ _ _ _ _ _ _ _ _) => [.vwaitPass k, .vwaitTimeout k]
   | .waiting (.barrier b) => [.barrierRelease b]
   | .waiting .lease => (t.lease.map (fun l => l.todo.map Instr.leaseHomeRecord)).getD []
   | .waiting .gang => [.gangJoinRelease (quadOfCore (coreOf k)) (slotOf k)]
   | _ => []) ++
  (match t.lease with
   | some l => .leaseExpire k :: l.lines.map Instr.leaseHomeRecord
   | none => []) ++
  (if t.timewait.isSome then [.timewaitEnd k] else []) ++ (if t.vq.isEmpty then [] else [.vectorSequencerStart (coreOf k)])

/-- The steps that an engine queue entry calls for. -/
noncomputable def entryEvents (e : Entry) : List Instr :=
  if e.finished then [.engineEntryComplete e.id]
  else match e.job with
    | .copy _ _ _ => [.copyEngineEntry (clusterOf e.slot)]
    | .fill _ _ _ => [.copyEngineEntry (clusterOf e.slot)]
    | .coll key _ _ _ _ _ _ _ => [.collMatch (BitVec.ofNat 64 key)]
    | .march m =>
      if m.taken then (m.rays.filter (fun r => r.out.isNone)).map (fun r => .marchStep (clusterOf e.slot) e.id r.idx) ++
        [.marchEntryComplete (clusterOf e.slot) e.id]
      else [.marchEntryTake (clusterOf e.slot)]
    | .push => []
    | .mst _ _ _ core _ started => [if started then .mstComplete core else .mstDrainStart core]

/-- The steps of a frame's agents. -/
noncomputable def frameEvents (s : State) (fid : Nat) (f : Frame) : List Instr :=
  let mq := f.fld 0xF 1
  let tq := f.fld 0x2C 1
  let bq := f.fld 0x2D 1
  [.meshTri f.die mq, .meshEnd f.die mq] ++
  f.clusters.flatMap (fun c =>
    let u := s.tile c
    [.fragmentWrite c, .blendOrdered c bq] ++ (List.range u.frags.length).map (Instr.blendApply c) ++
      (List.range u.tiles.length).map (Instr.tileWriteback c) ++
      [.blendDirect c bq, .tileJob c tq, .tileMark c tq, .binRender c, .tileSpill c]) ++
  [.frameDone fid, .frameUnbind fid]

/-- The steps of a partition's queues and launches. -/
noncomputable def partEvents (p : Nat) (x : Partition) : List Instr :=
  (x.queues.flatMap (fun e =>
    if e.2.state = 0 then []
    else [.barrierEvaluate p e.1, .packetNop p e.1, .packetLaunch p e.1, .packetBarrier p e.1, .packetCopy p e.1, .packetSignal p e.1,
          .packetFrame p e.1])) ++ [.launchDispatch p, .preemption p]

/-- The steps of agents that a state may call for. -/
noncomputable def State.agentEvents (s : State) : List Instr :=
  s.reqs.map (Req.event s) ++ (if s.dev.sealing then [.sealComplete] else []) ++ (if s.dev.stage = 6 then [.powerUp] else []) ++
  (s.dies.filter (fun e => e.2.inReset)).map (fun e => .dieResetReturn e.1) ++ (if s.scq.isEmpty then [] else [.scPerform]) ++
  (s.amoq.filter s.amoReady).map (fun r => .accessPerformed r.core) ++ s.threads.flatMap (fun e => threadEvents e.1 e.2) ++
  s.quads.flatMap (fun e => [.gangOpStart e.1, .gangKstepEnd e.1, .gangOpComplete e.1]) ++
  s.entries.flatMap entryEvents ++
  s.clusters.flatMap (fun e => [.trapRecordDeferredWrite e.1, .springDispatch e.1]) ++
  s.frames.flatMap (fun e => frameEvents s e.1 e.2) ++
  s.launches.flatMap (fun e => if e.2.done then [] else [.launchComplete e.1]) ++
  s.parts.flatMap (fun e => partEvents e.1 e.2) ++
  (if !s.hotOut.isEmpty || s.hotness.any (fun e => e.epoch != epochAt s.clk) then [.hotnessEpochEnd] else [])

/-- The landings of pending results. -/
noncomputable def State.landEvents (s : State) : List Instr :=
  s.threads.flatMap (fun e => (List.range e.2.pend.length).map (Instr.longLatencyResultLand e.1))

/-- The steps left when no slot may issue: results land, and dirty STRM lines go home. -/
noncomputable def State.idleEvents (s : State) : List Instr :=
  s.landEvents ++ s.cores.flatMap (fun e => if e.2.strm.isEmpty then [] else [.accessPerformed e.1])

end Sys2Proof.Machine
end

