-- ==== Sys2Proof/Machine/Step.lean ====
section
/-! DEFINITION. One step of the package: the next move of the agenda, or, when the agenda is empty, a step of an agent, and
where none has one, the next turn of the barrel (R10). A turn fetches the instruction at the thread's PC (R103), decodes it and runs it. `step` is marked
noncomputable because the decoder is (see Decode.lean). -/
namespace Sys2Proof.Machine

/-- Runs the instruction at the current thread's PC. -/
noncomputable def fetchAndRun (s : State) : Host.Outcome State Fault Refusal :=
  match s.fetchWords s.cur with
  | .error _ => exec .instructionFetchFault s
  | .ok (x, p) =>
    match decodeWord x p with
    | .ok i => exec i s
    | .error _ => exec (.illegalInstructionWord x) s

/-- The turn of a slot (R10): idle when the slot has no thread that may issue. -/
noncomputable def issueTurn (s : State) (k : Nat) : Host.Outcome State Fault Refusal :=
  if s.mayIssue k then fetchAndRun (s.takeTurn k) else .next (s.passTurn k)

/-- The first of a list of steps that changes the state. -/
noncomputable def firstMove (s : State) (es : List Instr) : Option State :=
  es.findSome? (fun i => match exec i s with
    | .next s' => if s' = s then none else some s'
    | _ => none)

/-- A step of one of a list, or one clk where none of them changes the state. -/
noncomputable def moveOrTick (s : State) (es : List Instr) : State := (firstMove s es).getD { s with clk := s.clk + 1 }

/-- A step with an empty agenda: a step of an agent, then the turn of a slot whose clk has come, and between turns a landing
or one clk. -/
noncomputable def freeStep (s : State) : Host.Outcome State Fault Refusal :=
  match firstMove s s.agentEvents with
  | some s' => .next s'
  | none =>
    match s.nextTurn with
    | some k => if s.turnOf k ≤ s.clk then issueTurn s k else .next (moveOrTick s s.landEvents)
    | none => .next (moveOrTick s s.idleEvents)

/-- One step before the upkeep of the code tables. -/
noncomputable def stepMove (s : State) : Host.Outcome State Fault Refusal :=
  match s.agenda with
  | .event i :: rest => exec i { s with agenda := rest }
  | .issue k :: rest => issueTurn { s with agenda := rest } k
  | .coll r :: rest => .next { s with agenda := rest, remote := s.remote ++ [r] }
  | .tick n :: rest => .next { s with agenda := rest, clk := s.clk + n }
  | [] => freeStep s

/-- One step. -/
noncomputable def step (s : State) : Host.Outcome State Fault Refusal :=
  match stepMove s with
  | .next s' => .next s'.codeUpkeep
  | o => o

/-- The address at which `State.withFetchWord` places an instruction. -/
def fetchVa : Nat := 0x10000

/-- A launch of one thread in slot 0 of core 0, as LAUNCH_DISPATCH leaves it (R344), with the formats that a kernel has by
default (R77). -/
def oneThreadLaunch : Launch :=
  { part := 0, num := 0, queue := 0, index := 0, prio := 0, code := 0, S := 1, C := 1, Q := 1, K := 1, gang := false,
    budget := 8, scr := 0, cm := 0, ds := 0, scrBase := [], dsBase := [], place := [(0, 0)], start := 0x10000, args := 0,
    shadow := [0x0D, 0x0D, 0x0A, 0, 0], base0 := false, spill := false, stands := [], halted := [], killed := [], preempted := false, gone := [], saved := [], errs := [],
    frames := [], outcome := none, done := false, cores := [], codeMem := [] }

/-- The state with an instruction placed as the next one: a user thread of partition 0 runs in slot 0 of core 0 with its
PC at the instruction's bytes, the partition's table root maps them, and it is that slot's turn. It stands for the load
of Spring firmware, the loading of code and the dispatch of a launch, by which a program comes to run. -/
def State.withFetchWord (s : State) (nbits w : Nat) : State :=
  let m0 := memPut (memPut (memPut s.mem 0x1000 8 0x2001) 0x2000 8 0x3001) 0x3000 8 0x97
  let m := memPut m0 fetchVa 8 (w % 2 ^ nbits)
  let p := { s.part 0 with uroot := 0x1001, uEff := 0x1001, state := 1 }
  let t := { Thread.empty with
    st := .running, launch := some s.uid, pc := BitVec.ofNat 64 fetchVa, ready := s.clk, fmtA := 0x0D, fmtB := 0x0D, fmtC := 0x0A }
  { (s.setThread 0 t).setPart 0 p with
    mem := m, cur := 0, agenda := [.issue 0], launches := s.launches.set s.uid { oneThreadLaunch with codeMem := m }, uid := s.uid + 1 }

end Sys2Proof.Machine
end

