-- ==== Sys2Proof/Safety.lean ====
section
/-! DEFINITION. The terms that statements about the machine use: the well-formed state, the conditions under which an
instruction executes normally, and what it leaves unchanged. -/
namespace Sys2Proof.Machine

/-- Storage keeps its canonical form. -/
def State.Ok (s : State) : Prop := Memory.wf s.mem = true

/-- The writes of h registers that a core keeps are in the order of their clk, none later than clk `now` (R20). -/
def Core.InOrder (c : Core) (now : Nat) : Prop :=
  c.hw.Pairwise (fun a b => a.clk ≤ b.clk) ∧ ∀ e ∈ c.hw, e.clk ≤ now

/-! ## When an instruction issues -/

/-- The state after the W marker has been honoured (R22). -/
def State.afterW (s : State) (w : Bool) : State := if w then s.landAll s.cur else s

/-- A scalar operand is readable: nothing is pending for it (R23), and it is not poisoned (R281). g0 always is. -/
def State.readable (s : State) (r : Nat) : Prop :=
  r = 0 ∨ (r ∉ s.thr.poison ∧ pendingOf s.thr.pend r = none ∧ pendingOf s.thr.pend (codePoison + r) = none)

/-- The instruction's W marker is satisfied (R22), and the registers it reads are readable. -/
def State.Ready (s : State) (w : Bool) (rs : List Nat) : Prop :=
  (w = true → (s.afterW w).thr.pend = []) ∧ ∀ r ∈ rs, (s.afterW w).readable r

/-- No write of a scalar register is pending (R23); a store's data may be poisoned (R281). -/
def State.unpending (s : State) (r : Nat) : Prop := r = 0 ∨ pendingOf s.thr.pend r = none

/-- c.vl and c.vstart have no pending write (R23). -/
def State.vectorReady (s : State) : Prop :=
  pendingOf s.thr.pend codeVl = none ∧ pendingOf s.thr.pend codeVstart = none

/-! ## Accesses to storage -/

/-- An access of the current slot passes the checks of R97 with nothing holding it back, and, where it is ordered, the
mixed-size check of R254; `sp` are its parts. -/
def State.Admits (s : State) (need : Need) (o : Order) (va n : Nat) (sp : List Span) : Prop :=
  checkAccess s need o va n = .ok sp ∧
    (o.isRelaxed = false → s.thr.dbg.getLsbD 1 = true → ∀ p, sp.head? = some p → s.mixes p.pa n = false)

/-- What an atomic of parts `sp` does before its effect: the release part of its order (R250) and the hotness counters (R277). -/
def State.noted (s : State) (o : Order) (sp : List Span) : State := (s.before o).countHome s.cur .unit sp

/-- An atomic of the current slot passes the checks of R164 with nothing holding it back; inside its lease region it touches a leased
line (R173), and unless its lease holds that line it finds a free entry of the lease table (R165, R172); its one part is `p`, which
holds no poison (R281), and the mixed-size check is quiet. -/
def State.AdmitsAmo (s : State) (o : Order) (va n : Nat) (p : Span) : Prop :=
  checkAtomic s va n = .ok [p] ∧
    ((s.ownLease s.cur p.pa).isSome = true ∨ s.thr.region = none) ∧
    (s.ownLease s.cur p.pa = some true ∨ s.leaseRoom (coreOf s.cur) 1 = true) ∧
    (s.ownLease s.cur p.pa = some true ∨
      (s.thr.memQueued = false ∧ s.portHeld s.cur = false ∧ (o.rel && s.releaseHeld (coreOf s.cur) o.scope) = false)) ∧
    s.badWord s.cur p.pa p.n = none ∧ (s.thr.dbg.getLsbD 1 = true → s.mixes p.pa n = false)

/-! ## Traps of an instruction -/

/-- What a trap of the current slot's instruction does in the state `t` that it has reached: it is taken once the vector
instructions before it have run, and until then the turn, which began in `s`, passes idle (R227). -/
def State.trapAfter (s t : State) (cause : Nat) (tval : Word) : Host.Outcome State Fault Refusal :=
  .next (if t.thr.vq = [] then t.takeTrap t.cur cause tval none 0 else s)

/-- The same of a park (R275). -/
def State.parkAfter (s t : State) (va : Nat) : Host.Outcome State Fault Refusal :=
  .next (if t.thr.vq = [] then t.takePark t.cur va else s)

/-! ## Vector instructions -/

/-- The W marker is satisfied, the scalar registers are readable, nothing is pending for c.vl, c.vstart, a vector or a mask
register, and the vector unit takes the instruction at once (R104, R345). -/
def State.VecReady (s : State) (w : Bool) (rs : List Nat) : Prop :=
  s.Ready w rs ∧ (s.afterW w).vectorReady ∧ (∀ p ∈ (s.afterW w).thr.pend, p.isVec = false) ∧ (s.afterW w).startsNow = true

/-- The elements of width `w` in a group of `elems` that are active under mask `m`, from c.vstart to c.vl (R17). -/
def State.active (t : State) (m w elems : Nat) : List Nat :=
  t.thr.actives m w elems t.thr.vl.toNat t.thr.vstart.toNat

/-- Neither the mask nor an element that is read lies in a poisoned word (R281). -/
def State.Sound (t : State) (m elems : Nat) (reads : List ERead) : Prop :=
  t.thr.maskPoisoned m elems t.thr.vl.toNat t.thr.vstart.toNat = false ∧
    ∀ e ∈ reads, t.thr.elemPoisoned e.r e.i e.w = false

/-- The table of R116 at width `n`: fn7, whether v[d] is read, and the result from the patterns of v[a], v[b] and v[d]. -/
def vecIntTable (n : Nat) : List (BitVec 6 × Bool × (Nat → Nat → Nat → Nat)) :=
  let sg (x : Nat) : Int := signedOf x n
  let tr (z : Int) : Nat := truncInt z n
  let top : Int := (2 ^ (n - 1) : Nat)
  let most : Int := (2 ^ n : Nat)
  [(0x00, false, fun x y _ => (x + y) % 2 ^ n),
   (0x01, false, fun x y _ => tr (x - y)),
   (0x02, false, fun x y _ => x * y % 2 ^ n),
   (0x03, false, fun x y _ => tr (sg x * sg y / most)),
   (0x04, false, fun x y _ => x * y / 2 ^ n),
   (0x05, true, fun x y z => (x * y + z) % 2 ^ n),
   (0x06, false, fun x y _ => if y = 0 then 2 ^ n - 1 else tr ((sg x).tdiv (sg y))),
   (0x07, false, fun x y _ => if y = 0 then 2 ^ n - 1 else x / y),
   (0x08, false, fun x y _ => if y = 0 then x else tr (sg x - sg y * (sg x).tdiv (sg y))),
   (0x09, false, fun x y _ => if y = 0 then x else x % y),
   (0x0A, false, fun x y _ => x &&& y),
   (0x0B, false, fun x y _ => x ||| y),
   (0x0C, false, fun x y _ => x ^^^ y),
   (0x0D, false, fun x y _ => x * 2 ^ (y % n) % 2 ^ n),
   (0x0E, false, fun x y _ => x / 2 ^ (y % n)),
   (0x0F, false, fun x y _ => tr (sg x / (2 ^ (y % n) : Nat))),
   (0x10, false, fun x y _ => if sg x ≤ sg y then x else y),
   (0x11, false, fun x y _ => if sg x ≤ sg y then y else x),
   (0x12, false, fun x y _ => min x y),
   (0x13, false, fun x y _ => max x y),
   (0x14, false, fun x y _ => tr (max (-top) (min (sg x + sg y) (top - 1)))),
   (0x15, false, fun x y _ => min (x + y) (2 ^ n - 1)),
   (0x16, false, fun x y _ => tr (max (-top) (min (sg x - sg y) (top - 1)))),
   (0x17, false, fun x y _ => x - y)]

/-- The table of R117 at width `n`: fn7 and the relation. -/
def vecCmpTable (n : Nat) : List (BitVec 6 × (Nat → Nat → Bool)) :=
  let sg (x : Nat) : Int := signedOf x n
  [(0x20, fun x y => x = y), (0x21, fun x y => x ≠ y), (0x22, fun x y => sg x < sg y), (0x23, fun x y => sg y ≤ sg x),
   (0x24, fun x y => x < y), (0x25, fun x y => y ≤ x)]

/-- The table of R119 for format `f` under a rounding mode: fn7, whether v[d] is read, and the result with its flags, rounded
once from the exact value of the operation. -/
def vecFltTable (f : Fp) (mode : RMode) : List (BitVec 6 × Bool × (Nat → Nat → Nat → Nat × Flags)) :=
  let v (x : Nat) : Val := decodeFp f x
  let r (e : Val × Flags) : Nat × Flags := ((roundTo f mode e.1).1, e.2 ||| (roundTo f mode e.1).2)
  let dn : Bool := mode == .rdn
  [(0x00, false, fun x y _ => r (Val.add dn (v x) (v y))),
   (0x01, false, fun x y _ => r (Val.add dn (v x) (v y).negate)),
   (0x02, false, fun x y _ => r (Val.mul (v x) (v y))),
   (0x03, false, fun x y _ => r (Val.div (v x) (v y))),
   (0x04, true, fun x y z => r (Val.fma dn (v x) (v y) (v z))),
   (0x05, true, fun x y z => r (Val.fma dn (v x) (v y) (v z).negate)),
   (0x06, true, fun x y z => r (Val.fma dn (v x).negate (v y) (v z))),
   (0x07, false, fun x y _ => ((roundTo f .rne (Val.min2 (v x) (v y))).1, 0)),
   (0x08, false, fun x y _ => ((roundTo f .rne (Val.max2 (v x) (v y))).1, 0)),
   (0x09, false, fun x y _ =>
     (if v x = .nan then f.canonNan else x % 2 ^ (f.width - 1) + y / 2 ^ (f.width - 1) * 2 ^ (f.width - 1), 0)),
   (0x0A, false, fun x y _ =>
     (if v x = .nan then f.canonNan else x % 2 ^ (f.width - 1) + (1 - y / 2 ^ (f.width - 1)) * 2 ^ (f.width - 1), 0))]

/-- The unary rows of the table of R119, by fn7. -/
def vecUnaryTable (f : Fp) (mode : RMode) : List (BitVec 6 × (Nat → Nat × Flags)) :=
  let v (x : Nat) : Val := decodeFp f x
  let r (e : Val × Flags) : Nat × Flags := ((roundTo f mode e.1).1, e.2 ||| (roundTo f mode e.1).2)
  [(0x10, fun x => r (v x).sqrt), (0x11, fun x => r (v x).recip), (0x12, fun x => r (v x).rsqrt), (0x13, fun x => r (v x).exp2),
   (0x14, fun x => r (v x).log2),
   (0x15, fun x => (if v x = .nan then f.canonNan else x % 2 ^ (f.width - 1), 0)),
   (0x16, fun x => (if v x = .nan then f.canonNan else (x + 2 ^ (f.width - 1)) % 2 ^ f.width, 0))]

/-- The table of R121 for format `f`: fn7, the relation and its flags. -/
def vecCmpFltTable (f : Fp) : List (BitVec 6 × (Nat → Nat → Bool × Flags)) :=
  let v (x : Nat) : Val := decodeFp f x
  let un (x y : Nat) : Bool := v x = .nan || v y = .nan
  let nv (x y : Nat) : Flags := if un x y then flagNV else 0
  [(0x20, fun x y => (Val.eqv (v x) (v y), 0)), (0x21, fun x y => (Val.lt (v x) (v y), nv x y)),
   (0x22, fun x y => (Val.lt (v x) (v y) || Val.eqv (v x) (v y), nv x y)), (0x23, fun x y => (un x y, 0))]

/-- What is the same after an instruction whose one result goes to g[d]: every other register and part of its own thread, every
other thread, and every byte of storage (R12, R101). The program counter may change, and so may what is pending or poisoned
for g[d]. -/
structure State.OnlyG (t u : State) (d : Nat) : Prop where
  state : u = { t with threads := u.threads }
  others : ∀ k, k ≠ t.cur → u.thread k = t.thread k
  regs : ∀ r, r ≠ d → u.thr.getG r = t.thr.getG r
  thread : u.thr = { t.thr with g := u.thr.g, pc := u.thr.pc, pend := u.thr.pend, poison := u.thr.poison }
  pending : ∀ r, r ≠ d → 0 < r → r < codePoison → pendingOf u.thr.pend r = pendingOf t.thr.pend r
  bytes : ∀ a, memByte u.mem a = memByte t.mem a

/-- What is the same after a vector instruction that writes registers of its own thread: every other thread, storage and
every other part of the machine but the dies' error logs, which change only where poison is met (R282), and the vector unit of
the thread's core, which it takes for some clk (R109, R345). -/
structure State.SameBut (t u : State) : Prop where
  state : u = { t with threads := u.threads, dies := u.dies, cores := u.cores }
  unit : ∃ n, 0 < n ∧ u.cores = (t.occupy n).cores
  others : ∀ k, k ≠ t.cur → u.thread k = t.thread k
  dies : t.thr.poison = [] → u.dies = t.dies

/-- An instruction that goes on after it has written elements of width `w` of the group at v[d], `val` giving the pattern
for each element it writes, with the flags `f` (R107): the other elements, the other registers and the tags stay, c.vstart
becomes 0, and no register becomes poisoned. -/
structure State.Wrote (t u : State) (d w : Nat) (f : Flags) (val : Nat → Option Nat) : Prop extends t.SameBut u where
  elem : ∀ i, u.thr.elem d i w = (val i).getD (t.thr.elem d i w)
  other : ∀ r, (∀ i, (val i).isSome → r ≠ d + i * w / 1024) → u.thr.getV r = t.thr.getV r
  tag : ∀ r, (u.thr.getV r).fmt = (t.thr.getV r).fmt ∧ (u.thr.getV r).grp = (t.thr.getV r).grp
  clean : ∀ p ∈ u.thr.poison, p ∈ t.thr.poison
  thread : u.thr = { t.thr with
    v := u.thr.v, poison := u.thr.poison, pc := t.thr.pc + 4, vstart := 0, pend := t.thr.pend.map (Pend.drop codeVstart),
    fflags := t.thr.fflags ||| BitVec.ofNat 5 f }

/-- An instruction that goes on after it has written mask m[d] in BITS form, with the flags `f` (R117). -/
structure State.WroteMask (t u : State) (d : Nat) (f : Flags) (bits : Nat → Bool) : Prop extends t.SameBut u where
  form : (u.thr.getM d).bound = false
  bit : ∀ i < 1024, (u.thr.getM d).bits.getLsbD i = bits i
  other : ∀ r, r ≠ d → u.thr.getM r = t.thr.getM r
  clean : ∀ p ∈ u.thr.poison, p ∈ t.thr.poison
  thread : u.thr = { t.thr with
    m := u.thr.m, poison := u.thr.poison, pc := t.thr.pc + 4, vstart := 0, pend := t.thr.pend.map (Pend.drop codeVstart),
    fflags := t.thr.fflags ||| BitVec.ofNat 5 f }

end Sys2Proof.Machine
end

