-- ==== Sys2Proof/Certificates/Slice0/Obligations.lean ====
section
/-! DEFINITION. The statements for the provers. -/
open Sys2Proof Sys2Proof.Machine

/-! ## Scalar instructions -/

/-- R12: g0 reads 0 and a write to it is discarded; a write to another register changes that register
alone. The instructions whose results are not long-latency write them so, and the next issue of the thread can read them. -/
def Obligations.GeneralRegisterWrite : Prop :=
  ∀ (t : Thread) (d : Nat) (v : Word),
    t.getG 0 = 0 ∧ t.setG 0 v = t ∧ (d ≠ 0 → (t.setG d v).getG d = v) ∧ (∀ r, r ≠ d → (t.setG d v).getG r = t.getG r) ∧
    ∀ s : State, s.thr = t → (s.setG d v).Ready false [d] ∧ (s.setG d v).thr = t.setG d v

/-- R86: the register–register operations, as the table of R86 gives g[d]. -/
def Statement.AluResults : Prop :=
  ∀ (s : State) (w : Bool) (d a b : BitVec 5), s.Ready w [a.toNat, b.toNat] →
    let t := s.afterW w
    let x := t.thr.getG a.toNat
    let y := t.thr.getG b.toNat
    let xl : BitVec 32 := x.truncate 32
    let put (v : Word) : Host.Outcome State Fault Refusal := .next ((t.setG d.toNat v).advance 4)
    exec (.add w d a b) s = put (BitVec.ofNat 64 (x.toNat + y.toNat)) ∧
    exec (.sub w d a b) s = put (BitVec.ofInt 64 (x.toNat - y.toNat)) ∧
    exec (.and w d a b) s = put (x &&& y) ∧
    exec (.or w d a b) s = put (x ||| y) ∧
    exec (.xor w d a b) s = put (x ^^^ y) ∧
    exec (.sll w d a b) s = put (BitVec.ofNat 64 (x.toNat * 2 ^ (y.toNat % 64))) ∧
    exec (.srl w d a b) s = put (BitVec.ofNat 64 (x.toNat / 2 ^ (y.toNat % 64))) ∧
    exec (.sra w d a b) s = put (BitVec.ofInt 64 (x.toInt / 2 ^ (y.toNat % 64))) ∧
    exec (.slt w d a b) s = put (if x.toInt < y.toInt then 1 else 0) ∧
    exec (.sltn w d a b) s = put (if x.toNat < y.toNat then 1 else 0) ∧
    exec (.min w d a b) s = put (BitVec.ofInt 64 (min x.toInt y.toInt)) ∧
    exec (.max w d a b) s = put (BitVec.ofInt 64 (max x.toInt y.toInt)) ∧
    exec (.minn w d a b) s = put (BitVec.ofNat 64 (min x.toNat y.toNat)) ∧
    exec (.maxn w d a b) s = put (BitVec.ofNat 64 (max x.toNat y.toNat)) ∧
    exec (.addw w d a b) s = put ((BitVec.ofNat 32 (x.toNat + y.toNat)).signExtend 64) ∧
    exec (.subw w d a b) s = put ((BitVec.ofInt 32 (x.toNat - y.toNat)).signExtend 64) ∧
    exec (.sllw w d a b) s = put ((BitVec.ofNat 32 (xl.toNat * 2 ^ (y.toNat % 32))).signExtend 64) ∧
    exec (.srlw w d a b) s = put ((BitVec.ofNat 32 (xl.toNat / 2 ^ (y.toNat % 32))).signExtend 64) ∧
    exec (.sraw w d a b) s = put ((BitVec.ofInt 32 (xl.toInt / 2 ^ (y.toNat % 32))).signExtend 64)

/-- R89 to R91: the immediate, shift-immediate and upper-immediate operations. -/
def Statement.ImmediateResults : Prop :=
  ∀ (s : State) (w : Bool) (d a : BitVec 5) (i : BitVec 15) (sh : BitVec 6) (sw : BitVec 5) (u : BitVec 20) (p : BitVec 32),
    s.Ready w [a.toNat] →
    let t := s.afterW w
    let x := t.thr.getG a.toNat
    let xl : BitVec 32 := x.truncate 32
    let pc := t.thr.pc
    let put (n : Nat) (v : Word) : Host.Outcome State Fault Refusal := .next ((t.setG d.toNat v).advance n)
    exec (.addi w d a i) s = put 4 (BitVec.ofInt 64 (x.toNat + i.toInt)) ∧
    exec (.andi w d a i) s = put 4 (x &&& BitVec.ofInt 64 i.toInt) ∧
    exec (.ori w d a i) s = put 4 (x ||| BitVec.ofInt 64 i.toInt) ∧
    exec (.xori w d a i) s = put 4 (x ^^^ BitVec.ofInt 64 i.toInt) ∧
    exec (.slti w d a i) s = put 4 (if x.toInt < i.toInt then 1 else 0) ∧
    exec (.sltni w d a i) s = put 4 (if x.toNat < (BitVec.ofInt 64 i.toInt).toNat then 1 else 0) ∧
    exec (.addiL w d a p) s = put 8 (BitVec.ofInt 64 (x.toNat + p.toInt)) ∧
    exec (.slli w d a sh) s = put 4 (BitVec.ofNat 64 (x.toNat * 2 ^ sh.toNat)) ∧
    exec (.srli w d a sh) s = put 4 (BitVec.ofNat 64 (x.toNat / 2 ^ sh.toNat)) ∧
    exec (.srai w d a sh) s = put 4 (BitVec.ofInt 64 (x.toInt / 2 ^ sh.toNat)) ∧
    exec (.slliw w d a sw) s = put 4 ((BitVec.ofNat 32 (xl.toNat * 2 ^ sw.toNat)).signExtend 64) ∧
    exec (.srliw w d a sw) s = put 4 ((BitVec.ofNat 32 (xl.toNat / 2 ^ sw.toNat)).signExtend 64) ∧
    exec (.sraiw w d a sw) s = put 4 ((BitVec.ofInt 32 (xl.toInt / 2 ^ sw.toNat)).signExtend 64) ∧
    exec (.rori w d a sh) s =
      put 4 (BitVec.ofNat 64 (x.toNat / 2 ^ sh.toNat) ||| BitVec.ofNat 64 (x.toNat * 2 ^ (64 - sh.toNat))) ∧
    exec (.lui w d u) s = put 4 (BitVec.ofInt 64 (u.toInt * 4096)) ∧
    exec (.addpc w d u) s = put 4 (BitVec.ofInt 64 (pc.toNat + 4 * u.toInt)) ∧
    exec (.addpcL w d p) s = put 8 (BitVec.ofInt 64 (pc.toNat + p.toInt))

/-- R92: multiplication and division, with Lean's `tdiv` as the quotient truncated toward zero. -/
def Statement.MulDivResults : Prop :=
  ∀ (s : State) (w : Bool) (d a b : BitVec 5), s.Ready w [a.toNat, b.toNat] →
    let t := s.afterW w
    let x := t.thr.getG a.toNat
    let y := t.thr.getG b.toNat
    let xl : BitVec 32 := x.truncate 32
    let yl : BitVec 32 := y.truncate 32
    let put (v : Word) : Host.Outcome State Fault Refusal := .next ((t.setG d.toNat v).advance 4)
    exec (.mul w d a b) s = put (BitVec.ofNat 64 (x.toNat * y.toNat)) ∧
    exec (.mulh w d a b) s = put (BitVec.ofInt 64 (x.toInt * y.toInt / 2 ^ 64)) ∧
    exec (.mulhn w d a b) s = put (BitVec.ofNat 64 (x.toNat * y.toNat / 2 ^ 64)) ∧
    exec (.mulhsn w d a b) s = put (BitVec.ofInt 64 (x.toInt * y.toNat / 2 ^ 64)) ∧
    exec (.div w d a b) s = put (if y = 0 then -1 else BitVec.ofInt 64 (x.toInt.tdiv y.toInt)) ∧
    exec (.divn w d a b) s = put (if y = 0 then -1 else BitVec.ofNat 64 (x.toNat / y.toNat)) ∧
    exec (.rem w d a b) s = put (if y = 0 then x else BitVec.ofInt 64 (x.toInt - y.toInt * x.toInt.tdiv y.toInt)) ∧
    exec (.remn w d a b) s = put (if y = 0 then x else BitVec.ofNat 64 (x.toNat % y.toNat)) ∧
    exec (.mulw w d a b) s = put ((BitVec.ofNat 32 (x.toNat * y.toNat)).signExtend 64) ∧
    exec (.divw w d a b) s = put (if yl = 0 then -1 else (BitVec.ofInt 32 (xl.toInt.tdiv yl.toInt)).signExtend 64) ∧
    exec (.divnw w d a b) s = put (if yl = 0 then -1 else (BitVec.ofNat 32 (xl.toNat / yl.toNat)).signExtend 64) ∧
    exec (.remw w d a b) s =
      put (if yl = 0 then xl.signExtend 64
        else (BitVec.ofInt 32 (xl.toInt - yl.toInt * xl.toInt.tdiv yl.toInt)).signExtend 64) ∧
    exec (.remnw w d a b) s =
      put (if yl = 0 then xl.signExtend 64 else (BitVec.ofNat 32 (xl.toNat % yl.toNat)).signExtend 64)

/-- R93: the bit operations, each by the bits of its result. -/
def Statement.BitOpResults : Prop :=
  ∀ (s : State) (w : Bool) (d a b : BitVec 5), s.Ready w [a.toNat, b.toNat] →
    let t := s.afterW w
    let x := t.thr.getG a.toNat
    let y := t.thr.getG b.toNat
    let n := y.toNat % 64
    let put (v : Word) : Host.Outcome State Fault Refusal := .next ((t.setG d.toNat v).advance 4)
    let num (k : Nat) : Host.Outcome State Fault Refusal := put (BitVec.ofNat 64 k)
    exec (.clz w d a) s = num ((List.range 64).takeWhile (fun i => !x.getLsbD (63 - i))).length ∧
    exec (.ctz w d a) s = num ((List.range 64).takeWhile (fun i => !x.getLsbD i)).length ∧
    exec (.popc w d a) s = num ((List.range 64).filter (fun i => x.getLsbD i)).length ∧
    exec (.clzw w d a) s = num ((List.range 32).takeWhile (fun i => !x.getLsbD (31 - i))).length ∧
    exec (.ctzw w d a) s = num ((List.range 32).takeWhile (fun i => !x.getLsbD i)).length ∧
    exec (.popcw w d a) s = num ((List.range 32).filter (fun i => x.getLsbD i)).length ∧
    (∃ v : Word, exec (.brev w d a) s = put v ∧ ∀ i < 64, v.getLsbD i = x.getLsbD (63 - i)) ∧
    (∃ v : Word, exec (.bswap w d a) s = put v ∧ ∀ j < 8, v.extractLsb' (8 * j) 8 = x.extractLsb' (8 * (7 - j)) 8) ∧
    exec (.rol w d a b) s = put (BitVec.ofNat 64 (x.toNat * 2 ^ n) ||| BitVec.ofNat 64 (x.toNat / 2 ^ (64 - n))) ∧
    exec (.ror w d a b) s = put (BitVec.ofNat 64 (x.toNat / 2 ^ n) ||| BitVec.ofNat 64 (x.toNat * 2 ^ (64 - n))) ∧
    exec (.sextb w d a) s = put ((x.truncate 8).signExtend 64) ∧
    exec (.sexth w d a) s = put ((x.truncate 16).signExtend 64) ∧
    exec (.sextw w d a) s = put ((x.truncate 32).signExtend 64) ∧
    exec (.zextw w d a) s = put ((x.truncate 32).zeroExtend 64) ∧
    exec (.bext w d a b) s = num ((List.range 64).foldl (fun (r, k) i =>
      if y.getLsbD i then (r + (x.getLsbD i).toNat * 2 ^ k, k + 1) else (r, k)) (0, 0)).1 ∧
    exec (.bdep w d a b) s = num ((List.range 64).foldl (fun (r, k) i =>
      if y.getLsbD i then (r + (x.getLsbD k).toNat * 2 ^ i, k + 1) else (r, k)) (0, 0)).1

/-- R94: thread identity. A user thread reads the product of its launch's four counts, a Spring slot 1 (R408). -/
def Statement.IdentityResults : Prop :=
  ∀ (s : State) (w : Bool) (d : BitVec 5), s.Ready w [] →
    let t := s.afterW w
    let put (v : Word) : Host.Outcome State Fault Refusal := .next ((t.setG d.toNat v).advance 4)
    exec (.tid w d) s = put (t.thr.tid.zeroExtend 64) ∧
    exec (.place w d) s = put ((t.place t.cur).zeroExtend 64) ∧
    (∀ i l, t.thr.launch = some i → t.launches.get? i = some l →
      exec (.lsize w d) s = put (BitVec.ofNat 64 (l.S * l.C * l.Q * l.K))) ∧
    (t.thr.launch = none → exec (.lsize w d) s = put 1)

/-- R101, R102: a branch takes its target where its comparison holds and goes on otherwise; CALL and CALLR write the
link and jump, CALLR to a target that is a multiple of 4. -/
def Statement.BranchResults : Prop :=
  ∀ (s : State) (w : Bool) (o i : BitVec 15) (d a b : BitVec 5) (u : BitVec 20), s.Ready w [a.toNat, b.toNat] →
    let t := s.afterW w
    let x := t.thr.getG a.toNat
    let y := t.thr.getG b.toNat
    let pc := t.thr.pc
    let go (c : Bool) : Host.Outcome State Fault Refusal :=
      .next (t.putThr { t.thr with pc := if c then BitVec.ofInt 64 (pc.toNat + 4 * o.toInt) else pc + 4 })
    let jump (q : Word) : Host.Outcome State Fault Refusal :=
      .next ((t.setG d.toNat (pc + 4)).putThr { (t.setG d.toNat (pc + 4)).thr with pc := q })
    exec (.beq w o a b) s = go (decide (x = y)) ∧
    exec (.bne w o a b) s = go (decide (x ≠ y)) ∧
    exec (.blt w o a b) s = go (decide (x.toInt < y.toInt)) ∧
    exec (.bge w o a b) s = go (decide (y.toInt ≤ x.toInt)) ∧
    exec (.bltn w o a b) s = go (decide (x.toNat < y.toNat)) ∧
    exec (.bgen w o a b) s = go (decide (y.toNat ≤ x.toNat)) ∧
    exec (.call w d u) s = jump (BitVec.ofInt 64 (pc.toNat + 4 * u.toInt)) ∧
    (x.toNat % 4 = 0 → exec (.callr w d a i) s = jump (BitVec.ofInt 64 (x.toNat + 4 * i.toInt)))

/-! ## Loads, stores and atomics -/

/-- R95, R96: a load whose checks pass goes on to the next instruction; unless it is sequentially consistent, the n bytes
that its parts hold, extended, are pending for g[d], and neither storage nor a register changes. A sequentially consistent one is
announced, and its result is pending until it is performed (R249); on the thread's own leased lines it reads the copy at once
(R170).
MODEL'S CHOICE: the statement rests on that an access is performed at its issue (entries 11 and 16) and what holds it (entry 20). -/
def Obligations.LoadResults : Prop :=
  ∀ (s : State) (w : Bool) (d a : BitVec 5) (o : BitVec 2) (i : BitVec 10) (z : BitVec 3) (os : BitVec 5), s.Ready w [a.toNat] →
    let t := s.afterW w
    let x := t.thr.getG a.toNat
    let va := (BitVec.ofInt 64 (x.toNat + i.toInt)).toNat
    ∀ (ld : Instr) (ea n : Nat) (sg : Bool) (ord : Order),
      (ld, ea, n, sg, ord) ∈
        [(.lb w d a o i, va, 1, true, lsOrder o), (.lh w d a o i, va, 2, true, lsOrder o), (.lw w d a o i, va, 4, true, lsOrder o),
         (.ld w d a o i, va, 8, false, lsOrder o), (.lbn w d a o i, va, 1, false, lsOrder o),
         (.lhn w d a o i, va, 2, false, lsOrder o), (.lwn w d a o i, va, 4, false, lsOrder o),
         (.loadScoped w d a z os, x.toNat, 2 ^ (z.toNat % 4), decide (z.toNat < 3), os5Order os)] →
      ∀ sp, t.Admits .load ord ea n sp →
        let b := t.before ord
        let copy := b.ownCopy b.cur sp
        let u := b.countHome b.cur .unit sp
        let v := (b.countParts b.cur .unit sp).noteParts (!ord.isRelaxed && !copy) n sp
        let regs := loadRegs d.toNat (extendLoad sg n (v.loadParts v.cur sp)) (v.partsPoisoned v.cur sp)
        exec ld s = .next (if ord.sc && !copy then ((u.announce sp n d.toNat (.load sg)).addScPend (u.uid + 1) [d.toNat]).advance 4
          else ((if ord.sc then v.announce sp n 0 .done else v).addPend regs).advance 4)

/-- R95, R96: a store whose checks pass stores the low n bytes of g[b] to its parts and goes on; a sequentially consistent
one is announced instead (R249), unless it goes to the thread's own leased lines (R170). Poison of g[b] travels with the bytes
(R281).
MODEL'S CHOICE: the statement rests on that an access is performed at its issue (entry 11), the byte order of a misaligned access (entry 104) and what holds an access (entry 20). -/
def Obligations.StoreResults : Prop :=
  ∀ (s : State) (w : Bool) (a b : BitVec 5) (o : BitVec 2) (i : BitVec 10) (z : BitVec 2) (os : BitVec 5),
    s.Ready w [a.toNat] → (s.afterW w).unpending b.toNat →
    let t := s.afterW w
    let x := t.thr.getG a.toNat
    let v := t.thr.getG b.toNat
    let va := (BitVec.ofInt 64 (x.toNat + i.toInt)).toNat
    ∀ (st : Instr) (ea n : Nat) (ord : Order),
      (st, ea, n, ord) ∈
        [(.sb w o a b i, va, 1, lsOrder o), (.sh w o a b i, va, 2, lsOrder o), (.sw w o a b i, va, 4, lsOrder o),
         (.sd w o a b i, va, 8, lsOrder o), (.storeScoped w a b z os, x.toNat, 2 ^ z.toNat, os5Order os)] →
      ∀ sp, t.Admits .store ord ea n sp →
        let r := t.before ord
        let leased := sp.all (fun p => (r.ownLease r.cur p.pa).isSome)
        let y := v.toNat % 2 ^ (8 * n)
        let ps := decide (b.toNat ≠ 0 ∧ b.toNat ∈ t.thr.poison)
        let u := (r.countParts r.cur .unit sp).noteParts (!ord.isRelaxed && !leased) n sp
        let clean := u.storeParts r.cur sp y
        let stored := if ps then clean.poisonParts clean.cur sp else clean
        exec st s = .next (if ord.sc && !leased then ((r.countHome r.cur .unit sp).announce sp n 0 (.store y ps)).advance 4
          else (if ord.sc then stored.announce sp n 0 .done else stored).advance 4)

/-- R6, R95, R170, R172, R243, R250: what the store of one part does. A part in plain storage takes the bytes, lowest address
first, and no other byte changes but those of the same lines that were dirty in the core's L1, which reach home before it; a
part on a STRM page changes the core's dirty bytes and no byte of storage; a part on a line that the slot's own lease holds
changes the lease's copy; and on an expired one it does nothing. -/
def Statement.StorePartEffects : Prop :=
  ∀ (s : State) (pa attr n v : Nat), s.isReg pa attr = false →
    let u := s.storePart s.cur pa attr n v
    let here := coreOf s.cur
    (s.ownLease s.cur pa = none → attr ≠ 1 →
      (∀ j < n, memByte u.mem (pa + j) = BitVec.ofNat 8 (v / 256 ^ j)) ∧
      (∀ x, x < pa ∨ pa + n ≤ x → memByte u.mem x = memByte s.mem x ∨
        (lineOf x ∈ linesOf pa n ∧ (x, memByte u.mem x) ∈ (s.core here).strm)) ∧
      (∀ e, e ∈ (u.core here).strm ↔ e ∈ (s.core here).strm ∧ lineOf e.1 ∉ linesOf pa n) ∧
      (∀ c, c ≠ here → u.core c = s.core c)) ∧
    (s.ownLease s.cur pa = none → attr = 1 →
      u.mem = s.mem ∧ (∀ j < n, u.coreByte here (pa + j) = BitVec.ofNat 8 (v / 256 ^ j)) ∧
      (∀ x, x < pa ∨ pa + n ≤ x → u.coreByte here x = s.coreByte here x)) ∧
    (∀ l, s.thr.region = some l → l.lines.contains (lineOf pa) = true →
      (l.holds s.clk = true → u.mem = s.mem ∧
        u.thr.lease = some { l with buf := bufPut l.buf pa n v, bad := partialBad l.bad (s.byteBad s.cur) pa n }) ∧
      (l.holds s.clk = false → u = s))

/-- R6: n bytes are read and written as a little-endian number, and a write changes no byte outside them. -/
def Statement.LittleEndianStorage : Prop :=
  ∀ (m : List Host.Cell) (a n v : Nat), Memory.wf m = true →
    Memory.wf (memPut m a n v) = true ∧
    memNat (memPut m a n v) a n = v % 2 ^ (8 * n) ∧
    (∀ j < n, memByte (memPut m a n v) (a + j) = BitVec.ofNat 8 (v / 256 ^ j)) ∧
    (∀ x, x < a ∨ a + n ≤ x → memByte (memPut m a n v) x = memByte m x)

/-- R97, R99, R272: the checks of a scalar access of every form in their order; an access that fails one has no effect but its trap or
park, taken once the thread's vector instructions before it have run (R227). A misaligned access that is not relaxed traps; a relaxed
one may lie in two pages, and the page that fails gives the tval.
MODEL'S CHOICE: the statement rests on that each access walks the tables as they stand (entry 14). -/
def Obligations.AccessChecks : Prop :=
  ∀ (s : State) (w : Bool) (d a b : BitVec 5) (o : BitVec 2) (i : BitVec 10) (z : BitVec 3) (y : BitVec 2) (os : BitVec 5),
    s.Ready w [a.toNat] → (s.afterW w).unpending b.toNat → (s.afterW w).thr.memQueued = false →
    (s.afterW w).flushHeld (coreOf s.cur) = false →
    let t := s.afterW w
    let va := (BitVec.ofInt 64 ((t.thr.getG a.toNat).toNat + i.toInt)).toNat
    let x := (t.thr.getG a.toNat).toNat
    let one := lsOrder o
    let two := os5Order os
    ∀ (j : Instr) (need : Need) (n ea : Nat) (ord : Order),
      (j, need, n, ea, ord) ∈ [(.lb w d a o i, .load, 1, va, one), (.lh w d a o i, .load, 2, va, one),
        (.lw w d a o i, .load, 4, va, one), (.ld w d a o i, .load, 8, va, one), (.lbn w d a o i, .load, 1, va, one),
        (.lhn w d a o i, .load, 2, va, one), (.lwn w d a o i, .load, 4, va, one), (.sb w o a b i, .store, 1, va, one),
        (.sh w o a b i, .store, 2, va, one), (.sw w o a b i, .store, 4, va, one), (.sd w o a b i, .store, 8, va, one),
        (.loadScoped w d a z os, .load, 2 ^ (z.toNat % 4), x, two), (.storeScoped w a b y os, .store, 2 ^ y.toNat, x, two)] →
      let trap (cause q : Nat) : Host.Outcome State Fault Refusal := s.trapAfter t cause (BitVec.ofNat 64 q)
      let strict : Bool := !ord.isRelaxed && ea % n != 0
      let here := t.walkFor t.cur need ea
      let q := (ea / 4096 + 1) * 4096
      let there := t.walkFor t.cur need q
      let no (r : Walk) : Prop := r = .bad ∨ r = .denied ∨ r = .noRoute
      (2 ^ 57 < ea + n → exec j s = trap 0x06 ea) ∧
      (ea + n ≤ 2 ^ 57 → winBase < ea + n → t.window t.cur ea n = none → exec j s = trap 0x06 ea) ∧
      (ea + n ≤ 2 ^ 57 → winBase < ea + n → t.window t.cur ea n ≠ none → strict = true → exec j s = trap 0x07 ea) ∧
      (ea + n ≤ winBase → strict = true → exec j s = trap 0x07 ea) ∧
      (ea + n ≤ winBase → strict = false → ea + n ≤ q →
        (here = .park → exec j s = s.parkAfter t ea) ∧ (no here → exec j s = trap 0x06 ea)) ∧
      (ea + n ≤ winBase → strict = false → q < ea + n →
        (here = .park → there ≠ .held → exec j s = s.parkAfter t ea) ∧
        (here ≠ .held → here ≠ .park → there = .park → exec j s = s.parkAfter t q) ∧
        (no here → there ≠ .held → there ≠ .park → exec j s = trap 0x06 ea) ∧
        (∀ pa attr, here = .ok pa attr → no there → exec j s = trap 0x06 q))

/-- R162, R163: an AMO whose checks pass writes the new value of its table to memory and leaves the old one pending for
g[d], sign-extended from 32 bits in size W; a CAS writes g[b] only where the old value is g[d]. But for the thread's own leased
lines it is performed at home on every page (R165); a sequentially consistent one is announced (R249), and one whose line is
leased or requested by another slot waits there without holding the thread (R166, R169). -/
def Statement.AmoResults : Prop :=
  ∀ (s : State) (w : Bool) (d a b : BitVec 5) (z : BitVec 1) (os : BitVec 5), s.Ready w [a.toNat, b.toNat] →
    let t := s.afterW w
    let n := if z = 1 then 8 else 4
    let bits := 8 * n
    let va := (t.thr.getG a.toNat).toNat
    let y := (t.thr.getG b.toNat).toNat % 2 ^ bits
    let c := (t.thr.getG d.toNat).toNat % 2 ^ bits
    let ord := os5Order os
    let low (p : Nat → Nat → Bool) (m y : Nat) : Nat := if p m y then m else y
    let fp := if z = 1 then Fp.fp64 else Fp.fp32
    ∀ (i : Instr) (code : Nat) (new : Nat → Nat),
      (i, code, new) ∈
        [(.amoadd w d a b z os, 0, fun m => (m + y) % 2 ^ bits), (.amoand w d a b z os, 1, fun m => m &&& y),
         (.amoor w d a b z os, 2, fun m => m ||| y), (.amoxor w d a b z os, 3, fun m => m ^^^ y),
         (.amomin w d a b z os, 4, fun m => low (fun m y => signedOf m bits ≤ signedOf y bits) m y),
         (.amomax w d a b z os, 5, fun m => low (fun m y => signedOf y bits < signedOf m bits) m y),
         (.amominn w d a b z os, 6, fun m => min m y), (.amomaxn w d a b z os, 7, fun m => max m y),
         (.amoswap w d a b z os, 8, fun _ => y),
         (.amofadd w d a b z os, 0xA, fun m => (roundTo fp .rne (Val.add false (decodeFp fp m) (decodeFp fp y)).1).1)] →
      ∀ p, t.AdmitsAmo ord va n p →
        let u := t.noted ord [p]
        let drop := u.ownLease u.cur p.pa == some false
        let far := ord.sc && !u.ownCopy u.cur [p]
        let v := u.noteParts (!u.ownCopy u.cur [p]) n [p]
        let m := v.loadPart v.cur p.pa p.attr n
        let old := if z = 1 then BitVec.ofNat 64 m else BitVec.ofInt 64 (signedOf m 32)
        let regs := if d = 0 then [] else [(d.toNat, old)]
        let home := if p.attr = 1 then 2 else p.attr
        let put (x : Nat) : State := if drop then v else v.storePart v.cur p.pa home n x
        let mark (x : State) : State := if ord.sc then x.announce [p] n 0 .done else x
        exec i s = .next (
          if far then ((u.announce [p] n d.toNat (.amo code y 0 drop)).addScPend (u.uid + 1) [d.toNat]).advance 4
          else if !u.ownCopy u.cur [p] && u.amoWaits u.cur [p] then (u.queueAmo p n d.toNat (.amo code y 0 drop) [d.toNat]).advance 4
          else ((mark (put (new m))).addPend regs).advance 4) ∧
        (t.readable d.toNat → exec (.cas w d a b z os) s = .next (
          if far then ((u.announce [p] n d.toNat (.amo 9 y c drop)).addScPend (u.uid + 1) [d.toNat]).advance 4
          else if !u.ownCopy u.cur [p] && u.amoWaits u.cur [p] then (u.queueAmo p n d.toNat (.amo 9 y c drop) [d.toNat]).advance 4
          else ((mark (if m = c then put y else v)).addPend regs).advance 4))

/-- R162, R163: CAS.Q compares and swaps 16 bytes, with register pairs for the comparand and the new value. -/
def Statement.CasPairResult : Prop :=
  ∀ (s : State) (w : Bool) (d b : BitVec 4) (a : BitVec 5) (os : BitVec 5),
    s.Ready w [a.toNat, 2 * b.toNat, 2 * b.toNat + 1, 2 * d.toNat, 2 * d.toNat + 1] →
    let t := s.afterW w
    let pair (r : Nat) : Nat := (t.thr.getG (2 * r)).toNat + 2 ^ 64 * (t.thr.getG (2 * r + 1)).toNat
    let ord := os5Order os
    ∀ p, t.AdmitsAmo ord (t.thr.getG a.toNat).toNat 16 p →
      let u := t.noted ord [p]
      let drop := u.ownLease u.cur p.pa == some false
      let v := u.noteParts (!u.ownCopy u.cur [p]) 16 [p]
      let m := v.loadPart v.cur p.pa p.attr 16
      let pairRegs := [2 * d.toNat, 2 * d.toNat + 1]
      let regs := [(2 * d.toNat, BitVec.ofNat 64 m), (2 * d.toNat + 1, BitVec.ofNat 64 (m / 2 ^ 64))].filter (fun e => e.1 != 0)
      let kind := (pair b.toNat, pair d.toNat)
      let put := if m = kind.2 && !drop then v.storePart v.cur p.pa (if p.attr = 1 then 2 else p.attr) 16 kind.1 else v
      exec (.casQ w d a b os) s = .next (
        if ord.sc && !u.ownCopy u.cur [p] then
          ((u.announce [p] 16 (2 * d.toNat) (.amo 0xB kind.1 kind.2 drop)).addScPend (u.uid + 1) pairRegs).advance 4
        else if !u.ownCopy u.cur [p] && u.amoWaits u.cur [p] then (u.queueAmo p 16 (2 * d.toNat) (.amo 0xB kind.1 kind.2 drop) pairRegs).advance 4
        else ((if ord.sc then put.announce [p] 16 0 .done else put).addPend regs).advance 4)

/-! ## Leases, claims, fences, barriers, waits -/

/-- R167 to R169: a LEASE or LEASE.N that passes its checks leaves the thread WAITING past the instruction, its region
open over the distinct lines named, and its request at the home of the lowest of them; no register of the thread changes. -/
def Statement.LeaseRequests : Prop :=
  ∀ (s : State) (w : Bool) (d a b os : BitVec 5), s.Ready w [a.toNat, b.toNat] →
    let t := s.afterW w
    let x := t.thr.getG a.toNat
    let ord := os5Order os
    ∀ (i : Instr) (y : Word), (i, y) ∈ [(.lease w d a os, 0), (.leaseN w d a b os, t.thr.getG b.toNat)] →
      ∀ pas addr, t.thr.lease = none → t.thr.memQueued = false → t.portHeld t.cur = false →
        t.leaseRoom (coreOf t.cur) (leaseLines x y).length = true → y.extractLsb' 2 14 = 0 → x.toNat % 8 = 0 →
        checkLines t x (sortUp (leaseLines x y)) = .ok pas → checkLine t x (x.toNat / 64 * 64) = .ok addr →
        (ord.rel && t.releaseHeld (coreOf t.cur) ord.scope) = false → (t.thr.dbg.getLsbD 1 = true → t.mixes addr 8 = false) →
        let lines := sortUp (pas.map lineOf).eraseDups
        ∃ u, exec i s = .next u ∧ u.thr.st = .waiting .lease ∧ u.thr.pc = t.thr.pc + 4 ∧ u.thr.g = t.thr.g ∧
          u.thr.pend = t.thr.pend ∧
          u.thr.lease = some { pc := t.thr.pc, dest := d.toNat, addr := addr, lines := lines, todo := lines, granted := none,
                               budget := t.thr.leasemax.toNat, expired := false, buf := [], bad := [], ending := none } ∧
          (∀ f rest, lines = f :: rest → u.homes.getD f [] = t.fifo f ++ [t.cur])

/-- R169: the home of a line records the request at the head of its queue and passes it on; the last record is the grant,
at which the cores' dirty STRM bytes of the lines are home, the thread becomes RUNNING, to issue from its first turn after it, and g[d]
is to receive the 8 bytes at g[a]. -/
def Statement.LeaseGrant : Prop :=
  ∀ (s : State) (line k : Nat) (rest : List Nat) (l : Lease),
    s.fifo line = k :: rest → (s.thread k).lease = some l →
    (∀ n todo, l.todo = line :: n :: todo → s.homeDown (line * 64) 0 = false →
      ∃ u, exec (.leaseHomeRecord line) s = .next u ∧ (u.thread k).lease = some { l with todo := n :: todo } ∧
        (u.thread k).st = (s.thread k).st ∧ u.mem = s.mem) ∧
    (l.todo = [line] → (∀ x ∈ l.lines, s.homeDown (x * 64) 0 = false) →
      let f := s.cores.foldl (fun s e => s.flushStrm e.1 l.lines.contains) s
      ∃ u, exec (.leaseHomeRecord line) s = .next u ∧ (u.thread k).st = .running ∧ (u.thread k).ready = s.clk + 1 ∧
        (u.thread k).lease = some { l with todo := [], granted := some s.clk } ∧ u.mem = f.mem ∧
        (u.thread k).pend = (s.thread k).pend.map (Pend.drop l.dest) ++
          [.vals (loadRegs l.dest (BitVec.ofNat 64 (memNat f.mem l.addr 8)) (f.poisonedAt l.addr 8))])

/-- R171, R172, R242: LEND commits the region's bytes and gives 1 while the lease holds, gives 0 and writes nothing after it
has expired, and ends the region either way; a commit comes after the accesses that the region has announced, with the
last of them; outside a region LEND raises the lease trap with tval 2. -/
def Statement.LeaseEnd : Prop :=
  (∀ (s : State) (w : Bool) (d os : BitVec 5), s.Ready w [] →
    let t := s.afterW w
    let ord := os5Order os
    let v := t.before ord
    (∀ l, t.thr.region = some l → (ord.rel && t.releaseHeld (coreOf t.cur) ord.scope) = false →
      let done (u : State) (ok : Word) : Host.Outcome State Fault Refusal :=
        .next (((u.dropLease u.cur).addPend (if d = 0 then [] else [(d.toNat, ok)])).advance 4)
      (l.holds t.clk = true → v.unperformed v.cur = false → exec (.lend w d os) s = done (v.commit v.cur l) 1) ∧
      (l.holds t.clk = true → v.unperformed v.cur = true →
        ∃ u, exec (.lend w d os) s = .next u ∧ u.mem = v.mem ∧ u.thr.pc = t.thr.pc + 4 ∧
          u.thr.lease = some { l with ending := some (v.uid + 1) } ∧
          Pend.sc (v.uid + 1) (if d = 0 then [] else [d.toNat]) ∈ u.thr.pend) ∧
      (l.holds t.clk = false → exec (.lend w d os) s = done v 0)) ∧
    (t.thr.region = none → exec (.lend w d os) s = s.trapAfter t 0x0B 2)) ∧
  (∀ (s : State) (k id : Nat) (l : Lease), (s.thread k).lease = some l → l.ending = some id →
    (s.unperformed k = true → s.endLend k = s) ∧
    (s.unperformed k = false → (s.endLend k).mem = (s.commit k l).mem ∧ ((s.endLend k).thread k).lease = none ∧
      ∀ rs, Pend.sc id rs ∈ (s.thread k).pend → Pend.vals (rs.map (fun r => (r, 1))) ∈ ((s.endLend k).thread k).pend))

/-- R172: at clk g + B a lease without its LEND expires: what it buffered is discarded, its requests leave the homes, and
the thread goes on with its registers as they were. -/
def Statement.LeaseExpiry : Prop :=
  ∀ (s : State) (k g : Nat) (l : Lease), (s.thread k).lease = some l → l.granted = some g → l.expired = false → l.ending = none →
    g + l.budget ≤ s.clk →
    ∃ u, exec (.leaseExpire k) s = .next u ∧ (u.thread k) = { s.thread k with lease := some { l with expired := true, buf := [] } } ∧
      u.mem = s.mem ∧ (∀ line, k ∉ u.homes.getD line []) ∧ (∀ j, j ≠ k → u.thread j = s.thread j)

/-- R165, R187: CLAIM takes min(g[b], limit − next, 2,048) elements of a claim block: next rises by the grant, g[d] is to
receive the old next, c.vl the grant and c.vstart 0. It is performed at the block's home on every page; where another slot
leases the line or has a request there, it waits there without holding the thread, its three results pending. -/
def Statement.ClaimResult : Prop :=
  ∀ (s : State) (w : Bool) (d a b : BitVec 5), s.Ready w [a.toNat, b.toNat] →
    let t := s.afterW w
    let want := (t.thr.getG b.toNat).toNat
    ∀ p, t.thr.region = none → checkAtomic t (t.thr.getG a.toNat).toNat 16 = .ok [p] →
      t.leaseRoom (coreOf t.cur) 1 = true → t.thr.memQueued = false → t.portHeld t.cur = false →
      t.badWord t.cur p.pa p.n = none →
      let u := t.countHome t.cur .unit [p]
      let block := u.loadPart u.cur p.pa p.attr 16
      let next := block % 2 ^ 64
      let limit := block / 2 ^ 64
      let n := min (min want (limit - next)) 2048
      let landing := (if d = 0 then [] else [(d.toNat, BitVec.ofNat 64 next)]) ++ [(codeVl, BitVec.ofNat 64 n), (codeVstart, 0)]
      let home := if p.attr = 1 then 2 else p.attr
      exec (.claim w d a b) s = .next (
        if u.amoWaits u.cur [p] then (u.queueAmo p 16 d.toNat (.claim want) [d.toNat, codeVl, codeVstart]).advance 4
        else ((u.storePart u.cur p.pa home 8 ((next + n) % 2 ^ 64)).addPend landing).advance 4)

/-- R184, R250: a FENCE goes on once the thread's own accesses have been performed; one that includes sl or ss, kinds k[1] and
k[0], writes the core's dirty STRM bytes home at cluster scope or wider. -/
def Statement.FenceResult : Prop :=
  ∀ (s : State) (w : Bool) (k : BitVec 4) (sc : BitVec 3), s.Ready w [] →
    let t := s.afterW w
    let stores := k.getLsbD 0 || k.getLsbD 1
    t.unperformed t.cur = false → t.thr.memQueued = false →
    (stores = true → 2 ≤ sc.toNat → t.flushHeld (coreOf t.cur) = false) →
    exec (.fence w k sc) s =
      .next ((if stores && decide (2 ≤ sc.toNat) then t.flushStrm (coreOf t.cur) (fun _ => true) else t).advance 4)

/-- R185, R186: BARA arrives in the current phase and goes on; BARW goes on once that phase has completed and waits
before; BAR is the two together. A second BARA before the BARW raises the barrier trap with tval n. -/
def Statement.BarrierIssue : Prop :=
  ∀ (s : State) (w : Bool) (n : BitVec 4) (sc : BitVec 3), s.Ready w [] →
    let t := s.afterW w
    let b := t.barrierOf t.cur sc.toNat n.toNat
    let a := t.arrive t.cur b
    let pass (u : State) : State :=
      u.putThr { u.thr with arrivals := u.thr.arrivals.erase (arrivalIndex b), pc := u.thr.pc + 4 }
    let block (u : State) : State := u.putThr { u.thr with st := .waiting (.barrier b) }
    t.thr.region = none → t.unperformed t.cur = false → t.thr.memQueued = false →
    (2 ≤ sc.toNat → t.flushHeld (coreOf t.cur) = false) →
    (t.thr.arrivals.get? (arrivalIndex b) = none →
      exec (.bara w n sc) s = .next (a.advance 4) ∧
      exec (.bar w n sc) s = .next (if a.arrivalDone t.cur b then pass a else block a)) ∧
    ((t.thr.arrivals.get? (arrivalIndex b)).isSome = true →
      exec (.bara w n sc) s = s.trapAfter t 0x0D (n.zeroExtend 64) ∧
      exec (.bar w n sc) s = .next (if t.arrivalDone t.cur b then pass t else block t)) ∧
    exec (.barw w n sc) s = .next (if t.arrivalDone t.cur b then pass t else block t)

/-- R185, R186: a phase completes when every participant that has not halted has arrived; then the parity turns, and after
the scope's delay each thread that waits on it becomes RUNNING after the barrier, or at it where it is held (R239). -/
def Statement.BarrierRelease : Prop :=
  (∀ (s : State) (b : Nat), (s.barrier b).arrived ≠ [] → (∀ i ∈ s.participants b, i ∈ (s.barrier b).arrived) →
    ((s.settleBarrier b).barrier b).parity = !(s.barrier b).parity ∧ ((s.settleBarrier b).barrier b).arrived = []) ∧
  (∀ (s : State) (b : Nat), (∃ i ∈ s.participants b, i ∉ (s.barrier b).arrived) → s.settleBarrier b = s) ∧
  (∀ (s : State) (b c : Nat), (s.barrier b).due = some c → c ≤ s.clk →
    ∃ u, exec (.barrierRelease b) s = .next u ∧ u.mem = s.mem ∧ (u.barrier b).due = none ∧
      ∀ k, (s.thread k).st = .waiting (.barrier b) → s.arrivalDone k b = true →
        (u.thread k).st = .running ∧ (u.thread k).pc = (if (s.thread k).held then (s.thread k).pc else (s.thread k).pc + 4))

/-- R183: WFE consumes a set latch and goes on, and waits where it is clear; WAKE sets the latch of the thread it names,
or lets it go on where it waits in WFE; a thread saved in a context block has its latch set there; a c.tid outside the launch
raises the access trap, and one whose thread has halted has no effect. -/
def Statement.WakeResults : Prop :=
  ∀ (s : State) (w : Bool) (a : BitVec 5), s.Ready w [a.toNat] →
    let t := s.afterW w
    let x := t.thr.getG a.toNat
    (t.thr.region = none → t.thr.latch = true → exec (.wfe w) s = .next ((t.putThr { t.thr with latch := false }).advance 4)) ∧
    (t.thr.region = none → t.thr.latch = false → exec (.wfe w) s = .next (t.putThr { t.thr with st := .waiting .wfe })) ∧
    (t.lsize t.thr ≤ x.toNat → exec (.wake w a) s = s.trapAfter t 0x06 x) ∧
    (t.thr.launch = none → x = 0 → t.releaseWaits 0 = false →
      exec (.wake w a) s = .next ((t.putThr t.thr.setLatch).advance 4)) ∧
    (∀ i, t.thr.launch = some i → x.toNat < t.lsize t.thr →
      (∀ k, t.slotOfTid i x.toNat = some k → t.releaseWaits (commonScope t.cur k) = false →
        exec (.wake w a) s =
          (let u := t.release (coreOf t.cur) (commonScope t.cur k)
          .next ((u.setThread k (u.thread k).setLatch).advance 4))) ∧
      (t.slotOfTid i x.toNat = none → t.releaseWaits 4 = false → ∀ l, t.launches.get? i = some l →
        (∀ va, l.saved.get? x.toNat = some va → t.latchHeld x.toNat = false →
          exec (.wake w a) s = .next (((t.release (coreOf t.cur) 4).latchSaved t.thr.part va).advance 4)) ∧
        (l.saved.get? x.toNat = none → exec (.wake w a) s = .next (t.advance 4))))

/-- R180, R181: a VWAIT or VWAIT.T whose checks pass makes its first comparison pass at once: with no unmet element it
leaves 0 pending for g[d] and an empty mask for m[k], and goes on; with an unmet one it waits, unless its time is over. Where
the flags' lines are held it waits, and the pass comes later. -/
def Statement.VectorWaitIssue : Prop :=
  ∀ (s : State) (w : Bool) (d a b : BitVec 5) (m : BitVec 3) (cc : BitVec 4), s.Ready w [d.toNat] →
    let t := s.afterW w
    let bw := t.thr.ew b.toNat
    let idx := t.thr.actives m.toNat bw (t.thr.count b.toNat) t.thr.vl.toNat 0
    let flags : List ERead := idx.map (fun i => ⟨a.toNat, i, 64⟩)
    let wanted : List ERead := idx.map (fun i => ⟨b.toNat, i, bw⟩)
    let u := (t.logDeferred flags).logDeferredOf t.thr wanted
    t.vectorReady → (∀ p ∈ t.thr.pend, p.isVec = false) → t.thr.vq = [] → t.thr.region = none → t.thr.vstart = 0 →
    boundCheck t [a.toNat, b.toNat] [] = .ok () →
    tagCheck t t.thr.vl.toNat [(a.toNat, fun f _ => f == 8), (b.toNat, fun f _ => 5 ≤ f && f ≤ 8)] = .ok () →
    t.thr.maskPoisoned m.toNat (t.thr.count b.toNat) t.thr.vl.toNat 0 = false →
    (∀ e ∈ flags ++ wanted, t.thr.elemPoisoned e.r e.i e.w = false) →
    ∀ es, checkFlags u (bw / 8) (idx.map (fun i => (i, t.thr.elem a.toNat i 64))) = .ok es →
      let watch (traps : Bool) : Watch :=
        { t0 := t.clk, timeout := t.thr.getG d.toNat, d := d.toNat, mask := m.toNat, cc := cc.toNat, w := bw, traps := traps,
          elems := es.map (fun e => (e.1, t.thr.elem a.toNat e.1 64, e.2.pa, t.thr.elem b.toNat e.1 bw)) }
      ∀ (i : Instr) (traps : Bool), (i, traps) ∈ [(.vwait w d a b m cc, false), (.vwaitT w d a b m cc, true)] →
        (vecHeld u es = true → exec i s = .next (u.putThr { u.thr with st := .waiting ((watch traps).wait true) })) ∧
        (vecHeld u es = false → (∀ p ∈ (watch traps).spans, u.badWord u.cur p.pa p.n = none) →
          (u.unmet (watch traps) = [] → exec i s = .next (endWait u (watch traps) [])) ∧
          (u.unmet (watch traps) ≠ [] → (watch traps).over u.clk = false →
            exec i s = .next (u.putThr { u.thr with st := .waiting ((watch traps).wait false) })) ∧
          (u.unmet (watch traps) ≠ [] → (watch traps).over u.clk = true → traps = false →
            exec i s = .next (endWait u (watch traps) (u.unmet (watch traps)))))

/-- R181, R235, R239, R276: a further pass of a waiting thread, which a write to a monitored line or the timeout starts, reads its flags
through the tables as they stand, and ends the wait when every element is met; a held thread becomes RUNNING at its VWAIT instead. -/
def Statement.VectorWaitPasses : Prop :=
  ∀ (s : State) (k : Nat) (v v' : Watch) (woken : Bool), (s.thread k).watch = some (v, woken) →
    let u := { s with cur := k }
    let ended (left : List Nat) : Host.Outcome State Fault Refusal :=
      .next (if u.thr.held then u.putThr { u.thr with st := .running } else endWait u v' left)
    u.portHeld k = false → u.partsHeld k v'.spans = false → v.translate u = .ok v' → (∀ p ∈ v'.spans, u.badWord k p.pa p.n = none) →
    (woken = true → u.unmet v' = [] → exec (.vwaitPass k) s = ended []) ∧
    (v.over s.clk = true → u.unmet v' = [] → exec (.vwaitTimeout k) s = ended []) ∧
    (v.over s.clk = true → u.unmet v' ≠ [] → v.traps = false → exec (.vwaitTimeout k) s = ended (u.unmet v'))

/-- R165, R169, R170, R249: the announced access of the lowest window, core and port order is performed at package scope no earlier
than clk 8k + 48 of its window k, on a STRM page as on any other, and the register a load or AMO names is then to receive its
value; one to the thread's own leased copy had its effect at issue. An access that another slot's lease or a reset holds waits, and an
AMO waits in the queue of its line's home, behind the requests that stand there. -/
def Statement.RankedAccesses : Prop :=
  ∀ (s : State) (e : ScAccess), firstSc s.scq = some e → 8 * e.window + 48 ≤ s.clk →
    (s.scHeld e = true ∨ s.scBehind e = true → exec .scPerform s = .next (s.scQueue e)) ∧
    (s.scHeld e = false → s.scBehind e = false →
    let u := { s with scq := s.scq.filter (fun f => f.id != e.id) }
    let home := if e.attr = 1 then 2 else e.attr
    let noted := u.noteStrong e.pa e.n
    let ended (x : State) : Host.Outcome State Fault Refusal := .next (x.endLend e.slot)
    (∀ f ∈ s.scq, f.before e = false) ∧
    (e.kind = .done → exec .scPerform s = ended u) ∧
    (∀ y ps, e.kind = .store y ps →
      let v := noted.storePart e.slot e.pa home e.n y
      exec .scPerform s = ended (if ps then v.poisonPart e.slot ⟨e.pa, home, e.n⟩ else v)) ∧
    (∀ sg, e.kind = .load sg →
      let v := (u.flushStrm (coreOf e.slot) (linesOf e.pa e.n).contains).noteStrong e.pa e.n
      exec .scPerform s = ended (v.fixPend e.slot e.id
        (loadRegs e.d (extendLoad sg e.n (v.loadPart e.slot e.pa e.attr e.n)) (v.badWord e.slot e.pa e.n).isSome))) ∧
    (∀ code y c drop, e.kind = .amo code y c drop →
      let r := noted.amo e.slot e.pa e.attr e.n code y c drop
      exec .scPerform s = ended (r.2.fixPend e.slot e.id (amoRegs code e.n e.d r.1))))

/-- R21, R165, R169, R226, R244, R250, R254: results land, a TIMEWAIT ends at its pod time, an atomic that leads its home's queue is
performed there, dirty STRM bytes reach their homes, and a home may drop the record of a line's last strong access. -/
def Statement.MachineSteps : Prop :=
  (∀ (s : State) (k n : Nat) (p : Pend), (s.thread k).pend[n]? = some p → s.landable k p = true →
    exec (.longLatencyResultLand k n) s =
      .next (s.setThread k (({ s.thread k with pend := (s.thread k).pend.eraseIdx n }.land p).readyAt (s.thread k) s.clk))) ∧
  (∀ (s : State) (c : Nat) (r : AmoReq), s.amoq.find? (fun r => r.core == c && s.amoReady r) = some r →
    exec (.accessPerformed c) s = .next (s.performAmo r)) ∧
  (∀ (s : State) (c a : Nat) (b : Byte) (rest : Tab Byte), (∀ r ∈ s.amoq, r.core = c → s.amoReady r = false) →
    (s.core c).strm = (a, b) :: rest → s.homeDown a 1 = false →
    exec (.accessPerformed c) s = .next (s.flushStrm c (· == lineOf a))) ∧
  (∀ (s : State) (c line : Nat), s.homeDown (line * 64) 1 = false →
    exec (.strmLineEviction c line) s = .next (s.flushStrm c (· == line))) ∧
  (∀ (s : State) (line : Nat), ∃ u, exec (.mixtrapRecordDrop line) s = .next u ∧ u.strong.get? line = none ∧
    (∀ j, j ≠ line → u.strong.get? j = s.strong.get? j) ∧ u.mem = s.mem ∧ u.threads = s.threads) ∧
  (∀ (s : State) (k : Nat) (x : Word), (s.thread k).timewait = some x → (s.thread k).held = false → x.toNat + 4 ≤ s.podTime →
    ∃ u, exec (.timewaitEnd k) s = .next u ∧ u.mem = s.mem ∧
      u.thread k = { s.thread k with timewait := none, pc := (s.thread k).pc + 4 })


/-! ## Shared registers, control registers, traps and thread control -/

/-- R20, R87: the .h forms, with h[i] as register 24 + i; a write of h[i] is seen by the core's instructions that issue 8 clk
or more after it, and those that issue before see what was seen before. -/
def Statement.SharedRegisterForms : Prop :=
  (∀ (s : State) (w : Bool) (d a b : BitVec 5) (p : BitVec 8) (i : BitVec 11),
    s.Ready w ([a.toNat, b.toNat].filter (fun r => r < 24)) →
    let t := s.afterW w
    let val (r : Nat) : Word := if r < 24 then t.thr.getG r else (t.core (coreOf t.cur)).hValue t.clk (r - 24)
    let x := val a.toNat
    let y := val b.toNat
    let imm := BitVec.ofInt 64 i.toInt
    let put (v : Word) : Host.Outcome State Fault Refusal :=
      .next ((if d.toNat < 24 then t.setG d.toNat v
        else t.setCore (coreOf t.cur) ((t.core (coreOf t.cur)).hWrite t.clk (d.toNat - 24) v)).advance 4)
    exec (.addiH w d a i) s = put (x + imm) ∧ exec (.andiH w d a i) s = put (x &&& imm) ∧
    exec (.oriH w d a i) s = put (x ||| imm) ∧ exec (.xoriH w d a i) s = put (x ^^^ imm) ∧
    (∀ (v : Word), (p, v) ∈ [((0x00 : BitVec 8), x + y), (0x01, x - y), (0x02, x &&& y), (0x03, x ||| y), (0x04, x ^^^ y),
        (0x05, BitVec.ofNat 64 (x.toNat * 2 ^ (y.toNat % 64))), (0x06, BitVec.ofNat 64 (x.toNat / 2 ^ (y.toNat % 64))),
        (0x07, BitVec.ofInt 64 (x.toInt / 2 ^ (y.toNat % 64))), (0x08, if x.toInt < y.toInt then 1 else 0),
        (0x09, if x.toNat < y.toNat then 1 else 0), (0x0A, BitVec.ofInt 64 (min x.toInt y.toInt)),
        (0x0B, BitVec.ofInt 64 (max x.toInt y.toInt)), (0x0C, BitVec.ofNat 64 (min x.toNat y.toNat)),
        (0x0D, BitVec.ofNat 64 (max x.toNat y.toNat)), (0x10, ((x + y).truncate 32).signExtend 64),
        (0x11, ((x - y).truncate 32).signExtend 64),
        (0x15, ((x <<< (y.toNat % 32)).truncate 32).signExtend 64),
        (0x16, ((x.truncate 32 : BitVec 32) >>> (y.toNat % 32)).signExtend 64),
        (0x17, (BitVec.ofInt 32 ((x.truncate 32 : BitVec 32).toInt / 2 ^ (y.toNat % 32))).signExtend 64)] →
      exec (.aluH w d a b p) s = put v)) ∧
  (∀ (c : Core) (now later i j : Nat) (v : Word), c.InOrder now → now ≤ later →
    (c.hWrite now i v).hValue later j = (if j = i ∧ now + 8 ≤ later then v else c.hValue later j) ∧
      (c.hWrite now i v).InOrder later)

/-- R24 to R26, R222: MFS puts the view of a control register into g[d]. c.gtime is pod time, late by at most 4. c.fflags and
c.srseed, which vector instructions write, are read once none of the thread's waits in its queue (R53, R104). -/
def Statement.ControlRegisterReads : Prop :=
  ∀ (s : State) (w : Bool) (d : BitVec 5), s.Ready w [] →
    let t := s.afterW w
    let h := t.thr
    let put (u : State) (v : Word) : Host.Outcome State Fault Refusal := .next ((u.setG d.toNat v).advance 4)
    (t.vectorReady → exec (.mfs w d 0x000) s = put t (h.vl.zeroExtend 64) ∧ exec (.mfs w d 0x001) s = put t (h.vstart.zeroExtend 64)) ∧
    (∀ (c : BitVec 12) (v : Word),
      (c, v) ∈ [((0x002 : BitVec 12), h.mstart.zeroExtend 64), (0x003, h.mdepth.zeroExtend 64), (0x008, h.fmtA.zeroExtend 64),
        (0x009, h.fmtB.zeroExtend 64), (0x00A, h.fmtC.zeroExtend 64), (0x00C, h.scaleA.zeroExtend 64),
        (0x00D, h.scaleB.zeroExtend 64), (0x010, h.frm.zeroExtend 64), (0x011, h.fflags.zeroExtend 64), (0x012, h.srseed),
        (0x018, h.leasemax.zeroExtend 64), (0x019, h.marchLimit.zeroExtend 64), (0x020, h.tid.zeroExtend 64),
        (0x021, (t.place t.cur).zeroExtend 64), (0x022, (t.core (coreOf t.cur)).pool.zeroExtend 64), (0x023, t.sgrant t.cur),
        (0x028, BitVec.ofNat 64 t.clk), (0x02A, 0x204040), (0x030, h.dbg.zeroExtend 64)] →
      (c ∈ [(0x011 : BitVec 12), 0x012] → h.vq = []) → exec (.mfs w d c) s = put t v) ∧
    (∃ n : Nat, n ≤ t.podTime ∧ t.podTime ≤ n + 4 ∧
      exec (.mfs w d 0x029) s = put { t with fresh := t.fresh + 1 } (BitVec.ofNat 64 n)) ∧
    (isSpring t.cur = true → exec (.mfs w d 0x800) s = put t h.cause ∧ exec (.mfs w d 0x801) s = put t h.tval ∧
      exec (.mfs w d 0x802) s = put t h.epc)

/-- R24 to R26, R48, R222: MTS writes an accepted value and leaves a read-only register; a value that is not accepted or an
index that is not listed raises the illegal-instruction trap, and a user access to a supervisor index the privilege trap, once
the vector instructions before it have run (R227). That c.cause holds 16 bits is the model's choice (log entry 95). -/
def Statement.ControlRegisterWrites : Prop :=
  ∀ (s : State) (w : Bool) (d a : BitVec 5) (c : BitVec 12), s.Ready w [a.toNat] →
    let t := s.afterW w
    let h := t.thr
    let v := t.thr.getG a.toNat
    let n := v.toNat
    let next (x : Thread) : Host.Outcome State Fault Refusal := .next ((t.putThr x).advance 4)
    let illegal : Host.Outcome State Fault Refusal := .next (t.takeTrap t.cur 0x01 t.wordAtPc none 0)
    let denied : Host.Outcome State Fault Refusal := .next (t.takeTrap t.cur 0x02 t.wordAtPc none 0)
    let scale : Bool := n < 2 ^ 27 && n / 128 % 2 == 0 && n % 4 != 3 && n / 256 % 2 ^ 19 % 128 == 0
    (∀ (ok : Bool) (x : Thread),
      (c, ok, x) ∈ [((0x000 : BitVec 12), decide (n ≤ 2048), { h with vl := v.truncate 12, pend := h.pend.map (Pend.drop codeVl) }),
        (0x001, decide (n ≤ 2047), { h with vstart := v.truncate 12, pend := h.pend.map (Pend.drop codeVstart) }),
        (0x002, decide (n ≤ 15), { h with mstart := v.truncate 4 }),
        (0x008, [0x09, 0x0A, 0x0D, 0x0E, 0x0F, 0x10].contains n, { h with fmtA := v.truncate 5 }),
        (0x009, [0x09, 0x0A, 0x0D, 0x0E, 0x0F, 0x10].contains n, { h with fmtB := v.truncate 5 }),
        (0x00A, [0x0A, 0x0D, 0x0E, 0x0F, 0x10].contains n, { h with fmtC := v.truncate 5 }),
        (0x00C, scale, { h with scaleA := v.truncate 27 }), (0x00D, scale, { h with scaleB := v.truncate 27 }),
        (0x010, decide (n ≤ 3), { h with frm := v.truncate 3 }), (0x011, decide (n < 32), { h with fflags := v.truncate 5 }),
        (0x012, decide (n < 2 ^ 32), { h with srseed := v, lfsr := seedLfsr v }),
        (0x018, decide (1 ≤ n ∧ n ≤ 256), { h with leasemax := v.truncate 9 }),
        (0x019, decide (1 ≤ n ∧ n ≤ 2 ^ 20), { h with marchLimit := v.truncate 21 })] →
      (ok = true → (c ∈ [(0x011 : BitVec 12), 0x012] → h.vq = []) → exec (.mts w a c) s = next x) ∧
      (ok = false → h.vq = [] → exec (.mts w a c) s = illegal)) ∧
    (c.toNat ∈ [0x020, 0x021, 0x023, 0x028, 0x029, 0x02A] ∨ (isSpring t.cur = false ∧ c.toNat ∈ [0x003, 0x022, 0x030]) →
      exec (.mts w a c) s = .next (t.advance 4)) ∧
    (isSpring t.cur = true →
      (∀ (ok : Bool) (x : Thread), (c, ok, x) ∈ [((0x003 : BitVec 12), decide (n ≤ 16), { h with mdepth := v.truncate 5 }),
          (0x030, decide (n < 4), { h with dbg := v.truncate 2 }), (0x800, decide (n < 2 ^ 16), { h with cause := v }),
          (0x801, true, { h with tval := v }), (0x802, true, { h with epc := v })] →
        (ok = true → exec (.mts w a c) s = next x) ∧ (ok = false → h.vq = [] → exec (.mts w a c) s = illegal)) ∧
      (n < 2 ^ 24 → t.poolOk (coreOf t.cur) n = true → t.poolHeld (coreOf t.cur) n = false →
        exec (.mts w a 0x022) s = .next ((t.setPool (coreOf t.cur) n).advance 4)) ∧
      (¬ (n < 2 ^ 24 ∧ t.poolOk (coreOf t.cur) n = true) → h.vq = [] → exec (.mts w a 0x022) s = illegal)) ∧
    (isSpring t.cur = false → 0x800 ≤ c.toNat → h.vq = [] → exec (.mts w a c) s = denied ∧ exec (.mfs w d c) s = denied) ∧
    (c.toNat < 0x800 ∨ isSpring t.cur = true → cregKnown c.toNat = false → h.vq = [] → exec (.mts w a c) s = illegal ∧ exec (.mfs w d c) s = illegal)

/-- R21, R174, R177, R227, R228: a trap of a user slot lands the results, ends a lease region, clears the links and parks the
thread at its resume PC with the record's serial; nothing else of the thread changes. With a place free in the ring and no
result outstanding, the record's 64 bytes are written at that place and no other byte of storage changes. -/
def Statement.TrapTaking : Prop :=
  ∀ (s : State) (k cause : Nat) (tval : Word) (resume : Option Word) (flags : Nat), isSpring k = false →
    let old := (s.landAll k).thread k
    let pc := (s.thread k).pc
    let res := match old.region with
      | some l => l.pc
      | none => resume.getD pc
    let c := clusterOf k
    let x := s.cluster c
    let serial : BitVec 32 := BitVec.ofNat 6 c ++ x.serialCount
    let u := s.takeTrap k cause tval resume flags
    u.thread k = { old with st := .parkedTrap, pc := res, links := [], serial := serial,
                               lease := if old.region.isSome then none else old.lease } ∧
    (u.cluster c).serialCount = x.serialCount + 1 ∧
    (x.nextPlace ∈ x.ring → u.mem = s.mem ∧ ∃ r, (u.cluster c).waitRecs = x.waitRecs ++ [(some k, r)]) ∧
    (x.waitRecs = [] → x.nextPlace ∉ x.ring → old.pend = [] →
      let a := s.ringAddr (s.partOfCluster c) c x.nextPlace
      let field (o n : Nat) : Nat := memNat u.mem (a + o) n
      (u.cluster c).ring = x.ring ++ [x.nextPlace] ∧ (u.cluster c).nextPlace = (x.nextPlace + 1) % 64 ∧
      field 0x00 8 = pc.toNat ∧ field 0x08 8 = res.toNat ∧ field 0x10 8 = tval.toNat ∧ field 0x18 2 = cause % 2 ^ 16 ∧
      field 0x1A 2 = flags % 2 ^ 16 ∧ field 0x1C 4 = (s.place k).toNat ∧ field 0x20 2 = old.vstart.toNat ∧
      field 0x22 2 = old.vl.toNat ∧ field 0x24 1 = old.mstart.toNat ∧ field 0x25 3 = 0 ∧ field 0x28 4 = serial.toNat ∧
      field 0x2C 4 = old.tid.toNat ∧ (∀ l, s.launchOf old = some l → field 0x30 4 = l.num.toNat) ∧ field 0x34 4 = 0 ∧
      field 0x38 8 = s.clk % 2 ^ 64 ∧ (∀ b, b < a ∨ a + 64 ≤ b → memByte u.mem b = memByte s.mem b))

/-- R174, R230, R284: a trap of a Spring slot is logged, a machine check as the error it signals, a lease region ends, the slot stops
and its partition enters ERROR; no record is written. -/
def Statement.SpringTrap : Prop :=
  ∀ (s : State) (k cause : Nat) (tval : Word) (resume : Option Word) (flags : Nat), isSpring k = true →
    let u := s.takeTrap k cause tval resume flags
    u.mem = s.mem ∧ u.clusters = s.clusters ∧ (u.part (s.thread k).part).state = 2 ∧
    u.thread k = { s.thread k with st := .parkedTrap, held := true,
                                   lease := if (s.thread k).region.isSome then none else (s.thread k).lease } ∧ u.mayIssue k = false ∧
    (u.die (dieOf k)).log.getLast? =
      some (if cause = 0x0F then ⟨tval.toNat / 2 ^ 56, tval.toNat % 2 ^ 56, s.clk, 0⟩ else ⟨cause, tval.toNat, s.clk, 3⟩)

/-- R29, R60, R66, R103, R223, R407: what traps of itself. SVC, TRAP and BRK trap past the instruction; a word that names no
instruction, a fetch that fails and a supervisor word in a user slot trap at it. Each waits for the thread's vector instructions
before it (R227). -/
def Statement.TrapInstructions : Prop :=
  ∀ (s : State) (w : Bool) (d a b : BitVec 5) (word : BitVec 32),
    let next (t : State) : Word := t.thr.pc + 4
    (s.Ready w [a.toNat] → (s.afterW w).thr.vq = [] →
      let t := s.afterW w
      exec (.svc w a) s = .next (t.takeTrap t.cur 0x18 (t.thr.getG a.toNat) (some (next t)) 0) ∧
      exec (.trap w a) s = .next (t.takeTrap t.cur 0x19 (t.thr.getG a.toNat) (some (next t)) 0) ∧
      exec (.brk w) s = .next (t.takeTrap t.cur 0x1A 0 (some (next t)) 0)) ∧
    (s.Ready (word.getLsbD 31) [] → (s.afterW (word.getLsbD 31)).thr.vq = [] →
      let t := s.afterW (word.getLsbD 31)
      exec (.illegalInstructionWord word) s = .next (t.takeTrap t.cur
        (if word.extractLsb' 25 6 = 0x3B#6 ∧ isSpring t.cur = false then 0x02 else 0x01) (word.zeroExtend 64) none 0)) ∧
    (winBase ≤ s.thr.pc.toNat → s.thr.vq = [] → exec .instructionFetchFault s = .next (s.takeTrap s.cur 0x06 s.thr.pc none 0)) ∧
    (s.thr.pc.toNat < winBase → s.walkFor s.cur .fetch s.thr.pc.toNat = .denied → s.thr.vq = [] →
      exec .instructionFetchFault s = .next (s.takeTrap s.cur 0x06 s.thr.pc none 0)) ∧
    (s.thr.pc.toNat < winBase → s.walkFor s.cur .fetch s.thr.pc.toNat = .park → s.thr.vq = [] →
      exec .instructionFetchFault s = .next (s.takePark s.cur s.thr.pc.toNat)) ∧
    (isSpring s.cur = false → s.thr.vq = [] → ∀ i ∈ [Instr.tres w d a b, .ctxsave w d a b, .ctxload w d a b, .tlbinvPage w a b,
        .tlbinvPartition w a b, .slotctlHold w a b, .slotctlRelease w a b, .slotctlKill w a b, .slotctlDebug w a b,
        .slotctlPool w a b, .wakepThread w a, .wakepAgent w a],
      exec i s = .next (s.takeTrap s.cur 0x02 s.wordAtPc none 0)) ∧
    (s.Ready w [a.toNat] → (s.afterW w).thr.vq = [] → ∀ i : BitVec 15, ((s.afterW w).thr.getG a.toNat).toNat % 4 ≠ 0 →
      exec (.callr w d a i) s = .next ((s.afterW w).takeTrap (s.afterW w).cur 0x07
        (BitVec.ofInt 64 (((s.afterW w).thr.getG a.toNat).toNat + 4 * i.toInt)) none 0))

/-- R28, R173, R224 to R226: YIELD waits until the thread's vector instructions have run and goes on, held where a launch of a higher
priority waits; HALT empties the slot, whose registers
stay as the thread left them, and counts the thread as halted, and its engine entries go on; TIMEWAIT goes on once pod time as
its core sees it has come. Each of them raises the lease trap inside a lease region.
MODEL'S CHOICE: the statement rests on the registers that a halted thread leaves in its emptied slot (entry 2), where a waiting thread keeps its PC (entry 26) and on the choice of c.gtime (entry 25). -/
def Obligations.ThreadControlResults : Prop :=
  ∀ (s : State) (w : Bool) (a : BitVec 5), s.Ready w [a.toNat] →
    let t := s.afterW w
    let v := t.thr.getG a.toNat
    (t.thr.region = none →
      (t.thr.vq = [] → (t.launchOf t.thr = none ∨ ∃ l, t.launchOf t.thr = some l ∧ t.waitingAbove t.thr.part l.prio = none) →
        exec (.yield w) s = .next (t.advance 4)) ∧
      (∀ l n, t.thr.vq = [] → t.launchOf t.thr = some l → t.waitingAbove t.thr.part l.prio = some n → t.ownsAcc t.cur = false →
        ∃ u, exec (.yield w) s = .next u ∧ u.thr.held = true ∧ u.thr.pc = t.thr.pc + 4 ∧ u.thr.g = t.thr.g) ∧
      (isSpring t.cur = false → t.ownsAcc t.cur = false → t.thr.lease = none → t.thr.vq = [] → t.unperformed t.cur = false →
        ∀ i l, t.thr.launch = some i → t.launches.get? i = some l →
        ∃ u, exec (.halt w) s = .next u ∧ u.thread t.cur = t.thr.vacated ∧ (∀ k, k ≠ t.cur → u.thread k = t.thread k) ∧
          u.launches.get? i = some { l with halted := l.halted ++ [t.thr.tid.toNat] } ∧ u.entries = t.entries ∧ u.mem = t.mem) ∧
      (isSpring t.cur = true → t.thr.vq = [] → t.unperformed t.cur = false →
        ∃ u, exec (.halt w) s = .next u ∧ (u.thread t.cur).st = .empty ∧ (u.thread t.cur).g = t.thr.g) ∧
      (v.toNat + 4 ≤ t.podTime → exec (.timewait w a) s = .next ({ t with fresh := t.fresh + 1 }.advance 4)) ∧
      (t.podTime < v.toNat → exec (.timewait w a) s =
        .next ({ t with fresh := t.fresh + 1 }.putThr { t.thr with timewait := some v }))) ∧
    (t.thr.region.isSome = true → t.thr.vq = [] → ∀ i ∈ [Instr.yield w, .halt w, .timewait w a],
      exec i s = .next (t.takeTrap t.cur 0x0B 3 none 0))

/-! ## Supervisor instructions -/

/-- R231 to R233, R239, R407: slot ids; TRES resumes a thread parked by a trap whose serial matches, and gives 0; 2 where its code
is gone, with a new record of cause CODE_GONE; 1 with no effect otherwise, as for a thread that a CTXSAVE holds. WAKEP lets a
thread parked on a page go on, and the accesses that a unit holds retry in the order of their records; anything else ignores
it.
MODEL'S CHOICE: the statement rests on the bits of a slot id that are not looked at (entry 46), on when code is gone (entry 49), on the rows of one word (entry 84) and the first check of TRES (entry 123). -/
def Obligations.ResumeResults : Prop :=
  (∀ (s : State) (k : Nat), k < 32768 → sidKey ((s.place k).zeroExtend 64) = k) ∧
  ∀ (s : State) (w : Bool) (d a b : BitVec 5), isSpring s.cur = true → s.Ready w [a.toNat, b.toNat] →
    let t := s.afterW w
    let x := t.thr.getG a.toNat
    let y := t.thr.getG b.toNat
    let k := sidKey x
    let h := t.thread k
    let trap (c : Nat) (v : Word) : Host.Outcome State Fault Refusal := s.trapAfter t c v
    let done (u : State) (v : Nat) : Host.Outcome State Fault Refusal :=
      .next ((u.addPend (if d = 0 then [] else [(d.toNat, BitVec.ofNat 64 v)])).advance 4)
    (sidCheck t x = .ok () ↔ bitsOf x.toNat 15 7 = t.dev.pkg.toNat ∧ (t.part t.thr.part).clus.getLsbD (sidCluster x) = true) ∧
    (sidCheck t x ≠ .ok () →
      (∀ i ∈ [Instr.tres w d a b, .ctxsave w d a b, .ctxload w d a b], exec i s = trap 0x06 x) ∧
      (y.toNat % 16 < 4 ∨ (y.toNat % 16 = 4 ∧ x.getLsbD 22 = true) → ∀ i ∈ [Instr.slotctlHold w a b, .slotctlRelease w a b,
        .slotctlKill w a b, .slotctlDebug w a b, .slotctlPool w a b], exec i s = trap 0x06 x) ∧
      (x.getLsbD 31 = false → ∀ i ∈ [Instr.wakepThread w a, .wakepAgent w a], exec i s = trap 0x06 x)) ∧
    (sidCheck t x = .ok () →
      (y.toNat % 4 ≠ 0 → exec (.tres w d a b) s = trap 0x07 y) ∧
      (y.toNat % 4 = 0 →
        (h.st = .parkedTrap → h.saving = false → h.serial = x.extractLsb' 32 32 → h.gone = false →
          exec (.tres w d a b) s = done (t.setThread k { h with st := .running, pc := y }) 0) ∧
        (h.st = .parkedTrap → h.saving = false → h.serial = x.extractLsb' 32 32 → h.gone = true →
          ∃ u, exec (.tres w d a b) s = done u 2 ∧ (u.thread k).st = .parkedTrap ∧ (u.thread k).pc = h.pc ∧
            (u.thread k).serial = BitVec.ofNat 6 (clusterOf k) ++ (t.cluster (clusterOf k)).serialCount) ∧
        (h.st ≠ .parkedTrap ∨ h.saving = true ∨ h.serial ≠ x.extractLsb' 32 32 → exec (.tres w d a b) s = done t 1)) ∧
      (x.getLsbD 31 = false → ∀ i ∈ [Instr.wakepThread w a, .wakepAgent w a],
        exec i s = .next ((if h.st = .parkedPage then t.setThread k { h with st := .running } else t).advance 4))) ∧
    (x.getLsbD 31 = true → ∀ i ∈ [Instr.wakepThread w a, .wakepAgent w a],
      let kind := x.toNat % 64
      (kind = 1 → bitsOf x.toNat 15 7 = t.dev.pkg.toNat → exec i s = .next ((t.wakeUnit 1 0).advance 4)) ∧
      (kind = 1 → bitsOf x.toNat 15 7 ≠ t.dev.pkg.toNat → exec i s = trap 0x06 x) ∧
      (kind ≠ 1 → sidCheck t x = .ok () →
        exec i s = .next ((if kind ≤ 3 then t.wakeUnit kind (sidCluster x) else t).advance 4)) ∧
      (kind ≠ 1 → sidCheck t x ≠ .ok () → exec i s = trap 0x06 x) ∧
      (∀ c, let reached (h : Nat × Nat) : Bool := h.1 == unitKey kind c || (kind == 3 && h.1 == unitKey 4 c)
        (t.wakeUnit kind c).holds = t.holds.filter (fun h => !reached h) ∧
          (t.wakeUnit kind c).woken = t.woken ++ t.holds.filter reached))

/-- R26, R67, R234, R235, R261, R269, R276: TLBINV waits until no translation that it covers is in use, and no byte on its way home
is held; one of kind 1 puts the roots that were written in force. SLOTCTL applies its operation to the slot that g[a] names, or to
the 16 slots of its core; an EMPTY slot has no thread to act on; an operation that is reserved, or a POOL whose value no core may
have, is illegal whatever slot is named. MODEL'S CHOICE: a killed slot keeps its general registers (log entry 2), what the
bits of the operands do that the rule gives no outcome (46), what is read of the slots (48, 84), and what holds a POOL (107).
MODEL'S CHOICE: the statement rests on the registers that a killed thread leaves in its emptied slot (entry 2), the bits of a slot id and of g[b] that are not looked at (entry 46), on TLBINV (entry 48), on the rows of one word (entry 84), on what a change of c.pool does to scratch (entry 107), on the place of the checks that the state decides (entry 118) and on a KILL during a gang operation (entry 119). -/
def Obligations.SteeringResults : Prop :=
  ∀ (s : State) (w : Bool) (a b : BitVec 5), isSpring s.cur = true → s.Ready w [a.toNat, b.toNat] →
    let t := s.afterW w
    let x := t.thr.getG a.toNat
    let y := t.thr.getG b.toNat
    let v := y.toNat
    let k := sidKey x
    let h := t.thread k
    let trap (c : Nat) (v : Word) : Host.Outcome State Fault Refusal := s.trapAfter t c v
    (∀ i ∈ [Instr.tlbinvPage w a b, .tlbinvPartition w a b],
      let part := v / 2 ^ 16 % 256
      let legal := v / 2 ^ 24 = 0 ∧ part ≤ 7 ∧ v / 2 ^ 7 % 2 ^ 9 = 0 ∧ v / 16 % 8 ≤ 4 ∧ v % 16 ≤ 1
      (¬ legal → exec i s = trap 0x01 t.wordAtPc) ∧
      (legal → part ≠ t.thr.part → exec i s = trap 0x06 y) ∧
      (legal → part = t.thr.part →
        let covers (page : Nat) : Bool :=
          v % 16 == 1 || page * 4096 / 2 ^ tlbBits (v / 16 % 8) == x.toNat / 2 ^ tlbBits (v / 16 % 8)
        (t.tlbBusy part covers = true ∨ t.flushPartHeld part = true → exec i s = .next s) ∧
        (t.tlbBusy part covers = false → t.flushPartHeld part = false → ∃ u : State, exec i s = .next (u.advance 4) ∧ u.thr.g = t.thr.g ∧ u.thr.pc = t.thr.pc ∧
          u.part part = (if v % 16 = 1
            then { t.part part with uEff := (t.part part).uroot, sEff := (t.part part).sroot } else t.part part)))) ∧
    (∀ i ∈ [Instr.slotctlHold w a b, .slotctlRelease w a b, .slotctlKill w a b, .slotctlDebug w a b, .slotctlPool w a b],
      let pool := v / 2 ^ 32 % 2 ^ 24
      (4 < v % 16 ∨ (v % 16 = 4 ∧ (x.getLsbD 22 = false ∨ poolForm pool = false)) → exec i s = trap 0x01 t.wordAtPc) ∧
      (sidCheck t x = .ok () →
        (v % 16 = 4 → x.getLsbD 22 = true → poolForm pool = true →
          (t.poolOk (sidCore x) pool = false → exec i s = trap 0x01 t.wordAtPc) ∧
          (t.poolOk (sidCore x) pool = true → exec i s = .next (
            if t.poolHeld (sidCore x) pool then s else (t.setPool (sidCore x) pool).advance 4))) ∧
        (x.getLsbD 22 = false → h.st = .empty → v % 16 < 4 → exec i s = .next (t.advance 4)) ∧
        (x.getLsbD 22 = false → h.st ≠ .empty →
          (v % 16 = 0 → exec i s = .next ((t.setThread k { h with held := true }).advance 4)) ∧
          (v % 16 = 1 → exec i s = .next ((t.setThread k { h with held := false, saving := false }).advance 4)) ∧
          (v % 16 = 2 → ∃ u, exec i s = .next u ∧ (u.thread k).st = .empty ∧ (u.thread k).g = h.g ∧ u.entries = t.entries ∧
            ∀ j l, isSpring k = false → h.launch = some j → t.launches.get? j = some l →
              ∃ m, u.launches.get? j = some m ∧ h.tid.toNat ∈ m.halted ∧ h.tid.toNat ∈ m.killed) ∧
          (v % 16 = 3 → exec i s = .next ((t.setThread k { h with dbg := y.extractLsb' 32 2 }).advance 4))) ∧
        (x.getLsbD 22 = true → v % 16 ∈ [0, 1, 3] → ∃ u : State, exec i s = .next (u.advance 4) ∧ u.mem = t.mem ∧
          ∀ j, u.thread j = if j / 16 = sidCore x ∧ (t.thread j).st ≠ .empty
            then (if v % 16 = 0 then { t.thread j with held := true }
              else if v % 16 = 1 then { t.thread j with held := false, saving := false }
              else { t.thread j with dbg := y.extractLsb' 32 2 })
            else t.thread j) ∧
        (x.getLsbD 22 = true → v % 16 = 2 → ∃ u, exec i s = .next u ∧ u.entries = t.entries ∧
          ∀ j, j / 16 = sidCore x → (u.thread j).st = .empty ∧
            ∀ n l, isSpring j = false → (t.thread j).st ≠ .empty → (t.thread j).launch = some n → t.launches.get? n = some l →
              ∃ m, u.launches.get? n = some m ∧ (t.thread j).tid.toNat ∈ m.halted ∧ (t.thread j).tid.toNat ∈ m.killed)))

/-- R154, R235, R236: CTXSAVE. An EMPTY slot gives 1, keep with a thread that is not parked 2, a page check that fails 3. The thread,
or the gang's threads that have not halted, are held and go to their boundary, and the instruction waits for it; then each is
written to its block, the hold ends, each leaves its slot unless kept, and the result is 0. The dirty STRM bytes of their cores go home first, since the
threads may resume elsewhere (log entry 47). What the block of a halted thread of a
gang holds is the model's choice (log entry 98). -/
def Statement.ContextSave : Prop :=
  ∀ (s : State) (w : Bool) (d a b : BitVec 5), isSpring s.cur = true → s.Ready w [a.toNat, b.toNat] →
    let t := s.afterW w
    let x := t.thr.getG a.toNat
    let y := t.thr.getG b.toNat
    let k := sidKey x
    let h := t.thread k
    let keep := y.getLsbD 0
    let va := y.toNat / 256 * 256
    let parked := h.st = .parkedPage ∨ h.st = .parkedTrap
    let done (u : State) (v : Nat) : Host.Outcome State Fault Refusal :=
      .next ((u.addPend (if d = 0 then [] else [(d.toNat, BitVec.ofNat 64 v)])).advance 4)
    sidCheck t x = .ok () →
    (h.st = .empty → exec (.ctxsave w d a b) s = done t 1) ∧
    (h.st ≠ .empty → keep = true → ¬ parked → h.saving = false → exec (.ctxsave w d a b) s = done t 2) ∧
    (h.st ≠ .empty → (keep = true → parked ∨ h.saving = true) →
      let gang := t.ownsAcc k
      let ks := t.saveSet k
      let u := (ks.foldl State.settle (t.holdAll true ks)).settleGang k
      let src (j : Nat) : State := if ks.contains j then u else u.setThread j (u.haltedThread k j)
      let block (e : Nat × Nat) : Option (Nat × Nat × List Span) :=
        let at_ := va + e.2 * 0x24000
        (blockParts u .store at_ (blockLen ((src e.1).thread e.1).budget gang)).map (fun sp => (e.1, at_, sp))
      let places := (if gang then gangSlots k else ks).zipIdx
      (u.saveWaits ks = true → exec (.ctxsave w d a b) s = .next u) ∧
      (u.saveWaits ks = false →
        ((∃ e ∈ places, block e = none) → exec (.ctxsave w d a b) s = done u 3) ∧
        (∀ bs, places.mapM block = some bs →
          let waits := u.portHeld u.cur || u.thr.memQueued || u.partsHeld u.cur (bs.flatMap (fun e => e.2.2)) ||
            ks.any (fun j => u.flushHeld (coreOf j))
          let home := ks.foldl (fun s j => s.flushStrm (coreOf j) (fun _ => true)) u
          (waits = true → exec (.ctxsave w d a b) s = .next u) ∧
          (waits = false →
            let v := (bs.foldl (fun s e => s.writeBlock (src e.1) e.1 gang e.2.2) home).holdAll false ks
            let left := (bs.filter (fun e => ks.contains e.1)).foldl (fun s e => s.leave e.1 e.2.1) v
            exec (.ctxsave w d a b) s = done (if keep then v else if gang then left.releaseAcc (quadOfCore (coreOf k)) else left) 0))))

/-- R238, R347, R389: CTXLOAD gives 1 where a needed slot is taken, 4 where a read of the block fails a page check, 2 for a block or
launch it does not accept, 3 where a core has no room for the registers or for a grant of the launch; else it places the threads of
the blocks and gives 0. -/
def Statement.ContextLoad : Prop :=
  ∀ (s : State) (w : Bool) (d a b : BitVec 5), isSpring s.cur = true → s.Ready w [a.toNat, b.toNat] →
    let t := s.afterW w
    let x := t.thr.getG a.toNat
    let k := sidKey x
    let va := (t.thr.getG b.toNat).toNat / 256 * 256
    let done (u : State) (v : Nat) : Host.Outcome State Fault Refusal :=
      .next ((u.addPend (if d = 0 then [] else [(d.toNat, BitVec.ofNat 64 v)])).advance 4)
    sidCheck t x = .ok () →
    ((t.thread k).st ≠ .empty → exec (.ctxload w d a b) s = done t 1) ∧
    ((t.thread k).st = .empty →
      (blockParts t .load va 0x1400 = none → exec (.ctxload w d a b) s = done t 4) ∧
      (∀ hsp, blockParts t .load va 0x1400 = some hsp → t.portHeld t.cur = false → t.thr.memQueued = false →
        t.partsHeld t.cur hsp = false →
        let gang := bitAt (fieldOf (t.loadParts t.cur hsp) 0x1C 4) 0
        let ks := if gang then gangSlots k else [k]
        let block (i : Nat) : Option (Nat × List Span) :=
          (readBlock t (va + i * 0x24000) 0x1400).bind (fun h =>
            readBlock t (va + i * 0x24000) (blockLen (8 * 2 ^ (fieldOf h.1 7 1 % 4)) gang))
        ((∃ j ∈ ks, (t.thread j).st ≠ .empty) → exec (.ctxload w d a b) s = done t 1) ∧
        ((∀ j ∈ ks, (t.thread j).st = .empty) →
          ((∃ e ∈ ks.zipIdx, block e.2 = none) → exec (.ctxload w d a b) s = done t 4) ∧
          (∀ bs, ks.zipIdx.mapM (fun e => block e.2) = some bs → t.partsHeld t.cur (bs.flatMap (fun e => e.2)) = false →
            let lid (e : Nat × List Span) : Option Nat := t.launchNumbered t.thr.part (fieldOf e.1 0x14 4)
            ((∃ e ∈ bs, blockOk e.1 = false ∨ lid e = none) → exec (.ctxload w d a b) s = done t 2) ∧
            (∀ lids, (∀ e ∈ bs, blockOk e.1 = true) → bs.mapM lid = some lids →
              let rows := ks.zip (bs.zip lids)
              let room (e : Nat × (Nat × List Span) × Nat) : Bool :=
                t.coreTakes (coreOf e.1) t.thr.part (8 * 2 ^ (fieldOf e.2.1.1 7 1))
              let placed : Option State := rows.foldlM (fun (s : State) e => s.place1 e.1 e.2.2 gang e.2.1.1 e.2.1.2) t
              ((∃ e ∈ rows, room e = false) ∨ placed = none → exec (.ctxload w d a b) s = done t 3) ∧
              (∀ u, (∀ e ∈ rows, room e = true) → placed = some u → exec (.ctxload w d a b) s = done u 0))))))

/-- R237: a thread read back from its context block has the PC, the general, vector and mask registers, the mask stack, the
control registers and the generators it was saved with. -/
def Statement.ContextBlockRoundTrip : Prop :=
  ∀ (s : State) (k lid part now uid : Nat) (poison : List Nat),
    let t := s.thread k
    let x := blockBytes s k false
    let u := blockThread x lid part now uid poison
    t.budget ∈ [8, 16, 32, 64] →
    fieldOf x 0 4 = 0x01435458 ∧ fieldOf x 4 2 = 1 ∧ fieldOf x 0x14 4 = (match s.launchOf t with
      | some l => l.num.toNat
      | none => 0) ∧
    u.pc = t.pc ∧ u.tid = t.tid ∧ u.budget = t.budget ∧ (∀ r < 32, u.getG r = t.getG r) ∧
    (∀ r < t.budget, u.getV r = t.getV r) ∧ (∀ m, 0 < m → m < 8 → u.getM m = t.getM m) ∧
    (∀ i < 16, u.stack.getD i ⟨false, 0, 0, 0⟩ = t.stack.getD i ⟨false, 0, 0, 0⟩) ∧
    u.vl = t.vl ∧ u.vstart = t.vstart ∧ u.mstart = t.mstart ∧ u.mdepth = t.mdepth ∧ u.fmtA = t.fmtA ∧ u.fmtB = t.fmtB ∧
    u.fmtC = t.fmtC ∧ u.scaleA = t.scaleA ∧ u.scaleB = t.scaleB ∧ u.frm = t.frm ∧ u.fflags = t.fflags ∧ u.srseed = t.srseed ∧
    u.leasemax = t.leasemax ∧ u.marchLimit = t.marchLimit ∧ u.dbg = t.dbg ∧ u.latch = t.latch ∧ u.joined = t.joined ∧
    u.gone = t.gone ∧ (∀ q < 5, u.err.getD q 0 = t.err.getD q 0 % 256) ∧ (∀ l < 32, u.lfsr.getD l 0 = t.lfsr.getD l (lfsrSeed 0 l)) ∧
    (t.st = .parkedTrap → u.st = .parkedTrap ∧ u.serial = t.serial)

/-! ## Vector arithmetic -/

/-- R116, R118, R122: the integer operations on v[a] and v[b], or with g[b] for every element of v[b], and the widening forms:
each active element of v[d] takes the result of the table. -/
def Statement.VectorIntegerResults : Prop :=
  ∀ (s : State) (w : Bool) (d a b : BitVec 5) (m : BitVec 3) (p : BitVec 6),
    let t := s.afterW w
    let vl := t.thr.vl.toNat
    (let n := t.thr.ew d.toNat
      let cnt := t.thr.count d.toNat
      let idx := t.active m.toNat n cnt
      let ua (j : Nat) : Nat := t.thr.elem a.toNat j n
      let ud (j : Nat) : Nat := t.thr.elem d.toNat j n
      (∀ (i : Instr) (c : BitVec 6) (scalar : Bool),
        (i, c, scalar) ∈
          [(Instr.vadd w d a b m, 0x00, false), (.vsub w d a b m, 0x01, false), (.vmul w d a b m, 0x02, false),
           (.vmulh w d a b m, 0x03, false), (.vmulhn w d a b m, 0x04, false), (.vmadd w d a b m, 0x05, false),
           (.vdiv w d a b m, 0x06, false), (.vdivn w d a b m, 0x07, false), (.vrem w d a b m, 0x08, false),
           (.vremn w d a b m, 0x09, false), (.vand w d a b m, 0x0A, false), (.vor w d a b m, 0x0B, false),
           (.vxor w d a b m, 0x0C, false), (.vsll w d a b m, 0x0D, false), (.vsrl w d a b m, 0x0E, false),
           (.vsra w d a b m, 0x0F, false), (.vmin w d a b m, 0x10, false), (.vmax w d a b m, 0x11, false),
           (.vminn w d a b m, 0x12, false), (.vmaxn w d a b m, 0x13, false), (.vsadd w d a b m, 0x14, false),
           (.vsaddn w d a b m, 0x15, false), (.vssub w d a b m, 0x16, false), (.vssubn w d a b m, 0x17, false),
           (.vintG w d a b m p, p, true)] →
        ∀ dest f, (c, dest, f) ∈ vecIntTable n → s.VecReady w (if scalar then [b.toNat] else []) →
          sameForm t vl fmtIsInt d.toNat (a.toNat :: if scalar then [] else [b.toNat]) = .ok () →
          t.Sound m.toNat cnt (idx.flatMap (fun j =>
            [⟨a.toNat, j, n⟩] ++ (if scalar then [] else [⟨b.toNat, j, n⟩]) ++ if dest then [⟨d.toNat, j, n⟩] else [])) →
          let ub (j : Nat) : Nat := if scalar then (t.thr.getG b.toNat).toNat % 2 ^ n else t.thr.elem b.toNat j n
          ∃ u, exec i s = .next u ∧
            t.Wrote u d.toNat n 0 (fun j => if j ∈ idx then some (f (ua j) (ub j) (ud j)) else none)) ∧
      (s.VecReady w [] → sameForm t vl fmtIsInt d.toNat [a.toNat] = .ok () →
        t.Sound m.toNat cnt (idx.map (fun j => ⟨a.toNat, j, n⟩)) →
        ∃ u, exec (.vabs w d a m) s = .next u ∧
          t.Wrote u d.toNat n 0 (fun j => if j ∈ idx then some (truncInt (signedOf (ua j) n).natAbs n) else none))) ∧
    (let n := t.thr.ew a.toNat
      let cnt := t.thr.count d.toNat
      let idx := t.active m.toNat (2 * n) cnt
      let val (x : Nat) : Int := if fmtIsSigned (t.thr.fmt a.toNat) then signedOf x n else x
      ∀ (i : Instr) (scalar : Bool) (f : Int → Int → Int),
        (i, scalar, f) ∈ [(Instr.vwadd w d a b m, false, fun x y => x + y), (.vwmul w d a b m, false, fun x y => x * y),
          (.vintG w d a b m 0x28, true, fun x y => x + y), (.vintG w d a b m 0x29, true, fun x y => x * y)] →
        s.VecReady w (if scalar then [b.toNat] else []) →
        wideForm t vl d.toNat a.toNat (if scalar then [] else [b.toNat]) = .ok () →
        t.Sound m.toNat cnt (idx.flatMap (fun j => [⟨a.toNat, j, n⟩] ++ if scalar then [] else [⟨b.toNat, j, n⟩])) →
        let ub (j : Nat) : Nat := if scalar then (t.thr.getG b.toNat).toNat % 2 ^ n else t.thr.elem b.toNat j n
        ∃ u, exec i s = .next u ∧ t.Wrote u d.toNat (2 * n) 0 (fun j =>
          if j ∈ idx then some (truncInt (f (val (t.thr.elem a.toNat j n)) (val (ub j))) (2 * n)) else none))

/-- R117, R121, R122: a compare puts the relation of each active element into its bit of m[d], and 0 into every other bit. -/
def Statement.VectorCompareResults : Prop :=
  ∀ (s : State) (w : Bool) (d : BitVec 3) (ds a b : BitVec 5) (m : BitVec 3) (p : BitVec 6), ds.toNat = d.toNat →
    let t := s.afterW w
    let n := t.thr.ew a.toNat
    let cnt := t.thr.count a.toNat
    let idx := t.active m.toNat n cnt
    let fp := fmtFp (t.thr.fmt a.toNat)
    ∀ (i : Instr) (c : BitVec 6) (scalar float : Bool),
      (i, c, scalar, float) ∈
        [(Instr.vcmpeq w d a b m, 0x20, false, false), (.vcmpne w d a b m, 0x21, false, false),
         (.vcmplt w d a b m, 0x22, false, false), (.vcmpge w d a b m, 0x23, false, false),
         (.vcmpltn w d a b m, 0x24, false, false), (.vcmpgen w d a b m, 0x25, false, false),
         (.vfcmpeq w d a b m, 0x20, false, true), (.vfcmplt w d a b m, 0x21, false, true),
         (.vfcmple w d a b m, 0x22, false, true), (.vfcmpun w d a b m, 0x23, false, true),
         (.vintG w ds a b m p, p, true, false), (.vfloatG w ds a b m p, p, true, true)] →
      ∀ rel, (c, rel) ∈ (if float then vecCmpFltTable fp else (vecCmpTable n).map (fun e => (e.1, fun x y => (e.2 x y, 0)))) →
        s.VecReady w (if scalar then [b.toNat] else []) →
        sameForm t t.thr.vl.toNat (if float then fmtIsFloat else fmtIsInt) a.toNat (if scalar then [] else [b.toNat]) = .ok () →
        t.Sound m.toNat cnt (idx.flatMap (fun j => [⟨a.toNat, j, n⟩] ++ if scalar then [] else [⟨b.toNat, j, n⟩])) →
        let ua (j : Nat) : Nat := t.thr.elem a.toNat j n
        let ub (j : Nat) : Nat := if scalar then (t.thr.getG b.toNat).toNat % 2 ^ n else t.thr.elem b.toNat j n
        ∃ u, exec i s = .next u ∧ t.WroteMask u d.toNat (idx.foldl (fun f j => f ||| (rel (ua j) (ub j)).2) 0)
          (fun j => decide (j ∈ idx) && (rel (ua j) (ub j)).1)

/-- R119, R120, R122: the floating-point operations, each result rounded once in c.frm, with the flags of the active elements
ORed into c.fflags; VFCLASS puts the class of each active element.
MODEL'S CHOICE: the statement rests on when a vector instruction executes (entry 18), which captures c.vl and c.vstart (entry 92), on flags of a result that rounds to zero (entry 29), the sign of a zero (entry 91) and the checks of a widening form (entry 88). -/
def Obligations.VectorFloatResults : Prop :=
  ∀ (s : State) (w : Bool) (d a b : BitVec 5) (m : BitVec 3) (p : BitVec 6),
    let t := s.afterW w
    let vl := t.thr.vl.toNat
    let n := t.thr.ew d.toNat
    let cnt := t.thr.count d.toNat
    let idx := t.active m.toNat n cnt
    let fp := fmtFp (t.thr.fmt d.toNat)
    let mode := frmMode t.thr.frm.toNat
    let ua (j : Nat) : Nat := t.thr.elem a.toNat j n
    let ud (j : Nat) : Nat := t.thr.elem d.toNat j n
    let wrote (u : State) (f : Nat → Nat × Flags) : Prop :=
      t.Wrote u d.toNat n (idx.foldl (fun g j => g ||| (f j).2) 0) (fun j => if j ∈ idx then some ((f j).1 % 2 ^ n) else none)
    (∀ (i : Instr) (c : BitVec 6) (scalar : Bool),
      (i, c, scalar) ∈
        [(Instr.vfadd w d a b m, 0x00, false), (.vfsub w d a b m, 0x01, false), (.vfmul w d a b m, 0x02, false),
         (.vfdiv w d a b m, 0x03, false), (.vfma w d a b m, 0x04, false), (.vfms w d a b m, 0x05, false),
         (.vfnma w d a b m, 0x06, false), (.vfmin w d a b m, 0x07, false), (.vfmax w d a b m, 0x08, false),
         (.vfsgnj w d a b m, 0x09, false), (.vfsgnjn w d a b m, 0x0A, false), (.vfloatG w d a b m p, p, true)] →
      ∀ dest f, (c, dest, f) ∈ vecFltTable fp mode → s.VecReady w (if scalar then [b.toNat] else []) →
        sameForm t vl fmtIsFloat d.toNat (a.toNat :: if scalar then [] else [b.toNat]) = .ok () →
        t.Sound m.toNat cnt (idx.flatMap (fun j =>
          [⟨a.toNat, j, n⟩] ++ (if scalar then [] else [⟨b.toNat, j, n⟩]) ++ if dest then [⟨d.toNat, j, n⟩] else [])) →
        let ub (j : Nat) : Nat := if scalar then (t.thr.getG b.toNat).toNat % 2 ^ n else t.thr.elem b.toNat j n
        ∃ u, exec i s = .next u ∧ wrote u (fun j => f (ua j) (ub j) (ud j))) ∧
    (∀ (i : Instr) (c : BitVec 6),
      (i, c) ∈ [(Instr.vfsqrt w d a m, 0x10), (.vfrcp w d a m, 0x11), (.vfrsqrt w d a m, 0x12), (.vfexp2 w d a m, 0x13),
        (.vflog2 w d a m, 0x14), (.vfabs w d a m, 0x15), (.vfneg w d a m, 0x16)] →
      ∀ f, (c, f) ∈ vecUnaryTable fp mode → s.VecReady w [] → sameForm t vl fmtIsFloat d.toNat [a.toNat] = .ok () →
        t.Sound m.toNat cnt (idx.map (fun j => ⟨a.toNat, j, n⟩)) →
        ∃ u, exec i s = .next u ∧ wrote u (fun j => f (ua j))) ∧
    (s.VecReady w [] → boundCheck t [d.toNat, a.toNat] [] = .ok () →
      tagCheck t vl [(d.toNat, fun x y => x == (if t.thr.ew a.toNat = 32 then 0x06 else if t.thr.ew a.toNat = 64 then 0x08 else 0x04) &&
        y == t.thr.grp a.toNat), (a.toNat, fun x _ => fmtIsFloat x)] = .ok () →
      t.Sound m.toNat cnt (idx.map (fun j => ⟨a.toNat, j, n⟩)) →
      let fa := fmtFp (t.thr.fmt a.toNat)
      let cls (x : Nat) : Nat :=
        let sub : Bool := x / 2 ^ fa.fbits % 2 ^ (n - 1 - fa.fbits) = 0
        match decodeFp fa x with
        | .inf true => 2 ^ 0
        | .fin true _ _ => if sub then 2 ^ 2 else 2 ^ 1
        | .zero true => 2 ^ 3
        | .zero false => 2 ^ 4
        | .fin false _ _ => if sub then 2 ^ 5 else 2 ^ 6
        | .inf false => 2 ^ 7
        | .nan => 2 ^ 8
      ∃ u, exec (.vfclass w d a m) s = .next u ∧ wrote u (fun j => (cls (ua j), 0)))

/-- R41, R42, R46, R49 to R51, R123 to R125: the conversions. Under SR the generator of each element's lane steps once, in
element order; VCVT.DS writes whole blocks and their scale bytes.
MODEL'S CHOICE: the statement rests on when a vector instruction executes (entry 18), which captures c.vl and c.vstart (entry 92) and on the order of the checks and writes of a conversion (entries 89, 90 and 118). -/
def Obligations.VectorConversionResults : Prop :=
  ∀ (s : State) (w : Bool) (d a b : BitVec 5) (m r : BitVec 3), s.VecReady w [] →
    let t := s.afterW w
    let vl := t.thr.vl.toNat
    let vs := t.thr.vstart.toNat
    let fa := t.thr.fmt a.toNat
    let fd := t.thr.fmt d.toNat
    let na := t.thr.ew a.toNat
    let nd := t.thr.ew d.toNat
    let cnt := t.thr.count d.toNat
    let ua (j : Nat) : Nat := t.thr.elem a.toNat j na
    let drawn (idx : List Nat) := drawLanes na idx t.thr.lfsr
    let mode (idx : List Nat) (j : Nat) : RMode :=
      if r = 4 then .sr (Tab.getD (drawn idx).1 j 0) else if r = 7 then frmMode t.thr.frm.toNat else frmMode r.toNat
    let stepped (idx : List Nat) : State := t.putThr (if r = 4 then { t.thr with lfsr := (drawn idx).2 } else t.thr)
    let place (v n j : Nat) : Nat :=
      let k := if n = 4 then 8 else 4
      (v + j * n / 1024) % (128 / k) * k + j / 32 % k
    let act := t.active m.toNat nd cnt
    let wrote (u : State) (f : Nat → Nat × Flags) : Prop :=
      (stepped act).Wrote u d.toNat nd (act.foldl (fun g j => g ||| (f j).2) 0)
        (fun j => if j ∈ act then some ((f j).1 % 2 ^ nd) else none)
    let int (x : Nat) : Int := if fmtIsSigned fa then signedOf x na else x
    let val (x : Nat) : Val := if fmtIsInt fa then Val.ofInt (int x) else decodeFp (fmtFp fa) x
    (cvtForm t vl d.toNat a.toNat r.toNat cvtFmt cvtFmt none = .ok () →
      t.Sound m.toNat cnt (act.map (fun j => ⟨a.toNat, j, na⟩)) →
      ∃ u, exec (.vcvt w d a m r) s = .next u ∧ wrote u (fun j =>
        if fmtIsInt fa ∧ fmtIsInt fd then (truncInt (int (ua j)) nd, 0)
        else if fmtIsInt fd then roundToInt (fmtIsSigned fd) nd (mode act j) (val (ua j))
        else roundTo (fmtFp fd) (mode act j) (val (ua j)))) ∧
    (cvtForm t vl d.toNat a.toNat r.toNat fmtIsInt fmtIsInt none = .ok () →
      t.Sound m.toNat cnt (act.map (fun j => ⟨a.toNat, j, na⟩)) →
      ∃ u, exec (.vcvtSat w d a m r) s = .next u ∧ wrote u (fun j =>
        (truncInt (if fmtIsSigned fd then satS (int (ua j)) nd else satN (int (ua j)) nd) nd, 0))) ∧
    (cvtForm t vl d.toNat a.toNat r.toNat fmtIsFloat blockFmt (some (b.toNat, if fa = 0x10 then 0x12 else 0x11, d.toNat)) = .ok () →
      t.Sound m.toNat cnt (act.flatMap (fun j => [⟨a.toNat, j, na⟩, ⟨b.toNat, place a.toNat na j, 8⟩])) →
      ∃ u, exec (.vcvtSc w d a b m r) s = .next u ∧ wrote u (fun j =>
        roundTo (fmtFp fd) (mode act j) (scaledValue fa (some (t.thr.elem b.toNat (place a.toNat na j) 8)) (ua j)))) ∧
    (vl % 32 = 0 → vs % 32 = 0 →
      cvtForm t vl d.toNat a.toNat r.toNat blockFmt fmtIsFloat (some (b.toNat, if fd = 0x10 then 0x12 else 0x11, a.toNat)) = .ok () →
      let all := (List.range vl).drop vs
      (∀ j ∈ all, t.thr.elemPoisoned a.toNat j na = false) →
      let block (k : Nat) : Nat × List Nat × Flags :=
        let xs := (List.range 32).map (fun i => (decodeFp (fmtFp fa) (ua (32 * k + i)), mode all (32 * k + i)))
        if fd = 0x10 then vf4Block xs else mxBlock fd xs
      let blocks := (List.range (vl / 32)).drop (vs / 32)
      ∃ u, exec (.vcvtDs w d a b r) s = .next u ∧ (stepped all).SameBut u ∧
        (∀ x, x ≠ b.toNat → ¬ (d.toNat ≤ x ∧ x < d.toNat + t.thr.grp d.toNat) → u.thr.getV x = t.thr.getV x) ∧
        (¬ (d.toNat ≤ b.toNat ∧ b.toNat < d.toNat + t.thr.grp d.toNat) →
        (∀ k ∈ blocks, (∀ i < 32, u.thr.elem d.toNat (32 * k + i) nd = (block k).2.1.getD i 0 % 2 ^ nd) ∧
          u.thr.elem b.toNat (place d.toNat nd (32 * k)) 8 = (block k).1 % 256) ∧
        (∀ j, j ∉ all → u.thr.elem d.toNat j nd = t.thr.elem d.toNat j nd) ∧
        ∀ j, (∀ k ∈ blocks, j ≠ place d.toNat nd (32 * k)) → u.thr.elem b.toNat j 8 = t.thr.elem b.toNat j 8) ∧
        u.thr.vstart = 0 ∧ u.thr.pc = t.thr.pc + 4 ∧ u.thr.g = t.thr.g ∧ u.thr.m = t.thr.m ∧
        u.thr.fflags = t.thr.fflags ||| BitVec.ofNat 5 (blocks.foldl (fun f k => f ||| (block k).2.2) 0))

/-- R112, R126 to R128: moves, slides, picks, packing and spreading within the first c.vl elements. -/
def Statement.VectorMovementResults : Prop :=
  ∀ (s : State) (w : Bool) (d a b : BitVec 5) (m : BitVec 3),
    let t := s.afterW w
    let vl := t.thr.vl.toNat
    let n := t.thr.ew d.toNat
    let cnt := t.thr.count d.toNat
    let idx := t.active m.toNat n cnt
    let ua (j : Nat) : Nat := t.thr.elem a.toNat j n
    let wrote (u : State) (f : Nat → Option Nat) : Prop := t.Wrote u d.toNat n 0 (fun j => if j ∈ idx then f j else none)
    let y := t.thr.getG b.toNat
    let same (os : List Nat) : Prop := sameForm t vl (fun _ => true) d.toNat os = .ok ()
    (s.VecReady w [] → same [a.toNat] → t.Sound m.toNat cnt (idx.map (fun j => ⟨a.toNat, j, n⟩)) →
      ∃ u, exec (.vmv w d a m) s = .next u ∧ wrote u (fun j => some (ua j))) ∧
    (s.VecReady w [a.toNat] → same [] → t.Sound m.toNat cnt [] →
      ∃ u, exec (.vsplat w d a m) s = .next u ∧ wrote u (fun _ => some ((t.thr.getG a.toNat).toNat % 2 ^ n))) ∧
    (∀ (i : Instr) (src : Nat → Option Nat) (fed : Nat),
      (i, src, fed) ∈
        [(Instr.vshift w d a b m, (fun (j : Nat) =>
            if 0 ≤ (j : Int) - y.toInt ∧ (j : Int) - y.toInt < vl then some ((j : Int) - y.toInt).toNat else none), 0),
         (.vrot w d a b m, (fun (j : Nat) => some (((j : Int) - y.toInt).emod vl).toNat), 0),
         (.vfeedlo w d a b m, (fun (j : Nat) => if j = 0 then none else some (j - 1)), y.toNat % 2 ^ n),
         (.vfeedhi w d a b m, (fun (j : Nat) => if j + 1 = vl then none else some (j + 1)), y.toNat % 2 ^ n)] →
      s.VecReady w [b.toNat] → same [a.toNat] →
      t.Sound m.toNat cnt ((idx.filterMap src).map (fun j => ⟨a.toNat, j, n⟩)) →
      ∃ u, exec i s = .next u ∧ wrote u (fun j => match src j with
        | some k => some (ua k)
        | none => some fed)) ∧
    (let nb := t.thr.ew b.toNat
      let ub (j : Nat) : Nat := t.thr.elem b.toNat j nb;
      s.VecReady w [] → boundCheck t [d.toNat, a.toNat, b.toNat] [] = .ok () →
      tagCheck t vl [(d.toNat, fun _ _ => !overlaps d.toNat (t.thr.grp d.toNat) b.toNat (t.thr.grp b.toNat)),
        (a.toNat, fun x y => x == t.thr.fmt d.toNat && y == t.thr.grp d.toNat && x != 0x10),
        (b.toNat, fun x _ => fmtIsInt x && x % 2 == 0)] = .ok () →
      t.Sound m.toNat cnt (idx.map (fun j => ⟨b.toNat, j, nb⟩) ++
        (idx.filter (fun j => ub j < vl)).map (fun j => ⟨a.toNat, ub j, n⟩)) →
      ∃ u, exec (.vpick w d a b m) s = .next u ∧ wrote u (fun j => if ub j < vl then some (ua (ub j)) else none)) ∧
    (let from0 := t.thr.actives m.toNat n cnt vl 0;
      s.VecReady w [] → boundCheck t [d.toNat, a.toNat] [] = .ok () →
      tagCheck t vl [(d.toNat, fun _ _ => !overlaps d.toNat (t.thr.grp d.toNat) a.toNat (t.thr.grp a.toNat)),
        (a.toNat, fun x y => x == t.thr.fmt d.toNat && y == t.thr.grp d.toNat && x != 0x10)] = .ok () →
      t.thr.maskPoisoned m.toNat cnt vl 0 = false →
      (t.thr.vstart = 0 → (∀ j ∈ from0, t.thr.elemPoisoned a.toNat j n = false) →
        ∃ u, exec (.vpack w d a m) s = .next u ∧ t.Wrote u d.toNat n 0 (fun j =>
          if j < vl then some (((from0[j]?).map ua).getD 0) else none)) ∧
      ((∀ k < from0.length, t.thr.elemPoisoned a.toNat k n = false) →
        ∃ u, exec (.vspread w d a m) s = .next u ∧ t.Wrote u d.toNat n 0 (fun j =>
          if j ∈ from0 then some (ua (from0.idxOf j)) else none)))

/-- R110, R111, R113 to R115: tags, strips, and moves between one element or register and a general register. The moves are stated
where the vector unit takes them at once. VCFG, VGRANT and VTAG have their effect at issue, where the thread's queue of 8 has a
place, and wait where it has none. MODEL'S CHOICE: they then take the unit, or a place in the queue, for a start that does nothing
more (log entry 111). -/
def Statement.VectorElementMoves : Prop :=
  ∀ (s : State) (w : Bool) (d a b k f : BitVec 5) (g : BitVec 2), s.Ready w [] →
    let t := s.afterW w
    let starts := (∀ p ∈ t.thr.pend, p.isVec = false) ∧ t.startsNow = true
    let x := t.thr.getG a.toNat
    let y := t.thr.getG b.toNat
    let B := t.thr.budget
    let trap (c : Nat) (v : Word) : Host.Outcome State Fault Refusal := s.trapAfter t c v
    let group (r : Nat) : Prop := sameForm t 0 (fun _ => true) r [] = .ok ()
    let room := t.thr.vq.length < 8
    let placed (u : State) : Prop := if t.startsNow then u.thr.vq = [] ∧ (u.core (coreOf t.cur)).vfree = t.clk + 1
      else u.thr.vq.length = t.thr.vq.length + 1 ∧ u.core (coreOf t.cur) = t.core (coreOf t.cur)
    (d.toNat + 2 ^ g.toNat ≤ B → (room → ∃ u, exec (.vcfg w d f g) s = .next u ∧
      (∀ r, u.thr.getV r = if d.toNat ≤ r ∧ r < d.toNat + 2 ^ g.toNat then { t.thr.getV r with fmt := f, grp := g }
        else t.thr.getV r) ∧ u.thr = { t.thr with v := u.thr.v, pc := t.thr.pc + 4, vq := u.thr.vq, vready := u.thr.vready } ∧
      u = { t with threads := u.threads, cores := u.cores, uid := u.uid } ∧ placed u ∧ ∀ j, j ≠ t.cur → u.thread j = t.thread j) ∧
      (¬ room → exec (.vcfg w d f g) s = .next s)) ∧
    (B < d.toNat + 2 ^ g.toNat → exec (.vcfg w d f g) s = trap 0x03 (BitVec.ofNat 64 (max d.toNat B))) ∧
    (t.readable a.toNat → b.toNat < B → t.thr.ew b.toNat ≠ 0 →
      let n := min x.toNat (t.thr.count b.toNat)
      (room → ∃ u, exec (.vgrant w d a b) s = .next u ∧ u.thr.vl.toNat = n % 4096 ∧ u.thr.vstart = 0 ∧
        (d ≠ 0 → u.thr.getG d.toNat = BitVec.ofNat 64 (x.toNat - n)) ∧ u.thr.pc = t.thr.pc + 4 ∧
        (∀ r, r ≠ d.toNat → u.thr.getG r = t.thr.getG r) ∧ u.thr.v = t.thr.v ∧ u.thr.m = t.thr.m ∧ u.mem = t.mem ∧ placed u) ∧
      (¬ room → exec (.vgrant w d a b) s = .next s)) ∧
    (a.toNat < B → t.thr.fmt a.toNat ≠ 0 →
      (room → ∃ u, exec (.vtag w d a) s = .next u ∧ u.thr.pc = t.thr.pc + 4 ∧ u.thr.v = t.thr.v ∧ u.thr.m = t.thr.m ∧ u.mem = t.mem ∧
        (d ≠ 0 → u.thr.getG d.toNat = BitVec.ofNat 64 ((t.thr.getV a.toNat).fmt.toNat + 32 * (t.thr.getV a.toNat).grp.toNat)) ∧
        (∀ r, r ≠ d.toNat → u.thr.getG r = t.thr.getG r) ∧ placed u) ∧
      (¬ room → exec (.vtag w d a) s = .next s)) ∧
    (let e := y.toNat % t.thr.count a.toNat
      let n := t.thr.ew a.toNat
      let p := t.thr.elem a.toNat e n;
      starts → t.readable b.toNat → group a.toNat → t.thr.fmt a.toNat ≠ 0x10 → t.thr.elemPoisoned a.toNat e n = false →
      exec (.vget w d a b) s =
        .next ((((t.logDeferred [⟨a.toNat, e, n⟩]).addPend
          [(d.toNat, if fmtIsSigned (t.thr.fmt a.toNat) then BitVec.ofInt 64 (signedOf p n) else BitVec.ofNat 64 p)]).occupy 1).advance 4)) ∧
    (let n := t.thr.ew d.toNat;
      starts → t.readable a.toNat → t.readable b.toNat → group d.toNat → ∃ u, exec (.vput w d a b) s = .next u ∧
        (∀ j, u.thr.elem d.toNat j n = if j = y.toNat % t.thr.count d.toNat then x.toNat % 2 ^ n else t.thr.elem d.toNat j n) ∧
        u.thr.g = t.thr.g ∧ u.thr.pc = t.thr.pc + 4 ∧ u.thr.vl = t.thr.vl ∧ u.thr.vstart = t.thr.vstart ∧ u.mem = t.mem) ∧
    (t.readable a.toNat → d.toNat < B →
      let j : Int := x.toInt + k.toNat
      ((j < 0 ∨ (B : Int) ≤ j) → exec (.vmovr w d a k) s = trap 0x03 (BitVec.ofInt 64 j) ∧
        exec (.vmovw w d a k) s = trap 0x03 (BitVec.ofInt 64 j)) ∧
      (starts → 0 ≤ j → j < B →
        (t.thr.fmt j.toNat ≠ 0 → ∃ u, exec (.vmovr w d a k) s = .next u ∧ u.thr.getV d.toNat = t.thr.getV j.toNat ∧
          (∀ r, r ≠ d.toNat → u.thr.getV r = t.thr.getV r) ∧ u.thr.g = t.thr.g ∧ u.thr.pc = t.thr.pc + 4) ∧
        (t.thr.fmt d.toNat ≠ 0 → ∃ u, exec (.vmovw w d a k) s = .next u ∧ u.thr.getV j.toNat = t.thr.getV d.toNat ∧
          (∀ r, r ≠ j.toNat → u.thr.getV r = t.thr.getV r) ∧ u.thr.g = t.thr.g ∧ u.thr.pc = t.thr.pc + 4)))

/-- R54, R129, R130: a scan writes the running combination from g[b] on; a reduction leaves the tree over the active elements,
combined with g[b], pending for g[d], and g[b] alone where none is active.
MODEL'S CHOICE: the statement rests on when a vector instruction executes and its scalar result lands (entries 18 and 19) and which captures c.vl and c.vstart (entry 92). -/
def Obligations.ScanAndReductionResults : Prop :=
  ∀ (s : State) (w : Bool) (d a b : BitVec 5) (m : BitVec 3), s.VecReady w [b.toNat] →
    let t := s.afterW w
    let vl := t.thr.vl.toNat
    let n := t.thr.ew a.toNat
    let idx := t.active m.toNat n (t.thr.count a.toNat)
    let ua (j : Nat) : Nat := t.thr.elem a.toNat j n
    let x := (t.thr.getG b.toNat).toNat % 2 ^ n
    let signed := fmtIsSigned (t.thr.fmt a.toNat)
    let fp := fmtFp (t.thr.fmt a.toNat)
    let reads : List ERead := idx.map (fun j => ⟨a.toNat, j, n⟩)
    let sg (x : Nat) : Int := signedOf x n
    let pure2 (f : Nat → Nat → Nat) (x y : Nat) : Nat × Flags := (f x y, 0)
    let smin (x y : Nat) : Nat := if sg x < sg y then x else y
    let smax (x y : Nat) : Nat := if sg x < sg y then y else x
    let fadd (x y : Nat) : Nat × Flags :=
      let e := Val.add (frmMode t.thr.frm.toNat == .rdn) (decodeFp fp x) (decodeFp fp y)
      ((roundTo fp (frmMode t.thr.frm.toNat) e.1).1, e.2 ||| (roundTo fp (frmMode t.thr.frm.toNat) e.1).2)
    t.Sound m.toNat (t.thr.count a.toNat) reads →
    (∀ (i : Instr) (float : Bool) (op : Nat → Nat → Nat × Flags),
      (i, float, op) ∈
        [(Instr.vscanadd w d a b m, false, pure2 (fun x y => (x + y) % 2 ^ n)),
         (.vscanmin w d a b m, false, pure2 (fun x y => if signed then smin x y else min x y)),
         (.vscanmax w d a b m, false, pure2 (fun x y => if signed then smax x y else max x y)),
         (.vfscanadd w d a b m, true, fadd)] →
      sameForm t vl (if float then fmtIsFloat else fmtIsInt) d.toNat [a.toNat] = .ok () →
      let run (l : List Nat) : Nat × Flags := l.foldl (fun p j => ((op p.1 (ua j)).1, p.2 ||| (op p.1 (ua j)).2)) (x, 0)
      ∃ u, exec i s = .next u ∧ t.Wrote u d.toNat n (run idx).2
        (fun j => if j ∈ idx then some ((run (idx.take (idx.idxOf j + 1))).1 % 2 ^ n) else none)) ∧
    (∀ (i : Instr) (float : Bool) (op : Nat → Nat → Nat × Flags),
      (i, float, op) ∈
        [(Instr.vredsum w d a b m, false, pure2 (fun x y => (x + y) % 2 ^ n)), (.vredmin w d a b m, false, pure2 smin),
         (.vredmax w d a b m, false, pure2 smax), (.vredminn w d a b m, false, pure2 min), (.vredmaxn w d a b m, false, pure2 max),
         (.vredand w d a b m, false, pure2 (fun x y => x &&& y)), (.vredor w d a b m, false, pure2 (fun x y => x ||| y)),
         (.vredxor w d a b m, false, pure2 (fun x y => x ^^^ y)), (.vfredsum w d a b m, true, fadd),
         (.vfredmin w d a b m, true, pure2 (fun x y => (roundTo fp .rne (Val.min2 (decodeFp fp x) (decodeFp fp y))).1)),
         (.vfredmax w d a b m, true, pure2 (fun x y => (roundTo fp .rne (Val.max2 (decodeFp fp x) (decodeFp fp y))).1))] →
      sameForm t vl (if float then fmtIsFloat else fmtIsInt) a.toNat [] = .ok () →
      let join (p q : Nat × Flags) : Nat × Flags := ((op p.1 q.1).1, p.2 ||| q.2 ||| (op p.1 q.1).2)
      let leaves := (List.range vl).map (fun j => if j ∈ idx then some (ua j, (0 : Flags)) else none)
      let r := match treeRoot join 11 leaves with
        | some q => join (x, 0) q
        | none => (x, 0)
      let v := t.logDeferred reads
      let flags := v.thr.fflags ||| BitVec.ofNat 5 r.2
      ∃ n, 0 < n ∧ exec i s = .next ((((v.putThr { v.thr with
          vstart := 0, pend := v.thr.pend.map (Pend.drop codeVstart), fflags := flags }).addPend
        [(d.toNat, if signed then BitVec.ofInt 64 (sg r.1) else BitVec.ofNat 64 r.1)]).occupy n).advance 4))

/-- R16, R17, R131, R132: the mask instructions, where the vector unit takes them at once. A mask reads as its bits, as the elements below its count in BOUND form, and
m0 as the elements below c.vl; c.vl and c.vstart stay.
MODEL'S CHOICE: the statement rests on when a vector instruction executes and its scalar result lands (entries 18 and 19) and which captures c.vl and c.vstart (entry 92). -/
def Obligations.MaskResults : Prop :=
  ∀ (s : State) (w : Bool) (d a b : BitVec 3) (gd va : BitVec 5) (wc : BitVec 5), s.Ready w [] →
    let t := s.afterW w
    let h := t.thr
    let vl := h.vl.toNat
    let bits (k : Nat) : BitVec 1024 := h.maskBits k vl
    let starts := (∀ p ∈ h.pend, p.isVec = false) ∧ t.startsNow = true
    let done (u : State) : Host.Outcome State Fault Refusal := .next ((u.occupy 1).advance 4)
    let put (u : State) (k : Nat) (x : BitVec 1024) : Host.Outcome State Fault Refusal :=
      done (u.putThr (u.thr.setM k ⟨false, x, 0, 0⟩))
    let trap : Host.Outcome State Fault Refusal := s.trapAfter t 0x09 (h.mdepth.zeroExtend 64)
    let clean (k : Nat) : Prop := k = 0 ∨ ∀ p ∈ h.poison, ¬ (0x20000 + k * 32 ≤ p ∧ p < 0x20000 + k * 32 + 32)
    let top := h.mdepth.toNat - 1
    (∀ k j, (bits k).getLsbD j = (decide (j < 1024) && (if k = 0 then decide (j < vl)
      else if (h.getM k).bound then decide (if (h.getM k).wc = 0 then 2 * j < (h.getM k).n.toNat else j < (h.getM k).n.toNat)
      else (h.getM k).bits.getLsbD j))) ∧
    (starts → t.readable va.toNat → wc.toNat ≤ 4 → exec (.mbound w d va wc) s = done (t.putThr (h.setM d.toNat
      ⟨true, 0, BitVec.ofNat 12 (min (h.getG va.toNat).toNat (8192 / 2 ^ (wc.toNat + 2))), BitVec.ofNat 3 wc.toNat⟩))) ∧
    (starts → pendingOf h.pend codeVl = none → clean a.toNat →
      exec (.mnot w d a) s = put t d.toNat (~~~ (bits a.toNat)) ∧
      exec (.mmv w d a) s = done (t.putThr (h.setM d.toNat (if a = 0 then ⟨false, bits 0, 0, 0⟩ else h.getM a.toNat))) ∧
      (clean b.toNat →
        exec (.mand w d a b) s = put t d.toNat (bits a.toNat &&& bits b.toNat) ∧
        exec (.mor w d a b) s = put t d.toNat (bits a.toNat ||| bits b.toNat) ∧
        exec (.mxor w d a b) s = put t d.toNat (bits a.toNat ^^^ bits b.toNat) ∧
        exec (.mandn w d a b) s = put t d.toNat (bits a.toNat &&& ~~~ (bits b.toNat))) ∧
      (let k := h.getM a.toNat;
        exec (.mcnt w gd a) s = done (t.addPend [(gd.toNat, BitVec.ofNat 64 (if a = 0 then vl else if k.bound then k.n.toNat
          else ((List.range 1024).filter (fun i => k.bits.getLsbD i)).length))]) ∧
        exec (.mfirst w gd a) s = done (t.addPend [(gd.toNat, if a = 0 then (if vl = 0 then -1 else 0)
          else if k.bound then (if k.n = 0 then -1 else 0)
          else if k.bits = 0 then -1 else BitVec.ofNat 64 ((List.range 1024).takeWhile (fun i => !k.bits.getLsbD i)).length)])) ∧
      (sameForm t vl fmtIsInt gd.toNat [] = .ok () → ∃ u, exec (.mtov w gd a) s = .next u ∧
        (∀ j, u.thr.elem gd.toNat j (h.ew gd.toNat) =
          if j < vl then ((bits a.toNat).getLsbD j).toNat else h.elem gd.toNat j (h.ew gd.toNat)) ∧
        u.thr = { h with v := u.thr.v, poison := u.thr.poison, pc := h.pc + 4 })) ∧
    (let n := h.ew va.toNat;
      starts → pendingOf h.pend codeVl = none → sameForm t vl fmtIsInt va.toNat [] = .ok () →
      (∀ j < min vl 1024, h.elemPoisoned va.toNat j n = false) →
      ∃ u, exec (.mfromv w d va) s = .next u ∧ (u.thr.getM d.toNat).bound = false ∧
        (∀ j < 1024, (u.thr.getM d.toNat).bits.getLsbD j = (decide (j < vl) && decide (h.elem va.toNat j n ≠ 0))) ∧
        u.thr = { h with m := u.thr.m, poison := u.thr.poison, pc := h.pc + 4 }) ∧
    (16 ≤ h.mdepth.toNat → pendingOf h.pend codeVl = none → exec (.mpush w a) s = trap) ∧
    (h.mdepth = 0 → exec (.melse w) s = trap ∧ exec (.mpop w) s = trap) ∧
    (starts → h.mdepth.toNat < 16 → pendingOf h.pend codeVl = none → clean 1 → clean a.toNat →
      let base := 0x30000 + h.mdepth.toNat * 32
      exec (.mpush w a) s = put (t.putThr { h with
        mdepth := h.mdepth + 1, stack := h.stack.set h.mdepth.toNat (h.getM 1),
        poison := h.poison.filter (fun p => !(base ≤ p && p < base + 32)) }) 1 (bits 1 &&& bits a.toNat)) ∧
    (starts → h.mdepth ≠ 0 → (∀ p ∈ h.poison, ¬ (0x30000 + top * 32 ≤ p ∧ p < 0x30000 + top * 32 + 32)) →
      (clean 1 → exec (.melse w) s = put t 1 (h.stackBits top &&& ~~~ (bits 1))) ∧
      exec (.mpop w) s = done ((t.putThr { h with mdepth := h.mdepth - 1 }).putThr
        ({ h with mdepth := h.mdepth - 1 }.setM 1 (h.stack.getD top ⟨false, 0, 0, 0⟩))))


/-! ## Vector memory, linked accesses, vector atomics, and the graphics and ray instructions -/

/-- R41, R133 to R138, R173: vector loads and stores; a store of VF4 elements is a tag trap. With `es` the elements that the run-ahead passes, in order, up to the first
that fails, those are performed; then the instruction goes on with c.vstart 0 where none fails or where the failing one trims
c.vl, and else parks or traps with c.vstart at the failing element. -/
def Statement.VectorMemoryResults : Prop :=
  ∀ (s : State) (w : Bool) (d a b : BitVec 5) (m : BitVec 3),
    let t := s.afterW w
    let vl := t.thr.vl.toNat
    let n := t.thr.ew d.toNat
    let cnt := t.thr.count d.toNat
    let idx := t.active m.toNat n cnt
    let x := t.thr.getG a.toNat
    let bytes := if n < 8 then 1 else n / 8
    let index (j : Nat) : Int :=
      let e := t.thr.elem b.toNat j (t.thr.ew b.toNat)
      if fmtIsSigned (t.thr.fmt b.toNat) then signedOf e (t.thr.ew b.toNat) else e
    let lone (j : Nat) : Bool := n < 8 && !idx.contains (if j % 2 = 0 then j + 1 else j - 1)
    ∀ (i : Instr) (store : Bool) (mode : Nat),
      (i, store, mode) ∈ [(Instr.vld w d a m, false, 0), (.vlds w d a b m, false, 1), (.vldx w d a b m, false, 2),
        (.vst w d a m, true, 0), (.vsts w d a b m, true, 1), (.vstx w d a b m, true, 2)] →
      s.VecReady w (if mode = 1 then [a.toNat, b.toNat] else [a.toNat]) →
      boundCheck t (if mode = 2 then [d.toNat, b.toNat] else [d.toNat]) [] = .ok () →
      (store = true → t.thr.fmt d.toNat = 0x10 → exec i s = s.trapAfter t 0x04 (d.zeroExtend 64)) ∧
      (tagCheck t vl [(d.toNat, fun f _ => (mode == 0 || fmtWidth f ≥ 8) && (f != 0x10 || !store))] = .ok () →
      (mode = 2 → tagCheck t vl [(b.toNat, fun f _ => 5 ≤ f && f ≤ 8)] = .ok ()) → t.thr.region = none →
      let reads : List ERead := if mode = 2 then idx.map (fun j => ⟨b.toNat, j, t.thr.ew b.toNat⟩) else []
      t.Sound m.toNat cnt reads →
      let addr (j : Nat) : Nat := (BitVec.ofInt 64 (if mode = 0 then x.toNat + (j * n / 8 : Nat)
        else if mode = 1 then x.toNat + (j : Int) * (t.thr.getG b.toNat).toInt else x.toNat + index j)).toNat
      let u := t.logDeferred reads
      ∀ es fail, runAhead (fun j => checkElem u u.cur ⟨if store then .store else .load, false, decide (8 ≤ n)⟩ (addr j) bytes
          (store && lone j)) idx = (es, fail) → vecHeld u es = false →
        let v := u.countElems (heatOf mode) es
        let after : State :=
          if store then storeElems (v.logDeferred (es.map (fun e => ⟨d.toNat, e.1, n⟩))) t.thr d.toNat n es
          else loadElems v d.toNat n es
        let stopped (e : Nat) : State := after.putThr (after.thr.stopAt e)
        let goesOn (z : State) : Prop := ∃ k, 0 < k ∧ exec i s = .next ((z.occupy k).advance 4)
        (fail = none → goesOn (after.putThr after.thr.clearVstart)) ∧
        (∀ e, fail = some (e, .scratch) → e ≠ idx.headD 0 → goesOn (after.putThr (after.thr.trim e).clearVstart)) ∧
        (∀ e, fail = some (e, .scratch) → e = idx.headD 0 →
          exec i s = .next ((stopped e).takeTrap u.cur 0x06 (BitVec.ofNat 64 e) none 0)) ∧
        (∀ e c va, fail = some (e, .trap c va) → exec i s = .next ((stopped e).takeTrap u.cur c (elemTval e va) none 0)) ∧
        (∀ e va, fail = some (e, .park va) → exec i s = .next ((stopped e).takePark u.cur va)))

/-- R21, R32, R133 to R136, R243, R265, R272, R281, R358: what a performed element does. A load leaves the little-endian bytes of its part, or its
nibble, pending for the element, and for no other; a store of a part in plain storage writes exactly its bytes, a nibble only its
half byte, after the dirty bytes of its lines in the core's L1. The checks of an element come in the order of R136; the traps that
give the virtual address as tval keep it. MODEL'S CHOICE: that a store first sends home the dirty bytes of its lines (log entry
13), and which traps of an element give its address (102). -/
def Statement.VectorElementEffects : Prop :=
  (∀ (s : State) (d n : Nat) (es : List (Nat × Span)), n ∣ 1024 → (es.map Prod.fst).Nodup →
    (∀ p ∈ s.thr.pend, p.isVec = false) →
    let u := loadElems s d n es
    let h := u.thr.landVec
    (∀ e ∈ es, ∀ x, x = s.loadPart s.cur e.2.pa e.2.attr e.2.n →
      h.elem d e.1 n = if n < 8 then x / 2 ^ (e.1 % 2 * 4) % 16 % 2 ^ n else x % 2 ^ n) ∧
    (∀ j, j ∉ es.map Prod.fst → h.elem d j n = s.thr.elem d j n) ∧ u.mem = s.mem ∧ h.g = s.thr.g ∧ u.thr.v = s.thr.v ∧
    (∀ e ∈ es, s.badWord s.cur e.2.pa e.2.n ≠ none → h.elemPoisoned d e.1 n = true)) ∧
  (∀ (s : State) (n i x : Nat) (p : Span), s.isReg p.pa p.attr = false → s.ownLease s.cur p.pa = none → p.attr ≠ 1 →
    let u := s.storeElem n i x p
    let here := coreOf s.cur
    let kept (a : Nat) : Prop := memByte u.mem a = memByte s.mem a ∨
      (lineOf a ∈ linesOf p.pa p.n ∧ (a, memByte u.mem a) ∈ (s.core here).strm)
    (8 ≤ n → (∀ j < p.n, memByte u.mem (p.pa + j) = BitVec.ofNat 8 (x / 256 ^ j)) ∧ ∀ a, a < p.pa ∨ p.pa + p.n ≤ a → kept a) ∧
    (n < 8 → p.n = 1 → (memByte u.mem p.pa).toNat / 2 ^ (i % 2 * 4) % 16 = x % 16 ∧
      (memByte u.mem p.pa).toNat / 2 ^ ((i + 1) % 2 * 4) % 16 = (s.coreByte here p.pa).toNat / 2 ^ ((i + 1) % 2 * 4) % 16 ∧
      ∀ a, a ≠ p.pa → kept a)) ∧
  (∀ (s : State) (k va n : Nat) (q : ElemRule) (lone : Bool), q.cohOnly = false →
    (2 ^ 57 < va + n → checkElem s k q va n lone = .error (.trap 0x06 none)) ∧
    (va + n ≤ 2 ^ 57 → winBase < va + n → s.window k va n = none → checkElem s k q va n lone = .error .scratch) ∧
    (va + n ≤ winBase → (q.aligned = true ∧ va % n ≠ 0) ∨ lone = true → checkElem s k q va n lone = .error (.trap 0x07 none)) ∧
    (va + n ≤ winBase → (q.aligned = true → va % n = 0) → lone = false →
      (s.walkFor k q.need va = .park → checkElem s k q va n lone = .error (.park va)) ∧
      (s.walkFor k q.need va = .denied → checkElem s k q va n lone = .error (.trap 0x06 none)) ∧
      (s.walkFor k q.need va = .bad ∨ s.walkFor k q.need va = .noRoute → checkElem s k q va n lone = .error (.trap 0x06 (some va))) ∧
      (s.walkFor k q.need va = .held → checkElem s k q va n lone = .error .hold) ∧
      (∀ pa attr, s.walkFor k q.need va = .ok pa attr → checkElem s k q va n lone = .ok ⟨pa, attr, n⟩)))

/-- R176 to R178: GLD loads its elements and links their lines, 32 at most; SCS stores each element whose line is still linked
and that no lower one overlaps, reports those in m[k], and clears the links. -/
def Statement.LinkedResults : Prop :=
  ∀ (s : State) (w : Bool) (d a b : BitVec 5) (m : BitVec 3), s.VecReady w [a.toNat] →
    let t := s.afterW w
    let vl := t.thr.vl.toNat
    let n := t.thr.ew d.toNat
    let idx := t.active m.toNat n (t.thr.count d.toNat)
    let nb := t.thr.ew b.toNat
    let index (j : Nat) : Int :=
      if fmtIsSigned (t.thr.fmt b.toNat) then signedOf (t.thr.elem b.toNat j nb) nb else t.thr.elem b.toNat j nb
    let addr (j : Nat) : Nat := (BitVec.ofInt 64 ((t.thr.getG a.toNat).toNat + index j)).toNat
    let reads : List ERead := idx.map (fun j => ⟨b.toNat, j, nb⟩)
    let u := t.logDeferred reads
    boundCheck t [d.toNat, b.toNat] [] = .ok () →
    tagCheck t vl [(d.toNat, fun f _ => [0x05, 0x06, 0x07, 0x08, 0x0B, 0x0C].contains f), (b.toNat, fun f _ => 5 ≤ f && f ≤ 8)] = .ok () →
    t.thr.region = none → t.Sound m.toNat (t.thr.count d.toNat) reads →
    (∀ es full, runAhead (fun j => checkElem u u.cur ⟨.load, true, true⟩ (addr j) (n / 8) false) idx = (es, none) →
      vecHeld u es = false → ∀ taken, linkRoom es [] = (taken, full) →
      let v := loadElems (u.countElems .indexed taken) d.toNat n taken
      let z := v.putThr { v.thr with links := (taken.map (fun e => e.2.pa / 64)).eraseDups }
      ∃ k, 0 < k ∧ exec (.gld w d a b m) s = .next (((match full with
        | none => z.putThr z.thr.clearVstart
        | some e => z.putThr (z.thr.trim e).clearVstart).occupy k).advance 4)) ∧
    (∀ es, runAhead (fun j => checkElem u u.cur ⟨.store, true, true⟩ (addr j) (n / 8) false) idx = (es, none) →
      vecHeld u es = false →
      let wins (e : Nat × Span) : Prop := e ∈ es ∧ e.2.pa / 64 ∈ t.thr.links ∧
        ∀ f ∈ es, f.1 < e.1 → f.2.pa + n / 8 ≤ e.2.pa ∨ e.2.pa + n / 8 ≤ f.2.pa
      ∃ won : List (Nat × Span), (∀ e, e ∈ won ↔ wins e) ∧
        let v := storeElems ((u.countElems .indexed es).logDeferred (es.map (fun e => ⟨d.toNat, e.1, n⟩))) t.thr d.toNat n won
        ∃ z : State, exec (.scs w d a b m) s = .next z ∧ z.mem = v.mem ∧ z.thr.links = [] ∧ z.thr.vstart = 0 ∧
          z.thr.pc = t.thr.pc + 4 ∧ z.thr.g = t.thr.g ∧ z.thr.v = t.thr.v ∧ (z.thr.getM m.toNat).bound = false ∧
          ∀ j < 1024, (z.thr.getM m.toNat).bits.getLsbD j = decide (j ∈ won.map Prod.fst)) ∧
    (∀ es e f, runAhead (fun j => checkElem u u.cur ⟨.store, true, true⟩ (addr j) (n / 8) false) idx = (es, some (e, f)) →
      (∀ c va, f = .trap c va → exec (.scs w d a b m) s = .next (u.takeTrap u.cur c (elemTval e va) none 0)) ∧
      (f = .scratch → exec (.scs w d a b m) s = .next (u.takeTrap u.cur 0x06 (BitVec.ofNat 64 e) none 0)) ∧
      (∀ va, f = .park va → exec (.scs w d a b m) s = .next (u.takePark u.cur va)))

/-- R163, R165, R179: a vector atomic performs the AMO of each active element in order, at its home on every page, and leaves the old
value pending for the element. -/
def Statement.VectorAtomicResults : Prop :=
  ∀ (s : State) (w : Bool) (d a b : BitVec 5) (m : BitVec 3), s.VecReady w [a.toNat] →
    let t := s.afterW w
    let vl := t.thr.vl.toNat
    let n := t.thr.ew d.toNat
    let idx := t.active m.toNat n (t.thr.count d.toNat)
    let nb := t.thr.ew b.toNat
    let index (j : Nat) : Int :=
      if fmtIsSigned (t.thr.fmt b.toNat) then signedOf (t.thr.elem b.toNat j nb) nb else t.thr.elem b.toNat j nb
    let addr (j : Nat) : Nat := (BitVec.ofInt 64 ((t.thr.getG a.toNat).toNat + index j)).toNat
    let reads : List ERead := idx.map (fun j => ⟨b.toNat, j, nb⟩) ++ idx.map (fun j => ⟨d.toNat, j, n⟩)
    let u := t.logDeferred reads
    let fp := if n = 64 then Fp.fp64 else Fp.fp32
    let sg (x : Nat) : Int := signedOf x n
    ∀ (i : Instr) (float : Bool) (new : Nat → Nat → Nat),
      (i, float, new) ∈
        [(Instr.vamoadd w d a b m, false, fun x y => (x + y) % 2 ^ n), (.vamoand w d a b m, false, fun x y => x &&& y),
         (.vamoor w d a b m, false, fun x y => x ||| y), (.vamoxor w d a b m, false, fun x y => x ^^^ y),
         (.vamomin w d a b m, false, fun x y => if sg x ≤ sg y then x else y),
         (.vamomax w d a b m, false, fun x y => if sg y < sg x then x else y),
         (.vamominn w d a b m, false, fun x y => min x y), (.vamomaxn w d a b m, false, fun x y => max x y),
         (.vamofadd w d a b m, true, fun x y => (roundTo fp .rne (Val.add false (decodeFp fp x) (decodeFp fp y)).1).1)] →
      boundCheck t [d.toNat, b.toNat] [] = .ok () →
      tagCheck t vl [(d.toNat, fun f _ => if float then f == 0x0B || f == 0x0C else 5 ≤ f && f ≤ 8),
        (b.toNat, fun f _ => 5 ≤ f && f ≤ 8)] = .ok () →
      t.thr.region = none → t.Sound m.toNat (t.thr.count d.toNat) reads → t.thr.dbg.getLsbD 1 = false →
      ∀ es, runAhead (fun j => checkElem u u.cur ⟨.update, false, true⟩ (addr j) (n / 8) false) idx = (es, none) →
        vecHeld u es = false → (∀ e ∈ es, u.queuedBehind u.cur (lineOf e.2.pa) = false ∧ u.badWord u.cur e.2.pa e.2.n = none) →
        let one (p : List (Nat × Nat) × State) (e : Nat × Span) : List (Nat × Nat) × State :=
          let q := p.2.noteStrong e.2.pa e.2.n
          let x := q.loadPart q.cur e.2.pa e.2.attr e.2.n
          (p.1 ++ [(e.1, x)], q.storePart q.cur e.2.pa (if e.2.attr = 1 then 2 else e.2.attr) e.2.n (new x (t.thr.elem d.toNat e.1 n)))
        let r := es.foldl one ([], es.foldl (fun q e => q.countHome q.cur .indexed [e.2]) u)
        let z := r.2.addVecPend d.toNat n r.1 []
        ∃ k, 0 < k ∧ exec i s = .next (((z.putThr z.thr.clearVstart).occupy k).advance 4)

/-- R188 to R193: a SAMPLE whose descriptor is sound and whose texels pass their checks leaves each channel, rounded once from the
weighted sum of the texels of its filter, pending for the four planes of v[d]; where c.vstart is not below c.vl it reads nothing and
only clears c.vstart (R107). -/
def Statement.SampleResults : Prop :=
  ∀ (s : State) (w : Bool) (d a b : BitVec 5) (m : BitVec 3), s.VecReady w [a.toNat] →
    let t := s.afterW w
    let x := t.thr.getG a.toNat
    let idx := t.active m.toNat 32 32
    let reads : List ERead := idx.flatMap (fun i => [⟨b.toNat, i, 32⟩, ⟨b.toNat, 32 + i, 32⟩, ⟨b.toNat, 64 + i, 32⟩])
    let u := t.logDeferred reads
    boundCheck t [d.toNat, b.toNat] [] = .ok () →
    tagCheck t 0 [(d.toNat, fun f g => f == 0x0B && g == 4), (b.toNat, fun f g => f == 0x0B && g == 4)] = .ok () →
    t.thr.vl.toNat ≤ 32 → t.thr.region = none →
    (x.toNat % 64 ≠ 0 → ∀ i ∈ [Instr.sampleNear w d a b m, .sampleBil w d a b m, .sampleTri w d a b m],
      exec i s = .next (t.takeTrap t.cur 0x07 x none 0)) ∧
    (x.toNat % 64 = 0 → t.thr.vl ≤ t.thr.vstart → ∀ i ∈ [Instr.sampleNear w d a b m, .sampleBil w d a b m, .sampleTri w d a b m],
      ∃ k, 0 < k ∧ exec i s = .next (((t.putThr t.thr.clearVstart).occupy k).advance 4)) ∧
    (x.toNat % 64 = 0 → t.thr.vstart < t.thr.vl → ∀ desc, (∀ c, readRecord t c x.toNat 64 [(0, 64)] = .ok desc) → descCheck t (textureChecks desc) = .ok () →
      t.Sound m.toNat 32 reads →
      let tex := texture desc
      let coord (p i : Nat) : Val := decodeFp Fp.fp32 (t.thr.elem b.toNat (32 * p + i) 32)
      ∀ (i : Instr) (filter : Nat),
        (i, filter) ∈ [(Instr.sampleNear w d a b m, 0), (.sampleBil w d a b m, 1), (.sampleTri w d a b m, 2)] →
        let texels (j : Nat) : List (Nat × Nat) × Nat := sampleTexels tex filter (coord 0 j) (coord 1 j) (coord 2 j)
        ∀ es, texelAhead u tex.texel (fun j => (texels j).1.map Prod.fst) idx = (es, none) →
          let spans := es.flatMap (fun e => e.2.map (fun p => (e.1, p)))
          vecHeld u spans = false → (∀ e ∈ spans, u.badWord u.cur e.2.pa e.2.n = none) →
          ∃ z : State, exec i s = .next z ∧ z.mem = t.mem ∧ z.thr.g = t.thr.g ∧ z.thr.vstart = 0 ∧ z.thr.pc = t.thr.pc + 4 ∧
            z.thr.fflags = t.thr.fflags ∧ z.thr.v = t.thr.v ∧
            (∀ e ∈ es, ∀ ch < 4, z.thr.landVec.elem d.toNat (32 * ch + e.1) 32 =
              (if (texels e.1).1 = [] then 0x7FC00000 else sampleChannel tex ch (texels e.1).2
                (List.zipWith (fun p q => (u.loadPart u.cur p.pa p.attr p.n, q.2)) e.2 (texels e.1).1)) % 2 ^ 32) ∧
            (∀ j, (∀ i ∈ idx, ∀ ch < 4, j ≠ 32 * ch + i) → z.thr.landVec.elem d.toNat j 32 = t.thr.elem d.toNat j 32))

/-- R191, R192: the filters. A bilinear or trilinear sample weighs its texels with weights that sum to 65,536 a level; a
coordinate that is NaN or infinite names no texel; the edges of the worked example round as it states. -/
def Statement.SampleArithmetic : Prop :=
  (∀ (t : Texture) (u v : Val) (l : Nat), ((levelTexels t false u v l).map Prod.snd).sum = 65536 ∧
    ((levelTexels t true u v l).map Prod.snd).sum = 65536 ∧ (levelTexels t false u v l).length = 4) ∧
  (∀ (t : Texture) (f : Nat) (u v lod : Val), (u.bad || v.bad || lod.bad) = true → (sampleTexels t f u v lod).1 = []) ∧
  (∀ (n : Nat) (c : Int), 0 < n → mapCoord 0 n c < n ∧ mapCoord 1 n c < n ∧ mapCoord 2 n c < n ∧
    (0 ≤ c → c < n → mapCoord 0 n c = c.toNat ∧ mapCoord 1 n c = c.toNat ∧ mapCoord 2 n c = c.toNat)) ∧
  (∀ t : Texture, t.fmt = 0 →
    sampleChannel t 0 65536 [(100, 16384), (200, 49152), (0, 0), (0, 0)] = 0x3F2FAFB0 ∧
    sampleChannel t 0 65536 [(60, 32768), (100, 32768), (0, 0), (0, 0)] = 0x3EA0A0A1 ∧
    sampleChannel t 0 65536 [(100, 32768), (100, 32768), (0, 0), (0, 0)] = 0x3EC8C8C9)

/-- R195 to R199: BOXTEST and TRITEST put the entry t, or t, b1 and b2, of each active ray that hits into v[d], and the hits into
m[k]; a missing ray's box entry is +∞ and its triangle elements stay. MODEL'S CHOICE: with c.vl = 0 they read nothing and m[k] is
0 (R107, log entry 113). -/
def Statement.RayTestResults : Prop :=
  ∀ (s : State) (w : Bool) (d : BitVec 5) (a : BitVec 4) (b : BitVec 5) (m : BitVec 3),
    s.VecReady w [2 * a.toNat, 2 * a.toNat + 1] →
    let t := s.afterW w
    let x := t.thr.getG (2 * a.toNat)
    let y := (t.thr.getG (2 * a.toNat + 1)).toNat
    let rb := b.toNat
    let idx := t.thr.actives m.toNat 32 32 t.thr.vl.toNat 0
    let ray (i : Nat) : List Val := (List.range 8).map (fun k => decodeFp Fp.fp32 (t.thr.elem rb (32 * k + i) 32))
    t.thr.vl.toNat ≤ 32 → t.thr.vstart = 0 → t.thr.region = none → x.toNat % 64 = 0 → boundCheck t [d.toNat, rb] [] = .ok () →
    (t.thr.vl = 0 → ∀ i n, (i, n) ∈ [(Instr.boxtest w d a b m, 1), (.tritest w d a b m, 4)] →
      tagCheck t 0 [(d.toNat, fun f g => f == 0x0B && g == n && !overlaps d.toNat n rb 8), (rb, fun f g => f == 0x0B && g == 8)] = .ok () →
      ∃ k, 0 < k ∧ exec i s = .next (((t.putThr ((t.thr.setM m.toNat ⟨false, 0, 0, 0⟩).clearVstart)).occupy k).advance 4)) ∧
    (0 < t.thr.vl.toNat → ∀ desc, (∀ c, readRecord t c x.toNat 64 [(0, 64)] = .ok desc) → descCheck t (traversalChecks desc) = .ok () →
      t.thr.maskPoisoned m.toNat 32 t.thr.vl.toNat 0 = false →
      (∀ i ∈ idx, ∀ k < 8, t.thr.elemPoisoned rb (32 * k + i) 32 = false) →
      (tagCheck t 0 [(d.toNat, fun f g => f == 0x0B && g == 1 && !overlaps d.toNat 1 rb 8), (rb, fun f g => f == 0x0B && g == 8)] = .ok () →
        (fieldOf desc 8 4 ≤ y → exec (.boxtest w d a b m) s =
          .next (t.takeTrap t.cur 0x11 (BitVec.ofNat 64 (y % 2 ^ 32)) none 0)) ∧
        (y < fieldOf desc 8 4 → ∀ node, (∀ c, readRecord t c ((fieldOf desc 0 8 + 32 * y) % 2 ^ 64) 32 [(0, 12), (16, 12)] = .ok node) →
          let hit (i : Nat) : Option Val := boxHit (ray i) (vec3 node 0) (vec3 node 0x10)
          ∃ z : State, exec (.boxtest w d a b m) s = .next z ∧ z.mem = t.mem ∧ z.thr.g = t.thr.g ∧ z.thr.pc = t.thr.pc + 4 ∧
            z.thr.vstart = 0 ∧ z.thr.fflags = t.thr.fflags ∧
            (∀ i ∈ idx, z.thr.elem d.toNat i 32 = (match hit i with
              | some v => (roundTo Fp.fp32 .rne v).1
              | none => 0x7F800000) % 2 ^ 32) ∧
            (∀ i, i ∉ idx → z.thr.elem d.toNat i 32 = t.thr.elem d.toNat i 32) ∧ (z.thr.getM m.toNat).bound = false ∧
            ∀ i < 1024, (z.thr.getM m.toNat).bits.getLsbD i = (decide (i ∈ idx) && (hit i).isSome))) ∧
      (tagCheck t 0 [(d.toNat, fun f g => f == 0x0B && g == 4 && !overlaps d.toNat 4 rb 8), (rb, fun f g => f == 0x0B && g == 8)] = .ok () →
        (fieldOf desc 0x18 4 ≤ y → exec (.tritest w d a b m) s =
          .next (t.takeTrap t.cur 0x11 (BitVec.ofNat 64 (2 ^ 62 + y % 2 ^ 32)) none 0)) ∧
        (y < fieldOf desc 0x18 4 → ∀ tri, (∀ c, readRecord t c ((fieldOf desc 0x10 8 + 64 * y) % 2 ^ 64) 64 [(0, 36)] = .ok tri) →
          let hit (i : Nat) : Option (Nat × Nat × Nat) := triHit (ray i) (vec3 tri 0) (vec3 tri 0xC) (vec3 tri 0x18)
          ∃ z : State, exec (.tritest w d a b m) s = .next z ∧ z.mem = t.mem ∧ z.thr.g = t.thr.g ∧ z.thr.pc = t.thr.pc + 4 ∧
            z.thr.vstart = 0 ∧ z.thr.fflags = t.thr.fflags ∧
            (∀ i ∈ idx, ∀ h, hit i = some h → z.thr.elem d.toNat i 32 = h.1 % 2 ^ 32 ∧
              z.thr.elem d.toNat (32 + i) 32 = h.2.1 % 2 ^ 32 ∧ z.thr.elem d.toNat (64 + i) 32 = h.2.2 % 2 ^ 32) ∧
            (∀ j, (∀ i ∈ idx, (hit i).isSome → j ≠ i ∧ j ≠ 32 + i ∧ j ≠ 64 + i) → z.thr.elem d.toNat j 32 = t.thr.elem d.toNat j 32) ∧
            (z.thr.getM m.toNat).bound = false ∧
            ∀ i < 1024, (z.thr.getM m.toNat).bits.getLsbD i = (decide (i ∈ idx) && (hit i).isSome))))

/-- R196, R200, R201, R281: PARTITION writes the elements that m[k] selects at the low end of the stream range and the others at its
high end, in order, and leaves the new cursors pending for g[d]; cursors or a split outside the stream trap. MODEL'S CHOICE: with
c.vl = 0 it reads nothing and gives the cursors as they are (R107, log entry 113). -/
def Statement.PartitionResult : Prop :=
  ∀ (s : State) (w : Bool) (d b : BitVec 5) (a : BitVec 4) (m : BitVec 3), s.VecReady w [2 * a.toNat, 2 * a.toNat + 1] →
    let t := s.afterW w
    let x := t.thr.getG (2 * a.toNat)
    let y := t.thr.getG (2 * a.toNat + 1)
    let vl := t.thr.vl.toNat
    let L := y.toNat % 2 ^ 32
    let H := y.toNat / 2 ^ 32
    let S := (List.range vl).filter (t.thr.selects m.toNat 32 32)
    let U := (List.range vl).filter (fun i => !t.thr.selects m.toNat 32 32 i)
    vl ≤ 32 → t.thr.vstart = 0 → t.thr.region = none → x.toNat % 64 = 0 → boundCheck t [b.toNat] [] = .ok () →
    tagCheck t 0 [(b.toNat, fun f g => f == 0x06 && g == 1)] = .ok () →
    (vl = 0 → ∃ k, 0 < k ∧ exec (.partition w d a b m) s =
      .next ((((t.putThr t.thr.clearVstart).addPend [(d.toNat, y)]).occupy k).advance 4)) ∧
    (0 < vl → ∀ desc, (∀ c, readRecord t c x.toNat 64 [(0, 64)] = .ok desc) → descCheck t (traversalChecks desc) = .ok () →
      t.thr.maskPoisoned m.toNat 32 vl 0 = false →
      (L > H ∨ H > fieldOf desc 0x28 4 ∨ L + S.length + U.length > H →
        exec (.partition w d a b m) s = .next (t.takeTrap t.cur 0x11 (BitVec.ofNat 64 (2 * 2 ^ 62 + y.toNat % 2 ^ 32)) none 0)) ∧
      (L ≤ H → H ≤ fieldOf desc 0x28 4 → L + S.length + U.length ≤ H →
        let entry (i : Nat) : Nat := if i ∈ S then L + S.idxOf i else H - 1 - U.idxOf i
        ∀ es, runAhead (fun i => checkElem t t.cur ⟨.store, false, true⟩ ((fieldOf desc 0x20 8 + 4 * entry i) % 2 ^ 64) 4 false)
            (List.range vl) = (es, none) → vecHeld t es = false →
          let v := storeElems ((t.countElems .indexed es).logDeferred (es.map (fun e => ⟨b.toNat, e.1, 32⟩))) t.thr b.toNat 32 es
          ∃ k, 0 < k ∧ exec (.partition w d a b m) s = .next ((((v.putThr v.thr.clearVstart).addPend
            [(d.toNat, BitVec.ofNat 64 ((H - U.length) * 2 ^ 32 + (L + S.length)))]).occupy k).advance 4)))

/-! ## The matrix array and the engine queues -/

/-- R19, R156: the accumulator instructions of the slot that holds the store move one row between it and a vector group, or
zero a slice; in another slot each takes the trap of cause 0x05 once its registers and tags have passed their checks (R67), and a
row above 63 traps after those.
MODEL'S CHOICE: the statement rests on when a vector instruction executes (entry 18) and which captures c.vl and c.vstart (entry 92). -/
def Obligations.AccumulatorResults : Prop :=
  ∀ (s : State) (w : Bool) (sl : BitVec 1) (d a b : BitVec 5),
    let t := s.afterW w
    let core := coreOf t.cur
    let y := t.thr.getG b.toNat
    let row := y.toNat
    let cols := (List.range t.thr.vl.toNat).drop t.thr.vstart.toNat
    let word (u : State) (l r c : Nat) : BitVec 32 := (u.core core).accWord l r c
    let clean := ∀ j ∈ cols, (t.core core).accPoison.contains (accKey sl.toNat row j) = false
    let rows (r : Nat) : Prop := tagCheck t t.thr.vl.toNat [(r, fun f n => f == 0x0B && n == 8)] = .ok ()
    let packed (r : Nat) : Prop := tagCheck t t.thr.vl.toNat [(r, fun f n =>
      ((f == 0x09 || f == 0x0A) && n == 4) || ((f == 0x0D || f == 0x0E) && n == 2) || (f == 0x0F && n == 1))] = .ok ()
    (s.Ready w [] → t.ownsAcc t.cur = false → exec (.mzero w sl) s = s.trapAfter t 0x05 t.wordAtPc) ∧
    (s.VecReady w [] → t.ownsAcc t.cur = false →
      let trap : Host.Outcome State Fault Refusal := .next (t.takeTrap t.cur 0x05 t.wordAtPc none 0)
      (boundCheck t [d.toNat] [] = .ok () →
        (rows d.toNat → exec (.mrd w d sl b) s = trap) ∧ (packed d.toNat → exec (.mcvt w d sl b) s = trap)) ∧
      (boundCheck t [a.toNat] [] = .ok () → rows a.toNat → exec (.mwr w sl a b) s = trap)) ∧
    (s.VecReady w [] → t.ownsAcc t.cur = true → t.sliceFree t.cur sl.toNat = true →
      ∃ u : State, exec (.mzero w sl) s = .next u ∧ u.thr = { t.thr with pc := t.thr.pc + 4 } ∧ u.mem = t.mem ∧
        (∀ r < 64, ∀ c < 256, word u sl.toNat r c = 0) ∧
        (∀ l r c, l ≠ sl.toNat → r < 64 → c < 256 → word u l r c = word t l r c) ∧ ∀ k, k ≠ core → u.core k = t.core k) ∧
    (s.VecReady w [b.toNat] → boundCheck t [d.toNat] [] = .ok () → t.ownsAcc t.cur = true → 64 ≤ row →
      (rows d.toNat → exec (.mrd w d sl b) s = .next (t.takeTrap t.cur 0x03 y none 0)) ∧
      (packed d.toNat → exec (.mcvt w d sl b) s = .next (t.takeTrap t.cur 0x03 y none 0))) ∧
    (s.VecReady w [b.toNat] → boundCheck t [d.toNat] [] = .ok () → row < 64 → t.ownsAcc t.cur = true → clean →
      (rows d.toNat →
        ∃ u, exec (.mrd w d sl b) s = .next u ∧ t.Wrote u d.toNat 32 0 (fun j =>
          if j ∈ cols then some (word t sl.toNat row j).toNat else none)) ∧
      (packed d.toNat →
        let f := fmtFp (t.thr.fmt d.toNat)
        ∃ u, exec (.mcvt w d sl b) s = .next u ∧ t.Wrote u d.toNat f.width 0 (fun j =>
          if j ∈ cols then some (roundTo f .rne (decodeFp Fp.fp32 (word t sl.toNat row j).toNat)).1 else none))) ∧
    (s.VecReady w [b.toNat] → boundCheck t [a.toNat] [] = .ok () → rows a.toNat → t.ownsAcc t.cur = true →
      (64 ≤ row → exec (.mwr w sl a b) s = .next (t.takeTrap t.cur 0x03 y none 0)) ∧
      (row < 64 → t.sliceFree t.cur sl.toNat = true →
        ∃ u : State, exec (.mwr w sl a b) s = .next u ∧ u.mem = t.mem ∧ u.thr = { t.thr with
            pc := t.thr.pc + 4, vstart := 0, pend := t.thr.pend.map (Pend.drop codeVstart) } ∧
          (∀ j ∈ cols, word u sl.toNat row j = BitVec.ofNat 32 (t.thr.elem a.toNat j 32)) ∧
          (∀ l r c, r < 64 → c < 256 → (l ≠ sl.toNat ∨ r ≠ row ∨ c ∉ cols) → word u l r c = word t l r c) ∧
          ∀ k, k ≠ core → u.core k = t.core k))

/-- R140, R141, R235, R239: MGANG waits for its join; the join releases its threads, each with a join that one MMA may use. A join that
finds a thread held releases none: the held ones stand at their MGANG and the others wait on. MODEL'S CHOICE: what a held thread of a
join does (log entry 47), and that tval 2 comes before 3 (115). -/
def Statement.GangJoinResults : Prop :=
  (∀ (s : State) (w : Bool), s.Ready w [] →
    let t := s.afterW w
    let q := quadOfCore (coreOf t.cur)
    let g := t.quad q
    t.ownsAcc t.cur = true → t.thr.region = none →
    (t.gangHalted t.cur = true → exec (.mgang w) s = s.trapAfter t 0x0A 2) ∧
    (t.gangHalted t.cur = false → t.thr.joined = true → exec (.mgang w) s = s.trapAfter t 0x0A 3) ∧
    (t.gangHalted t.cur = false → t.thr.joined = false →
      exec (.mgang w) s = .next ((t.setQuad q { g with
        arrived := g.arrived ++ [t.cur], joinAt := if g.arrived.length = 3 then some (t.clk + 2) else g.joinAt }).putThr
        { t.thr with st := .waiting .gang }))) ∧
  (∀ (s : State) (quad slot c : Nat), (s.quad quad).joinAt = some c → c ≤ s.clk →
    (∀ k ∈ (s.quad quad).arrived, slotOf k = slot) →
    ((∀ k ∈ (s.quad quad).arrived, (s.thread k).held = false) → ∃ u : State, exec (.gangJoinRelease quad slot) s = .next u ∧ (u.quad quad).arrived = [] ∧ (u.quad quad).joinAt = none ∧
      u.mem = s.mem ∧ (∀ k ∈ (s.quad quad).arrived, (s.thread k).st = .waiting .gang →
        u.thread k = { s.thread k with st := .running, pc := (s.thread k).pc + 4, joined := true }) ∧
      ∀ k, k ∉ (s.quad quad).arrived → u.thread k = s.thread k) ∧
    ((∃ k ∈ (s.quad quad).arrived, (s.thread k).held = true) → ∃ u : State, exec (.gangJoinRelease quad slot) s = .next u ∧
      (u.quad quad).arrived = (s.quad quad).arrived.filter (fun k => !(s.thread k).held) ∧ (u.quad quad).joinAt = none ∧ u.mem = s.mem ∧
      (∀ k ∈ (s.quad quad).arrived, (s.thread k).held = true → (s.thread k).st = .waiting .gang →
        u.thread k = { s.thread k with st := .running }) ∧
      ∀ k, k ∉ (s.quad quad).arrived ∨ (s.thread k).held = false → u.thread k = s.thread k))

/-- R141, R142, R148, R152: an MMA whose checks pass adds its operation to its quad's gang and holds its thread; the fourth
starts the gang operation, or traps all four where their shared parameters differ. -/
def Statement.MatrixIssueResults : Prop :=
  ∀ (s : State) (w : Bool) (sl sc : BitVec 1) (a b : BitVec 5) (kc : BitVec 4) (kd : BitVec 3) (i : Instr) (slide : Bool)
    (src ra k : Nat),
    (i, slide, src, ra, k) ∈
      [(Instr.mmaVreg w sl a b kc, false, 0, a.toNat, kc.toNat), (.mmaScratch w sl a b kc, false, 1, a.toNat, kc.toNat),
       (.mmaDownconv w sl sc b kd, false, 2, sc.toNat, kd.toNat), (.mmaSlideVreg w sl a b kc, true, 0, a.toNat, kc.toNat),
       (.mmaSlideScratch w sl a b kc, true, 1, a.toNat, kc.toNat)] →
    s.Ready w (if src = 1 then [ra, b.toNat] else [b.toNat]) →
    let t := s.afterW w
    let q := quadOfCore (coreOf t.cur)
    let g := t.quad q
    let stop (cause : Nat) (v : Word) : Host.Outcome State Fault Refusal := s.trapAfter t cause v
    let p : GangPart := { slide := slide, d := sl.toNat, src := src, kc := k, a := if src = 1 then (t.thr.getG ra).toNat else ra, b := (t.thr.getG b.toNat).toNat, mstart := t.thr.mstart.toNat, fa := t.thr.fmtA.toNat, fb := t.thr.fmtB.toNat, fc := t.thr.fmtC.toNat, sa := t.thr.scaleA.toNat, sb := t.thr.scaleB.toNat }
    let parts := g.parts.set (coreOf t.cur % 4) p
    let u := (t.setQuad q { g with parts := parts }).putThr { t.thr with inGang := true }
    (src = 2 → ra = sl.toNat → exec i s = stop 0x01 t.wordAtPc) ∧
    (¬ (src = 2 ∧ ra = sl.toNat) → t.ownsAcc t.cur = false → exec i s = stop 0x05 t.wordAtPc) ∧
    (¬ (src = 2 ∧ ra = sl.toNat) → t.ownsAcc t.cur = true → t.thr.region = none → t.unperformed t.cur = false → t.thr.vq = [] →
      (∀ e ∈ t.thr.pend, e.isVec = false) →
      (k < t.thr.mstart.toNat → exec i s = stop 0x01 t.wordAtPc) ∧
      (t.thr.mstart.toNat ≤ k → t.thr.joined = false → exec i s = stop 0x0A 0) ∧
      (t.thr.mstart.toNat ≤ k → t.thr.joined = true →
        boundCheck t [] ((if src = 0 then [(ra, p.span)] else []) ++ (p.scaleSpanA ++ p.scaleSpanB).map (fun r => (r, 1))) = .ok () →
        (∀ r, mmaTag t.thr p = some r → exec i s = stop 0x04 (BitVec.ofNat 64 r)) ∧
        (mmaTag t.thr p = none →
          (∀ e, p.ranges.find? (fun e => e.1 % 64 ≠ 0) = some e → exec i s = stop 0x07 (BitVec.ofNat 64 e.1)) ∧
          ((∀ e ∈ p.ranges, e.1 % 64 = 0) →
            (∀ x, outsideGrant (t.scratchGrant t.cur) p.ranges = some x → exec i s = stop 0x06 (BitVec.ofNat 64 x)) ∧
            (outsideGrant (t.scratchGrant t.cur) p.ranges = none →
              (parts.length < 4 → exec i s = .next u) ∧
              (4 ≤ parts.length → (∀ e ∈ parts, e.2.shared = p.shared) → exec i s =
                .next (u.setQuad q { u.quad q with startAt := t.clk + (if src = 2 then 12 else 4) })) ∧
              (4 ≤ parts.length → (∃ e ∈ parts, e.2.shared ≠ p.shared) →
                (∀ x ∈ t.gangKeys q, isSpring x = false) →
                ∃ v : State, exec i s = .next v ∧ (∀ c, (v.core c).acc = (t.core c).acc) ∧
                  ∀ x ∈ t.gangKeys q, (v.thread x).st = .parkedTrap))))))

/-- R147: what one K-step of a gang operation does. Each element of C takes, of a pair of FP16 or BF16 formats, its 32 products
one after the other, and of the others their exact sum at once, rounded and flushed; nothing else changes. -/
def Statement.KStepEffect : Prop :=
  (∀ (s : State) (p : Nat → GangPart) (quad slot l q : Nat), (s.core (quad * 4)).accOwner = some (slot, l) → slot < 16 →
    let keys := s.gangKeys quad
    let u := s.kStep p keys q
    (∀ c < 4, ∀ r < 64, ∀ j < 256,
      let core := quad * 4 + c
      let x := valuesA s core (s.thread (core * 16 + slot)) (p c) r q
      let e := j / 64
      let y := valuesB s (quad * 4 + e) (s.thread ((quad * 4 + e) * 16 + slot)) (p e) q (j % 64)
      let old := ((s.core core).accWord (p c).d r j).toNat
      ((u.core core).accWord (p c).d r j).toNat = (if isHalf (p c).afmt then
          (List.zipWith Val.times x y).foldl (fun a z => flush32 (roundTo Fp.fp32 .rne (Val.plus (decodeFp Fp.fp32 a) z)).1) old
        else flush32 (roundTo Fp.fp32 .rne (Val.plus (decodeFp Fp.fp32 old)
          ((List.zipWith Val.times x y).foldl Val.plus (.zero false)))).1) % 2 ^ 32) ∧
    (∀ c < 4, ∀ l r j, r < 64 → j < 256 → l ≠ (p c).d →
      (u.core (quad * 4 + c)).accWord l r j = (s.core (quad * 4 + c)).accWord l r j) ∧
    (∀ k, k / 4 ≠ quad → u.core k = s.core k) ∧ u.mem = s.mem ∧ u.threads = s.threads) ∧
  (∀ c : Nat, c < 2 ^ 32 → flush32 c = if c / 2 ^ 23 % 2 ^ 8 = 0 then c / 2 ^ 31 * 2 ^ 31 else c)

/-- R141, R149, R150, R154, R155: the steps of a gang operation. It starts once no earlier MST still reads the slice; each K-step
takes effect whole, unless an operand is poisoned; a held thread suspends it after a step; at its end c.mstart is 0 and the
four threads go on. -/
def Statement.GangEventResults : Prop :=
  ∀ (s : State) (quad : Nat),
    let g := s.quad quad
    let p := g.part 0
    let keys := s.gangKeys quad
    s.dev.tripped = false →
    (g.parts.length = 4 → g.step = none → s.gangHeld quad = false → g.startAt ≤ s.clk → (∀ k ∈ keys, s.sliceFree k p.d = true) →
      ∃ u : State, exec (.gangOpStart quad) s = .next u ∧ u.quad quad = { g with step := some p.mstart, endAt := s.clk + p.stepClk } ∧
        (∀ k ∈ keys, u.thread k = { s.thread k with joined := false }) ∧ (∀ k, k ∉ keys → u.thread k = s.thread k) ∧ u.mem = s.mem) ∧
    (∀ q, g.step = some q → g.endAt ≤ s.clk → q ≤ p.kc →
      ((∀ k ∈ keys, stepPoison s k (g.part (coreOf k % 4)) q = none) →
        let v := s.kStep g.part keys q
        (q = p.kc → exec (.gangKstepEnd quad) s = .next (v.setQuad quad { g with step := some (q + 1), endAt := g.endAt + 8 })) ∧
        (q ≠ p.kc → s.gangHeld quad = false →
          exec (.gangKstepEnd quad) s = .next (v.setQuad quad { g with step := some (q + 1), endAt := g.endAt + p.stepClk })) ∧
        (q ≠ p.kc → s.gangHeld quad = true →
          ∃ u : State, exec (.gangKstepEnd quad) s = .next u ∧ (u.quad quad).step = none ∧ (u.quad quad).parts = [] ∧
            (∀ c, (u.core c).acc = (v.core c).acc) ∧ ∀ k ∈ keys, u.thread k =
              { s.thread k with mstart := BitVec.ofNat 4 (q + 1), joined := true, inGang := false })) ∧
      ((∃ k ∈ keys, stepPoison s k (g.part (coreOf k % 4)) q ≠ none) → (∀ k ∈ keys, isSpring k = false) →
        ∃ u : State, exec (.gangKstepEnd quad) s = .next u ∧ (u.quad quad).step = none ∧ (∀ c, (u.core c).acc = (s.core c).acc) ∧
          ∀ k ∈ keys, (u.thread k).mstart = BitVec.ofNat 4 q ∧ (u.thread k).joined = true ∧
            (stepPoison s k (g.part (coreOf k % 4)) q ≠ none → (u.thread k).st = .parkedTrap))) ∧
    (∀ q, g.step = some q → g.endAt ≤ s.clk → p.kc < q →
      ∃ u : State, exec (.gangOpComplete quad) s = .next u ∧ u.quad quad = { g with parts := [], step := none } ∧ u.mem = s.mem ∧
        (∀ k ∈ keys, u.thread k = { s.thread k with mstart := 0, inGang := false, pc := (s.thread k).pc + 4 }) ∧
        (∀ k, k ∉ keys → u.thread k = s.thread k) ∧ ∀ c, u.core c = s.core c)

/-- R158, R159, R255, R358: MST enters the matrix-drain queue with the 64 rows that it has checked, after the core's dirty STRM bytes
have gone home; MWAIT passes once no MST of the thread is outstanding; the queue then reads the slice, and the words are written row
by row, or, where a route has gone down, the entry ends with code 4.
MODEL'S CHOICE: the statement rests on the matrix-drain queue (entries 41 and 42), MWAIT and err[2] (entry 120) and rows above 2^64 (entry 121). -/
def Obligations.MatrixDrainResults : Prop :=
  (∀ (s : State) (w : Bool) (sl : BitVec 1) (a b : BitVec 5),
    let t := s.afterW w
    let x := t.thr.getG a.toNat
    let y := t.thr.getG b.toNat
    t.ownsAcc t.cur = true → t.thr.region = none →
    (s.Ready w [] → t.outCount t.thr.owner 2 = 0 → exec (.mwait w) s = .next (t.advance 4)) ∧
    (s.Ready w [a.toNat, b.toNat] → t.thr.vq = [] → t.queueTakes 2 = true → t.unperformed t.cur = false →
      t.flushHeld (coreOf t.cur) = false →
      (x.toNat % 64 ≠ 0 → exec (.mst w sl a b) s = .next (t.takeTrap t.cur 0x07 x none 0)) ∧
      (x.toNat % 64 = 0 → y.toNat % 64 ≠ 0 → exec (.mst w sl a b) s = .next (t.takeTrap t.cur 0x07 y none 0)) ∧
      (x.toNat % 64 = 0 → y.toNat % 64 = 0 → ∀ sp, mstRows t x.toNat y.toNat (List.range 64) = .ok sp →
        exec (.mst w sl a b) s = .next (((t.flushStrm (coreOf t.cur) (fun _ => true)).accept 2 (.mst sl.toNat (mstPages x.toNat y.toNat) (sp.map (fun p => (p.pa, p.attr, p.n)))
          (coreOf t.cur) [] false) none).advance 4)))) ∧
  (∀ (s : State) (core : Nat) (e : Entry) (sl : Nat) (rows : List (Nat × Nat × Nat)) (data : List (BitVec 32 × Bool)),
    s.dev.tripped = false →
    (s.mstOf core false = some (e, sl, rows, data) → ∀ ps, e.job = .mst sl ps rows core data false →
      exec (.mstDrainStart core) s = .next (s.setJob e.id (.mst sl ps rows core ((List.range 16384).map (fun i =>
        ((s.core core).acc.getD (sl * 16384 + i) 0, (s.core core).accPoison.contains (sl * 16384 + i)))) true))) ∧
    (s.mstOf core true = some (e, sl, rows, data) → (∃ r ∈ rows, r.2.1 ≠ 3 ∧ s.routeUp (paPkg r.1) = false) →
      exec (.mstComplete core) s = .next (s.completeEntry { e with code := 4 })) ∧
    (s.mstOf core true = some (e, sl, rows, data) → (∀ r ∈ rows, r.2.1 ≠ 3 → s.routeUp (paPkg r.1) = true) →
      s.spansHeld (rows.map (fun r => ⟨r.1, r.2.1, r.2.2⟩)) = false → (∀ r ∈ rows, s.isReg r.1 r.2.1 = false ∧ r.2.2 = 64) →
      rows.Pairwise (fun p q => p.1 + 64 ≤ q.1 ∨ q.1 + 64 ≤ p.1) → data.length = 16 * rows.length →
      ∃ u : State, exec (.mstComplete core) s = .next u ∧ u.entries = s.entries.filter (fun x => x.id != e.id) ∧
        (∀ j < rows.length, ∀ i < 16, memNat u.mem ((rows.getD j (0, 0, 0)).1 + 4 * i) 4 = (data.getD (16 * j + i) (0, false)).1.toNat) ∧
        ∀ x, (∀ r ∈ rows, x < r.1 ∨ r.1 + 64 ≤ x) → memByte u.mem x = memByte s.mem x))

/-- R203, R216 to R220: COPY, FILL, COLL and the three forms of MARCH enter their queues with what their commands, or their
descriptor, buffer and rays, hold, once these pass their checks. A queue that is full, or that a QFENCE keeps from accepting, leaves
the turn idle. -/
def Statement.EngineIssueResults : Prop :=
  ∀ (s : State) (w : Bool) (a : BitVec 5),
    let t := s.afterW w
    t.thr.region = none → t.unperformed t.cur = false → t.thr.memQueued = false → t.flushHeld (coreOf t.cur) = false →
    (s.Ready w [a.toNat] →
      let off := (t.thr.getG a.toNat).toNat
      let gr := t.scratchGrant t.cur
      let u := t.flushStrm (coreOf t.cur) (fun _ => true)
      let pa := scratchAddr (coreOf t.cur) off
      let x := u.read pa 64
      let len := fieldOf x 0x10 8
      let trap (c v : Nat) : Host.Outcome State Fault Refusal := s.trapAfter u c (BitVec.ofNat 64 v)
      (∀ i q, (i, q) ∈ [(Instr.copy w a, 0), (.fill w a, 0), (.coll w a, 1)] →
        (t.queueTakes q = false → exec i s = .next s) ∧
        (t.queueTakes q = true → off % 64 ≠ 0 ∨ off < gr.1 ∨ gr.1 + gr.2 < off + 64 → exec i s = trap 0x06 off)) ∧
      (off % 64 = 0 → gr.1 ≤ off → off + 64 ≤ gr.1 + gr.2 → u.badWord u.cur pa 64 = none →
        (∀ i rs job, (i, rs, job) ∈
            [(Instr.copy w a, [(fieldOf x 0 8, len), (fieldOf x 8 8, len)], Job.copy (fieldOf x 0 8) (fieldOf x 8 8) len),
             (.fill w a, [(fieldOf x 8 8, len)], .fill (fieldOf x 0 8) (fieldOf x 8 8) len)] → t.queueTakes 0 = true →
          (2 ^ 40 < len → exec i s = trap 0x10 0x10) ∧
          (len ≤ 2 ^ 40 → fieldOf x 0x18 40 ≠ 0 → exec i s = trap 0x10 0x18) ∧
          (len ≤ 2 ^ 40 → fieldOf x 0x18 40 = 0 →
            (∀ v, least (rs.filterMap (fun e => u.badAddr u.cur e.1 e.2)) = some v → exec i s = trap 0x06 v) ∧
            ((∀ e ∈ rs, u.badAddr u.cur e.1 e.2 = none) → exec i s = .next ((u.accept 0 job none).advance 4)))) ∧
        (t.queueTakes 1 = true →
          let count := fieldOf x 0x10 4
          let op := fieldOf x 0x14 1
          let ty := fieldOf x 0x15 1
          let root := fieldOf x 0x16 1
          let key := fieldOf x 0x18 8
          let members := fieldOf x 0x20 16
          let ranks := oneBits 128 members
          let n := count * (fmtWidth ty / 8)
          1 ≤ count → count ≤ 2 ^ 24 → op ≤ 4 → collType ty = true → root < ranks → fieldOf x 0x17 1 = 0 →
          key ≠ 0 → bitAt members u.dev.pkg.toNat = true → fieldOf x 0x30 16 = 0 →
          u.badAddr u.cur (fieldOf x 0 8) n = none → u.badAddr u.cur (fieldOf x 8 8) (if op = 4 then ranks * n else n) = none →
          let job := Job.coll key op ty members root count (fieldOf x 0 8) (fieldOf x 8 8)
          ((∃ p < 128, bitAt members p = true ∧ u.routeUp p = false) → exec (.coll w a) s = .next ((u.accept 1 job (some 4)).advance 4)) ∧
          ((∀ p < 128, bitAt members p = true → u.routeUp p = true) →
            (∀ e ∈ u.entries, e.finished = false → ∀ k o y m r c f g, e.job = .coll k o y m r c f g → k ≠ key) →
            exec (.coll w a) s = .next ((u.accept 1 job none).advance 4))))) ∧
    (∀ (d b : BitVec 5) (m : BitVec 3) (i : Instr) (mode : Nat),
      (i, mode) ∈ [(Instr.marchRecord w d a b m, 0), (.marchAcc w d a b m, 1), (.marchLocate w d a b m, 2)] →
      s.Ready w [a.toNat, d.toNat] → pendingOf t.thr.pend codeVl = none → (∀ p ∈ t.thr.pend, p.isVec = false) → t.thr.vq = [] →
      let desc := t.thr.getG a.toNat
      let buf := t.thr.getG d.toNat
      boundCheck t [] [(b.toNat, 8)] = .ok () → tagCheck t 0 [(b.toNat, fun f n => f == 0x0B && n == 8)] = .ok () →
      t.thr.vl.toNat ≤ 32 → t.queueTakes 3 = true →
      (desc.toNat % 64 ≠ 0 → exec i s = .next (t.takeTrap t.cur 0x07 desc none 0)) ∧
      (desc.toNat % 64 = 0 → buf.toNat % 64 ≠ 0 → exec i s = .next (t.takeTrap t.cur 0x07 buf none 0)) ∧
      (desc.toNat % 64 = 0 → buf.toNat % 64 = 0 →
        ∀ sp parts hdr cap rays v, t.resolve t.cur .load false desc.toNat 64 = .ok sp →
          marchBuffer t mode buf.toNat = .ok (parts, hdr, cap) →
          let head : Span := ⟨(parts.headD (0, 0)).1, (parts.headD (0, 0)).2, 64⟩
          t.portHeld t.cur = false → t.partsHeld t.cur (head :: sp) = false →
          (∀ p ∈ head :: sp, t.badWord t.cur p.pa p.n = none) → cap ≤ 2 ^ 20 → fieldOf hdr 4 60 = 0 →
          let x := t.loadParts t.cur sp
          descCheck t (meshChecks x) = .ok () → submitted t t.thr t.thr b.toNat m.toNat t.thr.vl.toNat = .ok (rays, v) →
          ∃ u : State, exec i s = .next u ∧ u.thr.pc = t.thr.pc + 8 ∧ u.thr.vstart = 0 ∧ u.thr.g = t.thr.g ∧
            ∃ e : Entry, u.entries = t.entries ++ [e] ∧ e.q = 3 ∧ e.owner = t.thr.owner ∧ e.finished = false ∧
              ∃ job : March, e.job = .march job ∧ job.mode = mode ∧ job.limit = t.thr.marchLimit.toNat ∧ job.rays = rays ∧
                job.cells = fieldOf x 0 8 ∧ job.verts = fieldOf x 8 8 ∧ job.ccount = fieldOf x 0x10 4 ∧
                job.vcount = fieldOf x 0x14 4 ∧ job.poly = decide (fieldOf x 0x18 1 = 1) ∧ job.cap = cap ∧ job.buf = parts))

/-- R220, R221: QFENCE, QWAIT and QSTAT. While an entry that a QFENCE orders is outstanding, a queue it names accepts no entry of its
thread. -/
def Statement.EngineWaitResults : Prop :=
  ∀ (s : State) (w : Bool) (d set : BitVec 5) (q : BitVec 3), s.Ready w [] →
    let t := s.afterW w
    (∀ f ∈ s.fences, f.owner = s.thr.owner → s.fenceLive f = true → ∀ j, bitAt f.set j = true → s.queueTakes j = false) ∧
    (t.thr.region = none →
    ((∀ j < 4, bitAt set.toNat j = true → t.queueUsed (coreOf t.cur) j < queueRoom j) →
      ∃ u : State, exec (.qfence w set) s = .next u ∧ u.thr = { t.thr with pc := t.thr.pc + 4 } ∧ u.entries = t.entries ∧
        ∀ f, f ∈ u.fences ↔ (f ∈ t.fences ∧ t.fenceLive f = true) ∨
          f = { owner := t.thr.owner, core := coreOf t.cur, set := set.toNat, bound := t.uid }) ∧
    exec (.qwait w d q) s = .next ((t.putThr { t.thr with
      pend := t.thr.pend.map (Pend.drop d.toNat) ++ [.qwait d.toNat q.toNat t.uid] }).advance 4) ∧
    exec (.qstat w d q) s = .next ((t.addPend [(d.toNat,
      BitVec.ofNat 64 (t.outCount t.thr.owner q.toNat + t.thr.err.getD q.toNat 0 * 2 ^ 32))]).advance 4))

/-- R217 to R219, R286, R291, R358: the engines. A copy engine writes each byte of its entry up to the first that fails, whose code it
reports, and an absent page holds it with every queue it serves; a COLL whose members have all arrived delivers its result to its
own dst, and ends with code 3 where they disagree and 4 where a route is down, and of a BCAST only the root reads its src; a cell-march
unit takes an entry of the next core, steps its rays, of which one that waits holds itself alone, and completes the entry once every
ray has ended, with code 4 where the route to a package of its buffer is down. -/
def Statement.EngineSteps : Prop :=
  (∀ (s : State) (unit : Nat) (e : Entry), s.copyHead unit = some e →
    ∀ (f : Nat → Except EngineFail Moved) (n : Nat),
      (∃ src dst, e.job = .copy src dst n ∧ f = copyByte s e src dst) ∨ (∃ v dst, e.job = .fill v dst n ∧ f = fillByte s e v dst) →
      (∀ (ms : List Moved) x, untilFail f (List.range n) = (ms, x) → (∀ va, x ≠ some (.park va)) → x ≠ some .hold →
        s.spansHeld (ms.flatMap (fun m => m.dst :: m.src.toList)) = false → (∀ m ∈ ms, s.isReg m.dst.pa m.dst.attr = false) →
        (ms.map (fun m => m.dst.pa)).Nodup →
        ∃ u : State, exec (.copyEngineEntry unit) s = .next u ∧ (∀ m ∈ ms, memByte u.mem m.dst.pa = BitVec.ofNat 8 m.val) ∧
          (∀ a, (∀ m ∈ ms, m.dst.pa ≠ a) → memByte u.mem a = memByte s.mem a) ∧
          u.entries = s.entries.map (fun y => if y.id = e.id then { y with finished := true, code := (match x with
            | some (.code c) => c
            | _ => 0) } else y)) ∧
      (∀ ms va, untilFail f (List.range n) = (ms, some (.park va)) →
        ∃ u : State, exec (.copyEngineEntry unit) s = .next u ∧ u.isHeld 0 unit e.id = true ∧ u.copyHead unit = none ∧
          u.entries = s.entries ∧
          ∀ m ∈ ms, m.dst.pa < 2 ^ 57 → memByte u.mem m.dst.pa = memByte s.mem m.dst.pa)) ∧
  (∀ (s : State) (e : Entry) (src dst i : Nat) (p d : Span), engineByte s e .load (src + i) = .ok p → engineByte s e .store (dst + i) = .ok d →
    s.isReg p.pa p.attr = false →
    (s.poisonedAt p.pa 1 = true → copyByte s e src dst i = .error (.code 2)) ∧
    (s.poisonedAt p.pa 1 = false → copyByte s e src dst i = .ok ⟨d, some p, s.read p.pa 1⟩) ∧
    ∀ pat, fillByte s e pat dst i = .ok ⟨d, none, pat / 2 ^ (8 * ((dst + i) % 8)) % 256⟩) ∧
  (∀ (s : State) (key : BitVec 64) (e : Entry) (op ty members root count src dst : Nat),
    s.entries.find? (fun e => !e.finished && s.isHead e && (match e.job with
      | .coll k _ _ _ _ _ _ _ => k == key.toNat
      | _ => false)) = some e → e.job = .coll key.toNat op ty members root count src dst →
    let others := (List.range 128).filter (fun p => bitAt members p && p != s.dev.pkg.toNat)
    let sent := s.remote.filter (fun r => r.key == key.toNat && others.contains r.pkg)
    ((∃ p ∈ others, s.routeUp p = false) → exec (.collMatch key) s = .next ((s.dropRemote key.toNat).finishEntry e.id 4)) ∧
    ((∀ p ∈ others, s.routeUp p = true) → s.unitHeld 1 0 = false →
      ((∃ p ∈ others, ∀ r ∈ sent, r.pkg ≠ p) → exec (.collMatch key) s = .next s) ∧
      ((∀ p ∈ others, ∃ r ∈ sent, r.pkg = p) →
        ((∃ r ∈ sent, r.agrees op ty members root count = false) →
          exec (.collMatch key) s = .next ((s.dropRemote key.toNat).finishEntry e.id 3)) ∧
        ((∀ r ∈ sent, r.agrees op ty members root count = true) →
          let n := count * (fmtWidth ty / 8)
          ∀ own, untilFail (fun i => sourceByte s e (src + i))
              (List.range (if op = 3 ∧ rankOf members s.dev.pkg.toNat ≠ root then 0 else n)) = (own, none) → s.spansHeld (own.map Prod.fst) = false →
            let mine := own.map (fun b => BitVec.ofNat 8 b.2)
            let data := ((List.range 128).filter (bitAt members)).map (fun p =>
              if p = s.dev.pkg.toNat then mine
              else ((s.remote.find? (fun r => r.key == key.toNat && r.pkg == p)).map (fun r => r.data)).getD [])
            let out := collResult op ty root count data
            ∀ ds, (List.range out.length).mapM (fun i => engineByte s e .store (dst + i)) = .ok ds → s.spansHeld ds = false →
              (∀ d ∈ ds, s.isReg d.pa d.attr = false) → (ds.map (fun d => d.pa)).Nodup →
              ∃ u : State, exec (.collMatch key) s = .next u ∧
                (∀ i < ds.length, memByte u.mem (ds.getD i ⟨0, 0, 0⟩).pa = BitVec.ofNat 8 (out.getD i 0)) ∧
                (∀ a, (∀ d ∈ ds, d.pa ≠ a) → memByte u.mem a = memByte s.mem a) ∧
                u.entries = s.entries.map (fun y => if y.id = e.id then { y with finished := true, code := 0 } else y))))) ∧
  (∀ (ty root count : Nat) (data : List (List Byte)), ty ∈ [0x05, 0x06, 0x07, 0x08] → (∀ d ∈ data, d.length = count * (fmtWidth ty / 8)) →
    let n := fmtWidth ty / 8
    collResult 3 ty root count data = (data.getD root []).map BitVec.toNat ∧
    collResult 4 ty root count data = data.flatten.map BitVec.toNat ∧
    ∀ x y, data = [x, y] → ∀ j < count, ∀ i < n,
      (collResult 0 ty root count data).getD (n * j + i) 0 = (elementOf x n j + elementOf y n j) / 256 ^ i % 256) ∧
  (∀ (s : State) (cluster core id : Nat) (m : March), s.dev.tripped = false → s.marchCore cluster = some core →
    (s.entries.filter (fun e => clusterOf e.slot == cluster && (match e.march with
      | some m => m.taken
      | none => false))).length < 16 →
    s.entries.findSome? (fun e => match e.march with
      | some m => if coreOf e.slot == core && !m.taken then some (e.id, m) else none
      | none => none) = some (id, m) →
    exec (.marchEntryTake cluster) s =
      .next { s.setJob id (.march { m with taken := true }) with marchLast := s.marchLast.set cluster core }) ∧
  (∀ (s : State) (cluster id ray : Nat) (e : Entry) (m : March) (r : Ray), s.marchEntry cluster id = some (e, m) →
    m.rays.find? (fun r => r.idx == ray && r.out.isNone) = some r → s.isHeld 2 cluster (id * 64 + ray) = false →
    (∀ r' p counted, rayStep s e m r = .ray r' p counted → ∃ u : State, exec (.marchStep cluster id ray) s = .next u ∧
      u.entries = (s.setJob id (.march { m with rays := m.rays.map (fun x => if x.idx = ray then r' else x) })).entries ∧
      u.mem = s.mem ∧ u.threads = s.threads) ∧
    (∀ va, rayStep s e m r = .park va →
      exec (.marchStep cluster id ray) s =
        .next ((s.retry 2 cluster (id * 64 + ray)).agentRequest 2 cluster cluster va (id * 64 + ray))) ∧
    (rayStep s e m r = .hold → exec (.marchStep cluster id ray) s = .next (s.retry 2 cluster (id * 64 + ray)))) ∧
  (∀ (s : State) (cluster id : Nat) (e : Entry) (m : March), s.marchEntry cluster id = some (e, m) → s.isHead e = true → s.dev.tripped = false →
    (∀ r ∈ m.rays, r.out.isSome = true) →
    ((∀ p ∈ m.buf, p.2 ≠ 3 → s.routeUp (paPkg p.1) = true) → s.spansHeld (m.buf.map (fun p => ⟨p.1, p.2, 64⟩)) = false →
      exec (.marchEntryComplete cluster id) s = .next ((m.rays.foldl (fun s r => s.writeRay m r) s).completeEntry e)) ∧
    ((∃ p ∈ m.buf, p.2 ≠ 3 ∧ s.routeUp (paPkg p.1) = false) →
      exec (.marchEntryComplete cluster id) s = .next ((s.unhold [e.id]).completeEntry { e with code := 4 })))

/-! ## The raster pipeline -/

/-- R210 to R213, R220, R249, R255: QPUSH accepts the 64 bytes at its scratch address as the next entry of an agent's queue that is
bound to a frame of its launch, and names it in the notify register where it asks for that. It stays where a QFENCE over the agent
queues is not yet met, where an ordered access of its core is not yet performed, behind the vector memory instructions of its own
thread, and where a dirty byte of its core has its home in a reset.
MODEL'S CHOICE: the statement rests on the wait behind the vector memory instructions of the thread (entry 18) and behind its announced accesses (entry 12), on what holds an access (entry 20), on the flush at an engine instruction and the places that a QFENCE holds (entry 42) and on a die in reset (entry 71). -/
def Obligations.QueuePushResults : Prop :=
  ∀ (s : State) (w : Bool) (a b : BitVec 5) (n : BitVec 1) (i : Instr) (kind : Nat),
    (i, kind) ∈ [(Instr.qpushTile w a b n, 0), (.qpushBlend w a b n, 1), (.qpushMesh w a b n, 2)] → s.Ready w [a.toNat, b.toNat] →
    let t := s.afterW w
    let x := t.thr.getG a.toNat
    let y := t.thr.getG b.toNat
    let h := x.toNat
    let off := y.toNat
    let die := h / 1024 % 4
    let clus := h / 64 % 16
    let key := aqKey kind (if kind = 2 then die else die * 16 + clus) (h % 64)
    let q := t.aqueue key
    let gr := t.scratchGrant t.cur
    let pa := scratchAddr (coreOf t.cur) off
    let f := t.flushStrm (coreOf t.cur) (fun _ => true)
    let u := f.accept 4 .push none
    let bound := ∃ f l, q.frame = some f ∧ t.launchOf t.thr = some l ∧ f ∈ l.frames
    let waits := (∃ f ∈ t.fences, f.owner = t.thr.owner ∧ bitAt f.set 4 = true ∧ t.outBelow f.owner 4 f.bound = true) ∨
      t.portHeld t.cur = true ∨ t.thr.memQueued = true ∨ t.flushHeld (coreOf t.cur) = true
    (4096 ≤ h ∨ (kind = 2 ∧ clus ≠ 0) → exec i s = s.trapAfter t 0x01 t.wordAtPc) ∧
    (h < 4096 → (kind = 2 → clus = 0) → t.thr.region = none →
      (¬ bound → exec i s = s.trapAfter t 0x06 x) ∧
      (bound → off % 64 ≠ 0 → exec i s = s.trapAfter t 0x07 y) ∧
      (bound → off % 64 = 0 → off < gr.1 ∨ gr.1 + gr.2 < off + 64 → exec i s = s.trapAfter t 0x06 y) ∧
      (bound → off % 64 = 0 → gr.1 ≤ off → off + 64 ≤ gr.1 + gr.2 →
        (waits → exec i s = .next s) ∧
        (¬ waits →
          (aqRoom kind ≤ q.items.length ∨ 0xFFFFFFFF ≤ q.next → exec i s = s.trapAfter t 0x12 x) ∧
          (q.items.length < aqRoom kind → q.next < 0xFFFFFFFF → t.badWord t.cur pa 64 = none →
            exec i s = .next ((u.setAqueue key { q with
              next := q.next + 1, items := q.items ++ [{ seq := q.next, id := f.uid, data := f.read pa 64, taken := false, left := 0 }],
              notify := if n = 1 then q.next else q.notify }).advance 4)))))

/-- R302, R305 to R309: a mesh distributor empties the bin head table before the first entry of its frame; it takes the head entry
of its queue, rejects one of another frame or kind, ends binning at END, drops a triangle that is culled or meets no bin, and bins
the others. After DONE it still rejects such entries, and the others have no effect.
MODEL'S CHOICE: the statement rests on what is done with entries of a DONE frame (entry 59), with a word that is no chunk address (entry 109) and accesses to a die in reset (entry 124). -/
def Obligations.MeshResults : Prop :=
  (∀ (s : State) (die q : Nat) (fid : Nat) (f : Frame) (i : QItem),
    let key := aqKey 2 die q
    (s.aqueue key).frame = some fid → s.frame? fid = some f → (s.aqueue key).head = some i → f.hand = none → f.ended = false →
    f.state = 0 → s.isHeld 4 f.lowest (meshTag fid) = false →
    (∀ v, f.headed = false → s.meshWait fid f .store (writeSpans f.headZeros) = .ok v →
      exec (.meshTri die q) s = .next ((v.pokes f.part f.headZeros).setFrame fid { f with headed := true })) ∧
    (f.headed = true →
      (∀ v, isEnd f i = true → s.recordWait 4 f.lowest (meshTag fid) f = .ok v → exec (.meshEnd die q) s =
        .next ((v.frameState fid { f with ended := true, rendered := [] } 1).processed key i.seq)) ∧
      (∀ v, fieldOf i.data 2 2 ≠ f.number ∨ (fieldOf i.data 0 1 ≠ 1 ∧ fieldOf i.data 0 1 ≠ 2) →
        s.recordWait 4 f.lowest (meshTag fid) f = .ok v →
        exec (.meshTri die q) s = .next ((v.reject fid 1).processed key i.seq)) ∧
      (fieldOf i.data 2 2 = f.number → fieldOf i.data 0 1 = 1 →
        (snapPrim f i.seq i.data = .discarded ∨ snapPrim f i.seq i.data = .empty →
          exec (.meshTri die q) s = .next (s.processed key i.seq)) ∧
        (∀ p, snapPrim f i.seq i.data = .prim p →
          let h : InHand := { prim := p, raw := setBits i.data (8 * 0x2C) 32 i.seq, place := none, todo := f.listsOf p, fault := none, grant := none }
          exec (.meshTri die q) s = .next (binLoop ((s.setItem key { i with taken := true }).setFrame fid
            { f with hand := some h }) fid key ((f.listsOf p).length + 3)))))) ∧
  (∀ (s : State) (die q : Nat) (fid : Nat) (f : Frame) (i : QItem),
    let key := aqKey 2 die q
    (s.aqueue key).frame = some fid → s.frame? fid = some f → (s.aqueue key).head = some i → f.hand = none → f.headed = true →
    f.state = 3 → s.isHeld 4 f.lowest (meshTag fid) = false →
    (meshBad f i = true → exec (.meshTri die q) s = .next (s.rejectItem 4 f.lowest (meshTag fid) key i.seq fid f)) ∧
    (meshBad f i = false → exec (.meshTri die q) s = .next (s.processed key i.seq))) ∧
  (∀ (s : State) (fid key : Nat) (f : Frame) (h : InHand) (n : Nat), s.frame? fid = some f → f.hand = some h →
    (h.place.isSome = true → h.todo = [] →
      binLoop s fid key (n + 1) = (s.setFrame fid { f with hand := none }).processed key h.prim.seq) ∧
    (∀ a c r f' ws e v, h.place = some a → h.todo = c :: r → f.append c a h.grant = .ok f' ws e →
      s.meshWait fid f .store (writeSpans ws) = .ok v →
      binLoop s fid key (n + 1) =
        binLoop ((v.pokes f.part ws).setFrame fid { f' with hand := some { h with todo := r, grant := none } }) fid key n))

/-- R308, R312 to R318, R321: what a tile unit does with its queue and its bin: a JOB of a bin still to be rendered starts it, a
MARK at the front completes, a unit takes the lowest bin of its own, with the primitives that the lists in memory give it, but for one that
the distributor still has in hand, and rasterises it pixel by pixel. -/
def Statement.TileResults : Prop :=
  (∀ (s : State) (cluster q fid : Nat) (f : Frame) (i : QItem),
    let key := aqKey 0 cluster q
    let k := fieldOf i.data 4 4
    let reject := s.rejectItem 3 cluster tagJob key i.seq fid f
    s.queueHead key = some (fid, f, i) →
    (s.isHeld 3 cluster tagJob = false →
      (fieldOf i.data 2 2 ≠ f.number → exec (.tileJob cluster q) s = .next reject) ∧
      (fieldOf i.data 2 2 = f.number → fieldOf i.data 0 1 = 1 → f.byJobs = true → k < f.bins → f.state = 1 →
        (s.binTaken fid f k = true → exec (.tileJob cluster q) s = .next reject) ∧
        (s.binTaken fid f k = false → (s.tile cluster).bin = none →
          (∀ va, readBin s f k = .error (.page va) →
            exec (.tileJob cluster q) s = .next ((s.retry 3 cluster tagJob).agentRequest 3 cluster cluster va tagJob)) ∧
          (∀ v, s.startBin cluster tagJob fid f k (some (key, i.seq)) = .ok v →
            exec (.tileJob cluster q) s = .next (v.setItem key { i with taken := true }))))) ∧
    (∀ r, fieldOf i.data 2 2 = f.number → fieldOf i.data 0 1 = 2 → (s.aqueue key).items = i :: r → s.dev.tripped = false →
      exec (.tileMark cluster q) s = .next (s.processed key i.seq))) ∧
  (∀ (s : State) (c tag fid : Nat) (f : Frame) (k : Nat) (job : Option (Nat × Nat)) (ps : List Prim), readBin s f k = .ok ps →
    ∃ v : State, s.startBin c tag fid f k job = .ok v ∧ v.mem = s.mem ∧ v.frames = s.frames ∧
      (v.tile c).bin = some (fid, k, job) ∧ (v.tile c).prims = ps ∧ (v.tile c).pixels = []) ∧
  (∀ (s : State) (f : Frame) (k : Nat) (ps qs : List Prim), readList s f k = .ok ps → readList s f f.wide = .ok qs →
    ∃ bin, readBin s f k = .ok bin ∧ ∀ p, p ∈ bin ↔
      (p ∈ ps ∨ (p ∈ qs ∧ p.inBin (k % f.bw) (k / f.bw) = true)) ∧ ∀ h, f.hand = some h → h.prim.seq ≠ p.seq) ∧
  (∀ (s : State) (cluster : Nat), let u := s.tile cluster
    u.frag = none → s.isHeld 3 cluster tagLoad = false →
    (u.bin = none → ∀ fid f k, s.autoBin cluster = some (fid, f, k) →
      exec (.binRender cluster) s = .next (s.startBin cluster tagLoad fid f k none).state) ∧
    (∀ fid k job f, u.bin = some (fid, k, job) → s.frame? fid = some f →
      (u.pixels = [] → u.prims = [] → exec (.binRender cluster) s = .next (s.endBin cluster fid f k job)) ∧
      (∀ p r, u.pixels = [] → u.prims = p :: r → exec (.binRender cluster) s =
        .next (s.setTile cluster { u with prims := r, cur := some p, pixels := coveredPixels f k p })) ∧
      (∀ p, u.cur = some p → u.pixels ≠ [] →
        let xy := s.nextPixel u
        ∀ b, u.find fid (f.tileOf xy.1 xy.2) = some b → b.place = 0 →
          ∃ v : State, exec (.binRender cluster) s = .next v ∧ v.mem = s.mem ∧ (v.tile cluster).pixels = u.pixels.filter (· != xy) ∧
            (v.tile cluster).frag = (if (shadePixel f p xy.1 xy.2 b).2 = 0 then none
              else some (makeFrag fid (u.counts.getD fid 0) p xy.1 xy.2 (shadePixel f p xy.1 xy.2 b).2)) ∧
            (v.tile cluster).find fid (f.tileOf xy.1 xy.2) = some (shadePixel f p xy.1 xy.2 b).1))) ∧
  (∀ (f : Frame) (k : Nat) (p : Prim) (xy : Nat × Nat), xy ∈ coveredPixels f k p →
    xy.1 < f.w ∧ xy.2 < f.h ∧ ∃ o ∈ samplePoints f.samples, p.covers (samplePoint xy.1 xy.2 o) = true) ∧
  (∀ (f : Frame) (p : Prim) (x y k : Nat) (b : Tile), k < f.samples → f.samples ∈ [1, 2, 4, 8] →
    ((shadePixel f p x y b).2.testBit k = true →
      p.covers (samplePoint x y ((samplePoints f.samples).getD k (8, 8))) = true ∧
      depthInRange (p.depth (samplePoint x y ((samplePoints f.samples).getD k (8, 8)))) = true))

/-- R319 to R322: a fragment's record goes to its ring slot, each page's part under that page's own checks, limit rises and it is registered; a fifth tile spills the resident
tile reached longest ago; a finished tile is written back. Accesses to absent pages hold the unit. -/
def Statement.TileMemoryResults : Prop :=
  ∀ (s : State) (cluster : Nat), let u := s.tile cluster
    (∀ g f, u.frag = some g → s.frame? g.frame = some f →
      let n := 2 ^ f.fld 0x2E 1
      let ring := f.fld 0x50 8 + cluster % 16 * n * 32 + g.i % n * 32
      let ws := (pageCuts ring 32).map (fun e => (e.1, e.2, g.bytes / 256 ^ (e.1 - ring) % 256 ^ e.2)) ++
        cutWrite (f.fld 0x58 8 + 16 * (cluster % 16) + 8) 8 (g.i + 1)
      (∀ h ∈ u.frags, h.frame = g.frame → h.i + n ≠ g.i) → s.isHeld 3 cluster tagFrag = false →
      (∀ va, s.firstPark f.part .store (writeSpans ws) = some va →
        exec (.fragmentWrite cluster) s = .next ((s.retry 3 cluster tagFrag).agentRequest 3 cluster cluster va tagFrag)) ∧
      (∀ v, s.agentWait 3 cluster f.part tagFrag .store (writeSpans ws) = .ok v →
        exec (.fragmentWrite cluster) s = .next ((v.pokes f.part ws).setTile cluster { u with
          frag := none, frags := u.frags ++ [g], counts := u.counts.set g.frame (g.i + 1) }))) ∧
    (∀ fid k job f, u.bin = some (fid, k, job) → s.frame? fid = some f → u.frag = none → u.pixels ≠ [] →
      u.resident.length = 4 → (∀ b, u.find fid (f.tileOf (s.nextPixel u).1 (s.nextPixel u).2) = some b → b.place ≠ 0) →
      s.isHeld 3 cluster tagSpill = false →
      ∀ g b, u.resident.findSome? (fun b => match s.frame? b.frame with
          | some g => if u.busy g b.frame b.t then none else some (g, b)
          | none => none) = some (g, b) →
        let ws := if b.done then backWrites g b else slotWrites g b
        ∀ v, s.agentWait 3 cluster g.part tagSpill .store (writeSpans ws) = .ok v →
        exec (.tileSpill cluster) s = .next ((v.pokes g.part ws).setTile cluster { u with
          tiles := (if b.done then [] else [{ b with place := 1, col := [], dep := [], cov := [] }]) ++ u.without b.frame b.t })) ∧
    (∀ i b f, u.tiles[i]? = some b → s.frame? b.frame = some f → b.done = true → u.busy f b.frame b.t = false →
      s.isHeld 3 cluster tagBack = false → b.place = 0 →
      ∀ v, (s.retry 3 cluster tagBack).agentWait 3 cluster f.part tagBack .store (writeSpans (backWrites f b)) = .ok v →
      exec (.tileWriteback cluster i) s = .next (((v.pokes f.part (backWrites f b)).setTile cluster
        { u with tiles := u.without b.frame b.t }).bump))

/-- R305, R323 to R326: the blend stages: an ORDERED entry gives its pixels' shading to the fragments registered, a shaded
fragment with none before it at its pixel is blended into its tile, and a DIRECT entry into target memory; and the end of a
frame, which signals, interrupts and unbinds.
MODEL'S CHOICE: the statement rests on the pattern of a NaN and a second ORDERED pixel (entry 58) and accesses to a die in reset (entry 124). -/
def Obligations.BlendResults : Prop :=
  (∀ (s : State) (cluster q fid : Nat) (f : Frame) (i : QItem),
    let key := aqKey 1 cluster q
    s.queueHead key = some (fid, f, i) → s.isHeld 3 cluster tagBlend = false →
    (blendBad f i.data = true →
      exec (.blendOrdered cluster q) s = .next (s.rejectItem 3 cluster tagBlend key i.seq fid f)) ∧
    (blendBad f i.data = false → fieldOf i.data 0 1 = 1 → ∀ va v, pixelAddrs i.data = [va] →
      s.agentWait 3 cluster f.part tagBlend .load [(va, 32)] = .ok v → ∀ pa attr, v.reach f.part .load va 32 = .ok pa attr →
      let r := v.peek f.part va 32
      let u := v.tile cluster
      ((∃ g ∈ u.frags, g.frame = fid ∧ g.i = fieldOf r 8 4 ∧ g.shade = none) →
        exec (.blendOrdered cluster q) s = .next ((v.setTile cluster { u with
          frags := u.frags.map (fun g => if g.frame = fid && g.i = fieldOf r 8 4 then { g with shade := some (fieldOf r 4 1 &&& g.mask, fieldOf r 0x10 8), item := some (key, i.seq) } else g) }).setItem
          key { i with taken := true, left := 1 })) ∧
      ((∀ g ∈ u.frags, g.frame = fid → g.i = fieldOf r 8 4 → g.shade ≠ none) → ∀ x, v.recordWait 3 cluster tagBlend f = .ok x →
        exec (.blendOrdered cluster q) s = .next ((v.reject fid 1).processed key i.seq))) ∧
    (blendBad f i.data = false → fieldOf i.data 0 1 = 2 → ∀ v, s.pixelWait cluster f i.data = .ok v →
      ((∃ r ∈ readablePixels v f i.data, v.tileHeld fid f (fieldOf r 0 2) (fieldOf r 2 2) = true) →
        exec (.blendDirect cluster q) s = .next v) ∧
      ((∀ r ∈ readablePixels v f i.data, v.tileHeld fid f (fieldOf r 0 2) (fieldOf r 2 2) = false) →
        fieldOf i.data 1 1 = 1 → i.left = 0 → ∀ pa attr, v.reach f.part .load (fieldOf i.data 8 8) 32 = .ok pa attr →
        let r := v.peek f.part (fieldOf i.data 8 8) 32
        let ts := directTargets f r
        (∀ x, f.w ≤ fieldOf r 0 2 ∨ f.h ≤ fieldOf r 2 2 → v.recordWait 3 cluster tagBlend f = .ok x →
          exec (.blendDirect cluster q) s = .next ((x.reject fid 1).processed key i.seq)) ∧
        (∀ x, fieldOf r 0 2 < f.w → fieldOf r 2 2 < f.h → v.agentWait 3 cluster f.part tagBlend .update ts = .ok x →
          (∀ e ∈ ts, ∃ pa attr, x.reach f.part .update e.1 e.2 = .ok pa attr) →
          exec (.blendDirect cluster q) s = .next ((ts.foldl (fun s e => s.poke f.part e.1 e.2
            (blend f.cfmt (f.fld 0xD 1) (fieldOf r 0x10 8 % 2 ^ (8 * f.cz)) (s.peek f.part e.1 e.2))) x).processed key i.seq))))) ∧
  (∀ (s : State) (cluster n : Nat) (f : Frame) (g : Frag) (m col : Nat), let u := s.tile cluster
    u.frags[n]? = some g → g.shade = some (m, col) →
    (∀ h ∈ u.frags.take n, h.frame = g.frame → h.x = g.x → h.y ≠ g.y) → s.frame? g.frame = some f →
    s.isHeld 3 cluster tagBlend = false →
    exec (.blendApply cluster n) s = .next ((s.setTile cluster { u with
      tiles := u.tiles.map (fun b => if b.frame = g.frame && b.t = f.tileOf g.x g.y then blendTile f b g m col else b),
      frags := u.frags.eraseIdx n }).pixelDone g.item)) ∧
  (∀ s d : Nat, s < 2 ^ 32 → d < 2 ^ 32 → blend 0 0 s d = s ∧ ∀ k < 4,
    let c (x : Nat) : Nat := x / 2 ^ (8 * k) % 256
    c (blend 0 2 s d) = min (c s + c d) 255 ∧ c (blend 0 3 s d) = min (c s) (c d) ∧ c (blend 0 4 s d) = max (c s) (c d)) ∧
  (∀ (s : State) (frame : Nat) (f : Frame), s.frame? frame = some f →
    (f.state = 1 → f.ended = true → s.phaseOver frame f = true →
      s.agentHeld f.part .update (if f.fld 0x60 8 = 0 then [] else [(f.fld 0x60 8, 8)]) = false →
      s.isHeld 4 f.lowest (meshTag frame) = false → ∀ v, s.recordWait 4 f.lowest (meshTag frame) f = .ok v →
      exec (.frameDone frame) s = .next ((if f.fld 0x60 8 = 0 then v.frameState frame f 3
        else (v.frameState frame f 3).decrement f.part (f.fld 0x60 8)).raiseIrq (f.part + 1) 2)) ∧
    (f.state = 3 → (∀ e ∈ s.launches, e.2.done = true ∨ frame ∉ e.2.frames) →
      ∃ u : State, exec (.frameUnbind frame) s = .next u ∧ u.frame? frame = none ∧ (∀ k ∈ f.queues, (u.aqueue k).frame = none) ∧
        u.mem = s.mem))

/-! ## Host queues, launches and code -/

/-- R214, R328 to R335, R364: a doorbell; the packets NOP, BARRIER, COPY, SIGNAL and FRAME, each where its queue is the one that its
die's sequencer picks; the evaluation of a waiting BARRIER; and the end of an engine entry. Each waits while what it accesses in memory is held, or is homed
on a die in reset. -/
def Statement.QueueResults : Prop :=
  (∀ (s : State) (p q : Nat) (v : BitVec 64), s.firstRing p q = some (.doorbell p q v) →
    let u : State := { s with reqs := s.reqs.erase (.doorbell p q v) }
    let h := s.hq p q
    (s.ringHeld p q = true → exec (.doorbell p q v) s = .next s) ∧
    (s.ringHeld p q = false →
    let rung (h : HQueue) : HQueue := { h with wr := if h.wr < v.toNat ∧ v.toNat - h.rd ≤ 2 ^ h.lsize then v.toNat else h.wr }
    (h.state ≠ 0 → exec (.doorbell p q v) s = .next (u.setHq p q false (rung h))) ∧
    (h.state = 0 → h.seen = true → exec (.doorbell p q v) s = .next u) ∧
    (h.state = 0 → h.seen = false → ∀ x, u.bytes? p (u.descAddr p q) 64 = some x →
      (descOn x = false → exec (.doorbell p q v) s = .next (u.setHq p q false { h with seen := true })) ∧
      (descOn x = true →
        let rd := fieldOf x 0x10 8
        exec (.doorbell p q v) s = .next (u.setHq p q true (rung { HQueue.disabled with
          base := fieldOf x 0 8, lsize := fieldOf x 8 1, prio := fieldOf x 9 1, flags := fieldOf x 0xA 1, die := fieldOf x 0xB 1, state := 1, rd := rd, wr := rd, seen := true })))))) ∧
  (∀ (s : State) (p q x : Nat),
    let h := s.hq p q
    let st : Started := ⟨h.rd, x, none⟩
    let v := s.startHead p q
    let kind := fieldOf x 0 1
    let due (away : Bool) : Prop := (s.die h.die).nextStart ≤ s.clk ∧ (s.die h.die).inReset = false ∧
      s.seqPick h.die = some (p * 256 + q) ∧ s.agentHeld p .load [(h.packetAddr h.rd, 64)] = false ∧ s.descHeld p q = false ∧
      s.bytes? p (h.packetAddr h.rd) 64 = some x ∧ s.agentHeld p .update st.sigSpans = false ∧ away = false
    (s.descHeld p q = true → ∀ i ∈ [Instr.packetNop p q, .packetLaunch p q, .packetBarrier p q, .packetCopy p q, .packetSignal p q,
      .packetFrame p q], exec i s = .next s) ∧
    ((s.bytes? p (h.packetAddr h.rd) 64 = some x → (v.hq p q).rd = h.rd + 1 ∧ (v.die h.die).nextStart = s.clk + 32)) ∧
    (due false → kind = 0 → headerOk x = true → fieldOf x 0x10 48 = 0 → exec (.packetNop p q) s = .next (v.packetDone p q st)) ∧
    (due false → kind = 0 → headerOk x = false ∨ fieldOf x 0x10 48 ≠ 0 → exec (.packetNop p q) s = .next (v.packetFail p q st 1)) ∧
    (due false → kind = 2 → headerOk x = true → barrierOk x = true →
      exec (.packetBarrier p q) s = .next ((v.keepPacket p q st).evaluate p q st)) ∧
    (due false → kind = 3 → headerOk x = true → fieldOf x 0x20 8 ≤ 2 ^ 40 → fieldOf x 0x28 24 = 0 →
      let e : Entry := { id := v.uid, owner := (none, v.uid), part := p, slot := (v.hq p q).die * 8192, q := 5, job := .copy (fieldOf x 0x10 8) (fieldOf x 0x18 8) (fieldOf x 0x20 8), code := 0, finished := false }
      exec (.packetCopy p q) s =
        .next (({ v with entries := v.entries ++ [e], uid := v.uid + 1 } : State).keepPacket p q { st with ref := some v.uid })) ∧
    (due (s.agentHeld p .update [(fieldOf x 0x10 8, 8)]) → kind = 4 → headerOk x = true → fieldOf x 0x10 8 % 8 = 0 → fieldOf x 0x18 1 ≤ 1 →
      fieldOf x 0x19 7 = 0 → fieldOf x 0x28 24 = 0 →
      let a := fieldOf x 0x10 8
      ((∃ pa attr, v.reach p .update a 8 = .ok pa attr) →
        let new := if fieldOf x 0x18 1 = 0 then (v.peek p a 8 + (2 ^ 64 - fieldOf x 0x20 8)) % 2 ^ 64 else fieldOf x 0x20 8 % 2 ^ 64
        exec (.packetSignal p q) s = .next ((v.poke p a 8 new).packetDone p q st)) ∧
      ((∀ pa attr, v.reach p .update a 8 ≠ .ok pa attr) → exec (.packetSignal p q) s = .next (v.queueError p q h.rd 7))) ∧
    (due (s.frameAway p x) → kind = 5 → headerOk x = true → fieldOf x 0x10 8 % 64 = 0 → fieldOf x 0x18 40 = 0 →
      (∀ y ∈ h.started, y.type ≠ 5) →
      let w := v.keepPacket p q st
      ∀ r, w.bytes? p (fieldOf x 0x10 8) 256 = some r → frameOk r = true →
        let f := frameOf p q (w.hq p q).die (fieldOf x 0x10 8) r
        (∀ k ∈ f.queues, (w.aqueue k).frame = none) → exec (.packetFrame p q) s = .next ((w.bindFrame f).packetDone p q st))) ∧
  (∀ (s : State) (p q : Nat) (x : Started), (s.hq p q).started.filter (fun y => y.type == 2) = [x] →
    s.agentHeld p .load ((barrierSignals x.bytes).map (fun a => (a, 8))) = false → s.agentHeld p .update x.sigSpans = false →
    s.descHeld p q = false → ∀ vs, (barrierSignals x.bytes).mapM (fun a => s.bytes? p a 8) = some vs →
      ((∀ v ∈ vs, v = 0) → exec (.barrierEvaluate p q) s = .next (s.packetDone p q x)) ∧
      ((∃ v ∈ vs, v ≠ 0) → (∀ v ∈ vs, v < 2 ^ 63) → exec (.barrierEvaluate p q) s = .next s) ∧
      (∀ v, vs.find? (fun v => 2 ^ 63 ≤ v) = some v → exec (.barrierEvaluate p q) s = .next (s.packetFail p q x (2 ^ 64 - v)))) ∧
  (∀ (s : State) (id : Nat) (e : Entry), s.entries.find? (fun e => e.id == id && e.finished) = some e →
    (e.q ≠ 5 → exec (.engineEntryComplete id) s = .next (s.completeEntry e)) ∧
    (e.q = 5 → ∀ q x, s.copyPacket e = some (q, x) → s.agentHeld e.part .update x.sigSpans = false →
      s.descHeld e.part q = false → exec (.engineEntryComplete id) s = .next (if e.code = 0 then (s.completeEntry e).packetDone e.part q x
        else (s.completeEntry e).packetFail e.part q x 6)))

/-- R331, R333: what the end of a packet does: its queue no longer counts it as started; where its signal can be written,
completion takes 1 from it and a failure with code c writes −c; a failing packet puts an active queue into ERROR with the
code and its index, and raises vector 1 of its partition. -/
def Statement.PacketEnds : Prop :=
  ∀ (s : State) (p q code : Nat) (x : Started),
    let u := s.dropPacket p q x.index
    let err (v : State) (c : Nat) : State :=
      (v.setHq p q false { v.hq p q with state := 2, ecode := c % 2 ^ 32, eindex := x.index }).raiseIrq (p + 1) 1
    (u.hq p q).started = (s.hq p q).started.filter (fun y => y.index != x.index) ∧
    (x.signal = 0 → s.packetDone p q x = u) ∧
    (x.signal = 0 → (u.hq p q).state ≠ 2 → s.packetFail p q x code = err u code) ∧
    (x.signal ≠ 0 → ∀ pa attr, u.reach p .update x.signal 8 = .ok pa attr →
      s.packetDone p q x = u.poke p x.signal 8 ((u.peek p x.signal 8 + (2 ^ 64 - 1)) % 2 ^ 64) ∧
      (let v := u.poke p x.signal 8 ((2 ^ 64 - code) % 2 ^ 64)
       (v.hq p q).state ≠ 2 → s.packetFail p q x code = err v code)) ∧
    (x.signal ≠ 0 → (∀ pa attr, u.reach p .update x.signal 8 ≠ .ok pa attr) → (u.hq p q).state ≠ 2 → s.packetDone p q x = err u 7)

/-- R337 to R348: a LAUNCH packet that names a loaded kernel and passes its checks waits for the allocator, and fails with 2
where no empty partition could hold it; a dispatched launch starts its threads in order, each at its kernel's entry with its
argument block in g1; a launch whose threads and entries have ended completes, with the bytes of its writes home where the packet's release or its failure asks for that, and waits for firmware's report where a KILL ended its last thread; and one
whole launch is pre-empted. MODEL'S CHOICE: which KILL it is that firmware reports (log entry 112).
MODEL'S CHOICE: the statement rests on start records, grants, pre-emption and killed launches (entries 63 to 66 and 112), the code that a launch runs (entry 108) and accesses to a die in reset (entry 124). -/
def Obligations.LaunchResults : Prop :=
  (∀ (s : State) (p q x : Nat),
    let h := s.hq p q
    let st : Started := ⟨h.rd, x, none⟩
    let v := s.startHead p q
    (s.die h.die).nextStart ≤ s.clk → (s.die h.die).inReset = false → s.seqPick h.die = some (p * 256 + q) →
    s.agentHeld p .load [(h.packetAddr h.rd, 64)] = false → s.descHeld p q = false → s.bytes? p (h.packetAddr h.rd) 64 = some x →
    s.agentHeld p .update st.sigSpans = false → s.launchAway p x = false → fieldOf x 0 1 = 1 →
    (headerOk x = false ∨ startOk x = false → exec (.packetLaunch p q) s = .next (v.packetFail p q st 1)) ∧
    (headerOk x = true → startOk x = true →
      (v.kernelOf p x = none → exec (.packetLaunch p q) s = .next (v.packetFail p q st 3)) ∧
      (∀ base k sh, v.kernelOf p x = some (base, k) → v.shadows p x k = some sh →
        (kernelOk x k = false → exec (.packetLaunch p q) s = .next (v.packetFail p q st 1)) ∧
        (kernelOk x k = true →
          let l := makeLaunch p q (v.hq p q).prio h.rd (v.part p).launchCount.toNat x base k sh
          (v.fitsEmpty l = false → exec (.packetLaunch p q) s = .next (v.packetFail p q st 2)) ∧
          (v.fitsEmpty l = true → ∃ u : State, exec (.packetLaunch p q) s = .next u ∧ u.launches.get? v.uid = some l ∧
            (u.part p).launchCount = (v.part p).launchCount + 1 ∧ (u.hq p q).waiting = some { st with ref := some v.uid }))))) ∧
  (∀ (s : State) (p q lid : Nat) (l : Launch) (rest : List (Nat × Nat × Launch)) (rows : List (Nat × Nat × List (Nat × List Nat))),
    s.waitingFirst p = (q, lid, l) :: rest → s.resumeFirst p l.prio = false → s.plan l = some rows →
    s.dev.tripped = false →
    let u := s.dispatch lid l rows
    exec (.launchDispatch p) s = .next (u.setHq p q false { u.hq p q with
      waiting := none, started := (u.hq p q).started ++ (u.hq p q).waiting.toList }) ∧ rows.length = l.K) ∧
  (∀ (s : State) (lid : Nat) (l : Launch) (rows : List (Nat × Nat × List (Nat × List Nat))),
    let keys := rows.flatMap (fun r => r.2.2.flatMap (fun c => c.2.map (fun i => c.1 * 16 + i)))
    let u := s.dispatch lid l rows
    keys.Nodup → ∀ (j k : Nat), keys[j]? = some k →
      let t := u.thread k
      t.st = .running ∧ t.launch = some lid ∧ t.part = l.part ∧ t.pc = BitVec.ofNat 64 l.start ∧ t.getG 1 = BitVec.ofNat 64 l.args ∧
        (∀ r, r ≠ 1 → t.getG r = 0) ∧ t.tid = BitVec.ofNat 32 j ∧ t.budget = l.budget ∧ t.held = false ∧ t.pend = [] ∧
        t.ready = s.clk + 1 ∧ ∀ v, u.launches.get? lid = some v → v.codeMem = s.mem) ∧
  (∀ (s : State) (lid : Nat) (l : Launch) (n : Nat), s.launches.get? lid = some l → l.outcome = none → l.halted.getLast? = some n →
    n ∈ l.killed → exec (.launchComplete lid) s = .next s) ∧
  (∀ (s : State) (lid : Nat) (l : Launch) (x : Started), s.launches.get? lid = some l → s.launchOver lid l = true →
    s.launchPacket lid l = some x → s.agentHeld l.part .update x.sigSpans = false → s.descHeld l.part l.queue = false →
    let wide := l.outcome.isSome ∨ 2 ≤ fieldOf x.bytes 3 1
    (wide → s.flushPartHeld l.part = false) →
    let v := if wide then s.flushPart l.part else s
    let u := (v.closeLaunch lid l).sweepCode l.part
    exec (.launchComplete lid) s = .next (match l.outcome with
      | some c => u.packetFail l.part l.queue x c
      | none => u.packetDone l.part l.queue x)) ∧
  (∀ (s : State) (p q lid n : Nat) (w : Launch),
    (s.waitingFirst p).find? (fun e => bitAt (s.hq p e.1).flags 1) = some (q, lid, w) →
    let low := s.lower p w.prio
    let held := (low.filter (fun e => s.allHeld e.1 e.2)).map Prod.fst
    (s.without held.contains).plan w = none → (∃ r, (s.without (low.map Prod.fst).contains).plan w = some r) →
    nextVictim (low.filter (fun e => !s.allHeld e.1 e.2)) = some n →
    exec (.preemption p) s = .next ((s.toHold n).foldl (fun s k => s.preemptSlot w.num k) s))

/-- R154, R346, R349, R350: the code commands: a load sets an entry in state free or loaded to loaded, an unload of an object without pins
sets it free and of a pinned one answers BUSY, and a forced unload marks the object and every context that pins it gone, and pre-empts
the live ones, the four threads of a gang together. A command waits while its entry cannot be reached.
MODEL'S CHOICE: the statement rests on code objects (entries 49 and 67) and accesses to a die in reset (entry 124). -/
def Obligations.CodeCommandResults : Prop :=
  ∀ (s : State) (p h x : Nat) (v : BitVec 64), s.codeReq p = some v → v.toNat % 1024 = h →
    let u : State := { s with reqs := s.reqs.erase (.code p v) }
    let op := v.toNat / 2 ^ 32 % 16
    let force := v.getLsbD 36
    let n := u.pins p x
    (s.codeAway p h = true → ∀ i ∈ [Instr.codeLoad p h, .codeUnload p h, .codeUnloadForce p h], exec i s = .next s) ∧
    (s.codeAway p h = false → u.codeEntry p h = some x →
    (op = 0 → (fieldOf x 0x1A 1 = 0 ∨ fieldOf x 0x1A 1 = 1) → fieldOf x 0x1B 1 = 0 →
      let a := u.setCode p h 1 n
      let b := a.setPart p { a.part p with loaded := (a.part p).loaded.filter (· != h) ++ [h] }
      exec (.codeLoad p h) s = .next ((b.codeDone p n 0).sweepCode p)) ∧
    (op = 0 → (1 < fieldOf x 0x1A 1 ∨ fieldOf x 0x1B 1 ≠ 0) → exec (.codeLoad p h) s = .next ((u.codeDone p n 2).sweepCode p)) ∧
    (op = 1 → force = false → 0 < n → exec (.codeUnload p h) s = .next ((u.codeDone p n 1).sweepCode p)) ∧
    (op = 1 → force = false → n = 0 →
      let a := u.setCode p h 0 0
      let b := a.setPart p { a.part p with loaded := (a.part p).loaded.filter (· != h) }
      exec (.codeUnload p h) s = .next ((b.codeDone p 0 0).sweepCode p)) ∧
    (op = 1 → force = true →
      let a := u.setCode p h 2 n
      let b := a.setPart p { a.part p with goneCode := (a.part p).goneCode.filter (· != h) ++ [h] }
      let live := u.pinSlots p x
      let c := ((live.flatMap b.preemptSlots).eraseDups).foldl (State.goneSlot live) b
      let d : State := { c with launches := c.launches.map (fun (e : Nat × Launch) => (e.1, { e.2 with gone := e.2.gone ++ ((u.pinSaved p x).filter (fun k => k.1 == e.1)).map Prod.snd })) }
      exec (.codeUnloadForce p h) s = .next ((d.codeDone p n 0).sweepCode p)))

/-! ## Records, resets, the device and the outside world -/

/-- R104, R227, R345: a vector command of a queue starts when its core's unit is free: it leaves the queue and its results go to its
thread's registers; where it meets poison the thread parks with the command, and those behind it, as its remainder; where its access
fails the thread traps or parks at the command's address; and where its access is held it stays at the head and tries again. With no
command that may start nothing happens. MODEL'S CHOICE: when a queued command runs, and how a held one waits (log entry 18). A record
that waits is written to its place of the trap ring, unless that is taken; and the oldest record that no Spring slot has
taken starts an empty one at the firmware's entry, with the record's address in g1.
MODEL'S CHOICE: the statement rests on when a queued command executes (entry 18) and on the places of the trap ring (entry 33). -/
def Obligations.SupervisorEventResults : Prop :=
  (∀ (s : State) (core : Nat), s.readySlot core = none → exec (.vectorSequencerStart core) s = .next s) ∧
  (∀ (s : State) (core k : Nat) (c : VCmd) (rest : List VCmd), s.readySlot core = some k → (s.thread k).vq = c :: rest →
    let old := s.thread k
    let s₁ := ({ s with cur := k } : State).putThr (old.forCmd c rest)
    (∀ u, runCmd s₁ c = .ok u →
      let t := u.thr.afterCmd old c
      exec (.vectorSequencerStart core) s =
        .next ((u.putThr { t with vready := s.clk + 1, replay := t.replay && !rest.isEmpty }).occupy (unitClks s₁.thr c))) ∧
    (∀ e, runCmd s₁ c = .error e →
      (∀ v x, e.why = .held v x → ∃ u : State, exec (.vectorSequencerStart core) s = .next u ∧
        u = (({ s with cur := k } : State).putThr { old with vq := c :: rest, replay := true, timewait := none }).takeTrapAt k 0x0F v c.pc old.pc 1 ∧
        (u.thread k).st = .parkedTrap ∧ (u.thread k).vq = c :: rest ∧ (u.thread k).replay = true) ∧
      (∀ cause v r, e.why = .trap cause v r → exec (.vectorSequencerStart core) s =
        .next ((e.st.putThr (e.st.thr.afterCmd old c)).takeTrapAt k cause v c.pc c.pc 0)) ∧
      (∀ va, e.why = .park va → exec (.vectorSequencerStart core) s =
        .next ((e.st.putThr { e.st.thr.afterCmd old c with pc := c.pc }).takePark k va)) ∧
      (e.why = .stall → ∃ u : State, exec (.vectorSequencerStart core) s = .next u ∧ u.thread k = { old with vready := s.clk + 1 } ∧
        u.mem = s.mem ∧ u.cores = s.cores ∧ ∀ j, j ≠ k → u.thread j = s.thread j)) ∧
    (c.op = .mbound → c.d ≠ 0 → (∀ p ∈ old.pend, p.isVec = false) →
      ∃ u : State, exec (.vectorSequencerStart core) s = .next u ∧ (u.thread k).vq = rest ∧ u.mem = s.mem ∧
        (u.thread k).getM c.d = ⟨true, 0, BitVec.ofNat 12 (min c.x.toNat (8192 / maskWidth c.b)), BitVec.ofNat 3 c.b⟩ ∧
        (∀ r, r ≠ c.d → (u.thread k).getM r = old.getM r) ∧ (u.thread k).g = old.g ∧ (u.thread k).pc = old.pc ∧
        (∀ j, j ≠ k → u.thread j = s.thread j) ∧ s.clk < (u.core (coreOf k)).vfree) ∧
    (c.op = .put → (∀ p ∈ old.pend, p.isVec = false) →
      let t := old.forCmd c rest
      let w := t.ew c.d
      ∃ u : State, exec (.vectorSequencerStart core) s = .next u ∧ (u.thread k).vq = rest ∧ u.mem = s.mem ∧
        (∀ i < t.count c.d, (u.thread k).elem c.d i w = if i = c.y.toNat % t.count c.d then c.x.toNat % 2 ^ w else old.elem c.d i w) ∧
        (∀ r, r ≠ c.d + c.y.toNat % t.count c.d * w / 1024 → ((u.thread k).getV r).bits = (old.getV r).bits) ∧
        (u.thread k).g = old.g ∧ (∀ j, j ≠ k → u.thread j = s.thread j))) ∧
  (∀ (s : State) (core k : Nat), s.readySlot core = some k →
    coreOf k = core ∧ s.mayStart k = true ∧ ∀ e ∈ s.threads, coreOf e.1 = core → s.mayStart e.1 = true →
      (s.thread k).vready ≤ (s.thread e.1).vready) ∧
  (∀ (s : State) (cluster : Nat) (who : Option Nat) (r₀ : Rec) (rest : List (Option Nat × Rec)), let x := s.cluster cluster
    let landed := ∀ k, who = some k → (s.thread k).pendDone = true
    x.waitRecs = (who, r₀) :: rest →
    (x.nextPlace ∈ x.ring ∨ ¬ landed → exec (.trapRecordDeferredWrite cluster) s = .next s) ∧
    (rest = [] → x.nextPlace ∉ x.ring → landed →
    let r := match who with
      | some k => r₀.landed (s.thread k)
      | none => r₀
    ∃ u : State, exec (.trapRecordDeferredWrite cluster) s = .next u ∧
      u.cluster cluster = { x with
        waitRecs := [], ring := x.ring ++ [x.nextPlace], nextPlace := (x.nextPlace + 1) % 64, undelivered := x.undelivered ++ [(x.nextPlace, r)] } ∧
      memNat u.mem (s.ringAddr (s.partOfCluster cluster) cluster x.nextPlace) 64 = r.toNat % 2 ^ 512)) ∧
  (∀ (s : State) (cluster place k : Nat) (r : Rec) (rest : List (Nat × Rec)), let x := s.cluster cluster
    let p := s.part (s.partOfCluster cluster)
    x.undelivered = (place, r) :: rest → s.emptySpring cluster = some k → p.state = 1 → s.dev.tripped = false →
    ∃ u : State, exec (.springDispatch cluster) s = .next u ∧ u.cluster cluster = { x with undelivered := rest } ∧ u.mem = s.mem ∧
      let t := u.thread k
      t.st = .running ∧ t.pc = p.entry ∧ t.getG 1 = BitVec.ofNat 64 (0x01FFFF2000000000 + p.tring.toNat + 4096 * (cluster % 16) + 64 * place) ∧
        t.cause = r.cause.zeroExtend 64 ∧ t.tval = r.tval ∧ t.epc = r.resume ∧ t.ready = s.clk + 1 ∧ ∀ j, j ≠ k → u.thread j = s.thread j)

/-- R333, R354, R361 to R365: the rungs of the reset ladder. A queue reset or an engine reset that is not posted does nothing. During a
seal rungs 3, 4 and 5 are ignored and the sixth is held until the seal ends. Rungs 1 to 4 wait while what they access is homed on a
die in reset.
MODEL'S CHOICE: the statement rests on the extent of the resets (entries 69 to 72), the stages of bring-up (entry 73) and what a reset waits for (entry 124). -/
def Obligations.ResetResults : Prop :=
  (∀ (s : State) (p q : Nat), Req.qreset p q ∉ s.reqs → exec (.queueReset p q) s = .next s) ∧
  (∀ (s : State) (p q : Nat), Req.qreset p q ∈ s.reqs →
    let s' : State := { s with reqs := s.reqs.erase (.qreset p q) }
    (s'.queueAway p q = true ∨ s'.flushPartHeld p = true → exec (.queueReset p q) s = .next s) ∧
    (s'.queueAway p q = false → s'.flushPartHeld p = false →
    ∃ u : State, exec (.queueReset p q) s = .next u ∧ (u.hq p q).started = [] ∧ (u.hq p q).waiting = none ∧ (u.hq p q).ecode = 0 ∧
      (u.hq p q).eindex = 0 ∧ (u.hq p q).state ≠ 2 ∧ (p + 1, 3) ∈ u.dev.irqs)) ∧
  (∀ (s : State) (p kind unit : Nat), Req.ereset p kind unit ∉ s.reqs → exec (.engineReset p kind unit) s = .next s) ∧
  (∀ (s : State) (p kind unit : Nat), Req.ereset p kind unit ∈ s.reqs →
    let s' : State := { s with reqs := s.reqs.erase (.ereset p kind unit) }
    (s'.framesAway (endsFrame kind unit) = true → exec (.engineReset p kind unit) s = .next s) ∧
    (s'.framesAway (endsFrame kind unit) = false →
      exec (.engineReset p kind unit) s = .next ((s'.resetUnit kind unit).raiseIrq (p + 1) 3))) ∧
  (∀ (s : State) (p : Nat),
    (s.dev.sealing = true → exec (.resetPartition p) s = .next (s.dropRung 3 (some p))) ∧
    (s.dev.sealing = false → s.partAway p = true → exec (.resetPartition p) s = .next s) ∧
    (s.dev.sealing = false → s.partAway p = false → ∃ u : State, exec (.resetPartition p) s = .next u ∧ (u.part p).state = 0 ∧ (u.part p).launchCount = 0 ∧
      (u.part p).queues = [] ∧ (∀ e ∈ u.entries, e.part ≠ p) ∧ (p + 1, 3) ∈ u.dev.irqs)) ∧
  (∀ (s : State) (d : Nat),
    (s.dev.sealing = true → exec (.resetDie d) s = .next (s.dropRung 4 (some d))) ∧
    (s.dieAway d = true → s.dev.sealing = false → exec (.resetDie d) s = .next s) ∧
    (s.dieAway d = false → s.dev.sealing = false →
      ∃ u : State, exec (.resetDie d) s = .next u ∧ (u.die d).inReset = true ∧ (u.die d).holder = []) ∧
    ((s.die d).inReset = true → exec (.dieResetReturn d) s = .next ((s.setDie d { s.die d with inReset := false }).raiseIrq 0 3))) ∧
  (∀ (s : State) (wipe : Bool), s.dev.sealing = true → exec (.resetFunction wipe) s = .next (s.dropRung 5 none)) ∧
  (∀ (s : State) (wipe : Bool), s.dev.sealing = false →
    ∃ u : State, exec (.resetFunction wipe) s = .next u ∧ u.threads = [] ∧ u.entries = [] ∧ u.launches = [] ∧ (∀ r ∈ u.reqs, r ∈ s.reqs ∧ r.survives = true) ∧ u.clk = 0 ∧
      (wipe = true → u.image = none ∧ ∀ a, s.ownCell a = true → u.dev.pkg = s.dev.pkg → memByte u.mem a = 0)) ∧
  (∀ s : State,
    (s.dev.sealing = true → ∃ u : State, exec .resetDevice s = .next u ∧ u.dev.rung6Held = true ∧ u.mem = s.mem) ∧
    (s.dev.sealing = false → s.dev.keep = false → ∃ u : State, exec .resetDevice s = .next u ∧ u.threads = [] ∧ u.parts ≠ [] ∧
      u.dev.sealed = false ∧ u.dev.keep = false ∧ u.dev.bootCount = s.dev.bootCount + 1) ∧
    (s.dev.stage ≠ 6 → ∃ u : State, exec .powerUp s = .next u ∧ u.threads = [] ∧ u.dev.sealed = false ∧ u.image = none) ∧
    (s.dev.stage = 6 → ∃ u : State, exec .powerUp s = .next u ∧ u.dev.stage = 8 ∧ u.mem = s.mem))

/-- R279, R365, R368, R371: a seal halts every slot, then puts the sealed storage, the accumulator stores and the register files,
with their poison, into Stillwater; the package's own image restores them under the key they were sealed with. -/
def Statement.SealResults : Prop :=
  (∀ s : State, Req.startSeal ∈ s.reqs → s.dev.sealing = false →
    ∃ u : State, exec .seal s = .next u ∧ u.dev.sealing = true ∧ ∀ e ∈ u.threads, e.2.held = true) ∧
  (∀ s : State, s.dev.sealing = true → s.dev.rung6Held = false →
    ∃ (u : State) (im : Image), exec .sealComplete s = .next u ∧ u.image = some im ∧ im.key = s.dev.sealKey ∧ im.foreign = [] ∧
      (∀ c, c ∈ im.cells ↔ c ∈ s.mem ∧ s.sealedPlace c.1 = true) ∧ (∀ a, a ∈ im.poison ↔ a ∈ s.poison ∧ s.sealedPlace a = true) ∧
      im.accs = s.cores.map (fun e => (e.1, e.2.acc, e.2.accPoison)) ∧
      (∀ f ∈ im.files, ∃ e ∈ s.threads, f.1 = e.1 ∧ f.2.1 = e.2.v.map (fun r => (r.1, r.2.bits)) ∧ ∀ w ∈ f.2.2, w ∈ e.2.poison) ∧
      im.files.map Prod.fst = s.threads.map Prod.fst ∧ u.dev.sealed = true ∧ u.dev.sealing = false) ∧
  (∀ (s : State) (im : Image), Memory.wf s.mem = true → Memory.wf im.cells = true → Req.restore ∈ s.reqs → s.image = some im →
    im.key = s.dev.sealKey → s.dev.sealKey ≠ none → im.foreign = [] → s.dev.sealed = true →
    ∃ u : State, exec .restore s = .next u ∧ u.image = none ∧ u.dev.sealed = false ∧
      (∀ a, s.sealedPlace a = true → memByte u.mem a = memByte im.cells a) ∧
      (∀ a, s.sealedPlace a = false → memByte u.mem a = memByte s.mem a) ∧
      ((im.accs.map Prod.fst).Nodup → ∀ e ∈ im.accs, (u.core e.1).acc = e.2.1 ∧ (u.core e.1).accPoison = e.2.2) ∧
      ((im.files.map Prod.fst).Nodup → ∀ e ∈ im.files, (e.2.1.map Prod.fst).Nodup → ∀ r ∈ e.2.1,
        ((u.thread e.1).getV r.1).bits = r.2 ∧ ((u.thread e.1).getV r.1).fmt = ((s.thread e.1).getV r.1).fmt)) ∧
  (∀ s : State, Req.restore ∈ s.reqs → s.dev.sealKey = none →
    ∃ u : State, exec .restore s = .next u ∧ u.dev.mstat = 3 ∧ u.mem = s.mem ∧ u.image = s.image) ∧
  (∀ s : State, s.dev.keep = false → exec .thermalTrip s = .next { s with threads := s.threads.map (fun (e : Nat × Thread) => (e.1, { e.2 with held := true })), dev := { s.dev with tripped := true } }) ∧
  (∀ s : State, ∃ u : State, exec .powerLimitThrottle s = .next u ∧ u.mem = s.mem ∧ u.threads = s.threads ∧ u.cores = s.cores ∧
    ∀ q, (u.quad q).parts = (s.quad q).parts ∧ (u.quad q).step = (s.quad q).step ∧ (s.quad q).endAt ≤ (u.quad q).endAt)

/-- R366 to R368: the mailbox commands. What the root of trust signs, checks and keeps is outside the model, so a command that it
refuses ends with status 3. -/
def Statement.MailboxResults : Prop :=
  ∀ s : State, Req.mailbox ∈ s.reqs →
    let s' : State := { s with reqs := s.reqs.erase .mailbox }
    let cmd := s.dev.mbox.toNat % 256
    let fin (u : State) (st : BitVec 2) : State := ({ u with dev := { u.dev with mstat := st } } : State).raiseIrq 0 3
    (cmd = 0 → ∃ u : State, exec .mboxReport s = .next u ∧ u.dev.mstat = 2 ∧
      fieldOf (u.read (s'.mboxAddr 0) 640) 0x10 32 = s'.read (s'.mboxAddr 0) 32) ∧
    (cmd = 1 → let c := Config.certificate s.dev.pkg.toNat
      exec .mboxCert s = .next (fin (s'.write none (s'.mboxAddr 0) c.length (c.foldr (fun b x => b.toNat + 256 * x) 0)) 2)) ∧
    (cmd = 2 → let v := s.dev.mbox.extractLsb' 8 2
      (v.toNat ≤ s.dev.lc.toNat → exec .mboxLifecycle s = .next (fin s' 2)) ∧
      (s.dev.lc.toNat < v.toNat → ∃ u : State, exec .mboxLifecycle s = .next u ∧ u.dev.lc = v ∧ u.dev.sealKey = none ∧
        u.dev.sealed = false ∧ u.threads = [])) ∧
    (cmd = 3 → (s.dev.lc = 0 → exec .mboxLoadspring s = .next (fin s'.bump 3)) ∧
      (s.dev.lc ≠ 0 → ∃ u : State, exec .mboxLoadspring s = .next u ∧ u.mem = s.mem ∧
        if Config.nyldoronPasses s.fresh then
          u.dev.mstat = 2 ∧ let p := s.dev.mbox.toNat / 2 ^ 16 % 8
          (u.part p).state = 1 ∧ (u.part p).uEff = (s.part p).uroot ∧ (u.part p).sEff = (s.part p).sroot
        else u = fin s'.bump 3)) ∧
    (cmd = 4 → (s.dev.sealKey = none → exec .mboxKeyxfer s = .next (fin s'.bump 3)) ∧
      (s.dev.sealKey ≠ none → ∃ u : State, exec .mboxKeyxfer s = .next u ∧ u.dev.sealKey = s.dev.sealKey ∧
        if Config.nyldoronPasses s.fresh then u.dev.mstat = 2 else u = fin s'.bump 3)) ∧
    (cmd = 5 → ∃ u : State, exec .mboxKeyrecv s = .next u ∧ u.mem = s.mem ∧
      if Config.nyldoronPasses s.fresh then u.dev.mstat = 2 ∧ u.dev.keyRecv = true else u = fin s'.bump 3)

/-- R353 to R355: the writes of the registers: a field outside its range, and a field that a virtual function may not write, stay
as they were. -/
def Statement.RegisterWriteResults : Prop :=
  ∀ (s : State) (v : BitVec 64) (p : Nat), p < 8 →
    let dev (off : Nat) (d : Device) : Prop := exec (.registerWrite off 8 v) s = .next { s with dev := d }
    let blk (off : Nat) (x : Partition) : Prop := exec (.registerWrite (0x200000 + 0x1000 * p + off) 8 v) s = .next (s.setPart p x)
    let x := s.part p
    (v.getLsbD 0 = s.dev.master → dev 0x030 s.dev) ∧
    (v.getLsbD 0 ≠ s.dev.master → exec (.registerWrite 0x030 8 v) s = .next { s with gtime := s.podTime, gclk := s.clk, gadj := 0, dev := { s.dev with master := v.getLsbD 0, locked := v.getLsbD 0 } }) ∧
    ((∀ k < 4, let n := v.toNat / 256 ^ k % 16
        n ≤ 10 ∧ s.sharesBut 8 k ≤ n * 512 ∧ (n = s.dev.dsplit.toNat / 256 ^ k % 16 ∨ s.dieScratchHeld k = false)) →
      dev 0x038 { s.dev with dsplit := v.truncate 32 &&& 0x0F0F0F0F }) ∧
    ((∃ k < 4, 10 < v.toNat / 256 ^ k % 16) → dev 0x038 s.dev) ∧
    (s.dev.stage.toNat < 7 → dev 0x028 { s.dev with pkg := v.truncate 7 }) ∧
    (7 ≤ s.dev.stage.toNat → dev 0x028 s.dev) ∧
    dev 0x058 (if 1000 ≤ v.toNat % 2 ^ 16 ∧ v.toNat % 2 ^ 16 ≤ 4200 then { s.dev with plimit := v.truncate 16 } else s.dev) ∧
    (∀ j < 128, dev (0x100 + 8 * j) { s.dev with routes := s.dev.routes.set j (v.truncate 16 &&& 0x81FF) }) ∧
    blk 0x008 { x with uroot := v &&& 0x000FFFFFFFFFF001 } ∧ blk 0x010 { x with sroot := v &&& 0x000FFFFFFFFFF001 } ∧
    blk 0x018 { x with qtab := v } ∧ blk 0x020 { x with ctab := v } ∧ blk 0x028 { x with hot := v } ∧ blk 0x048 { x with entry := v } ∧
    blk 0x050 { x with tring := v.truncate 32 } ∧ blk 0x078 { x with spare := v.truncate 32 } ∧
    (x.state ≠ 1 → (∀ q, q < 8 → q ≠ p → (s.part q).clus &&& v = 0) → blk 0x030 { x with clus := v }) ∧
    (∀ q < 256, exec (.registerWrite (0x100000 + 0x1000 * p + 8 * q) 8 v) s = .next { s with reqs := s.reqs ++ [.doorbell p q v] }) ∧
    (∀ off ∈ [0x030, 0x038, 0x040, 0x090], exec (.registerWrite (2 ^ 32 * (p + 1) + off) 8 v) s = .next s)

/-- R251, R278, R280, R284, R356, R358, R360, R370: what the host, other packages, the pod and chance do to the package. -/
def Statement.OutsideWorldResults : Prop :=
  (∀ (s : State) (fn off n : Nat) (data : Option (BitVec 64)),
    let x := off + (if fn = 0 then s.dev.b2base.toNat else (s.part (fn - 1)).b2base.toNat) * 2 ^ 30
    let pa := s.dev.pkg.toNat * 2 ^ 45 + x
    (0x6000000000 < x + n → exec (.hostBar2Access fn off n data) s =
      .next { s with dev := { s.dev with aer := s.dev.aer ++ [(fn, off, data.isSome)] } }) ∧
    (x + n ≤ 0x6000000000 → s.spansHeld [⟨pa, 2, n⟩] = false →
      (∀ v, data = some v → exec (.hostBar2Access fn off n data) s = .next (s.write none pa n v.toNat)) ∧
      (data = none → exec (.hostBar2Access fn off n data) s = .next s))) ∧
  (∀ (s : State) (a n : Nat) (v : BitVec 64), paPkg a = s.dev.pkg.toNat → paReserved a = false → a < 2 ^ 52 →
    s.spansHeld [⟨a, 2, n⟩] = false → s.isReg a 2 = false → s.image = none →
    exec (.accessFromAnotherPackage a n (some v)) s = .next (s.write none a n v.toNat)) ∧
  (∀ (s : State) (link far : Nat), link < 9 →
    exec (.tarnLaneFail link) s = .next { s with dev := { s.dev with lanes := s.dev.lanes.set link (min (s.dev.lanes.getD link 0 + 1) 2) } } ∧
    (far % 128 = s.dev.pkg.toNat → exec (.tarnLinkTraining link far) s =
      .next { s with dev := { s.dev with fail := 0x51, links := s.dev.links.erase link } }) ∧
    (far % 128 ≠ s.dev.pkg.toNat → exec (.tarnLinkTraining link far) s =
      .next { s with dev := { s.dev with links := s.dev.links.set link (far % 128) } }) ∧
    (s.dev.links.erase link = [] → s.dev.master = false → ∃ u : State, exec (.tarnLinkLoss link) s = .next u ∧ u.dev.links = [] ∧ u.dev.locked = false ∧
      u.mem = s.mem)) ∧
  (∀ (s : State) (time : BitVec 64), s.dev.master = false → s.dev.links ≠ [] →
    let d : Int := (time.toNat : Int) - s.podTime
    exec (.podTimeSync time) s = .next { s with gtime := s.podTime, gclk := s.clk, gadj := d, dev := { s.dev with locked := decide (d.natAbs ≤ 25) } }) ∧
  (∀ s : State, ∃ u : State, exec .hotnessEpochEnd s = .next u ∧
    u.hotness = s.hotness.filter (fun e => e.epoch == epochAt s.clk) ∧
    u.hotOut = (s.hotOut ++ s.hotness.filter (fun e => e.epoch != epochAt s.clk)).filter s.hotHeld ∧
    ((∀ p, (s.part p).hot = 0) → u.mem = s.mem) ∧
    ∀ e : HotEntry, let a := (s.part e.part).hot.toNat + 8 * hotIndex e.region
      s.hotOut = [] → s.hotness = [e] → e.epoch ≠ epochAt s.clk → (s.part e.part).hot ≠ 0 → paReserved a = false → s.hotHeld e = false →
      u = { s.write none a 8 (hotEntry (s.read a 8) e.epoch e.u e.t e.i) with hotness := [], hotOut := [] }) ∧
  (∀ (s : State) (a : Nat), (2 ^ 56 ≤ a ∧ a < 2 ^ 57 → exec (.patrolScrub a) s = .next s) ∧
    (a < 2 ^ 56 ∨ 2 ^ 57 ≤ a → (∀ b ∈ s.poison, b / 64 ≠ a / 64) →
    ∃ u : State, exec (.patrolScrub a) s = .next u ∧ u.mem = s.mem ∧ u.poison = s.poison ∧
      u.latent = s.latent.filter (fun b => b / 64 != a / 64))) ∧
  (∀ (s : State) (k w a : Nat), w < 2 ^ 20 → 31 < w → (s.thread k).st ≠ .empty →
    (∃ u : State, exec (.softError 2 (k * 2 ^ 20 + w) true) s = .next u ∧ w ∈ (u.thread k).poison ∧ u.mem = s.mem) ∧
    (∃ u : State, exec (.softError 6 a true) s = .next u ∧ granuleOf a ∈ u.poison ∧ u.mem = s.mem) ∧
    (∃ u : State, exec (.softError 10 a true) s = .next u ∧ u.mem = s.mem ∧ ∀ i < 8, lineOf a * 64 + 8 * i ∈ u.poison) ∧
    (∃ u : State, exec (.softError 10 a false) s = .next u ∧ u = { s with latent := s.latent ++ [a], tierErrs := u.tierErrs } ∧
      u.errRow 6 a = 8) ∧
    (∃ u : State, exec (.softError 6 a false) s = .next u ∧ u = { s with latent := s.latent ++ [a], tierErrs := u.tierErrs } ∧
      u.errRow 6 a = 7))

/-! ## The machine as a whole -/

/-- R12, R101: the frame of the scalar instructions that only write g[d]: after the W marker they change no other register, no
special register, no other thread and no byte of storage. -/
def Statement.ScalarFrame : Prop :=
  ∀ (s : State) (w : Bool) (d a b : BitVec 5) (i : BitVec 15) (sh : BitVec 6) (sw : BitVec 5) (u : BitVec 20) (p : BitVec 32)
    (j : Instr),
    j ∈ [Instr.add w d a b, .sub w d a b, .and w d a b, .or w d a b, .xor w d a b, .sll w d a b, .srl w d a b, .sra w d a b,
      .slt w d a b, .sltn w d a b, .min w d a b, .max w d a b, .minn w d a b, .maxn w d a b, .addw w d a b, .subw w d a b,
      .sllw w d a b, .srlw w d a b, .sraw w d a b, .addi w d a i, .andi w d a i, .ori w d a i, .xori w d a i, .slti w d a i,
      .sltni w d a i, .addiL w d a p, .slli w d a sh, .srli w d a sh, .srai w d a sh, .slliw w d a sw, .srliw w d a sw,
      .sraiw w d a sw, .rori w d a sh, .lui w d u, .addpc w d u, .addpcL w d p, .mul w d a b, .mulh w d a b, .mulhn w d a b,
      .mulhsn w d a b, .div w d a b, .divn w d a b, .rem w d a b, .remn w d a b, .mulw w d a b, .divw w d a b, .divnw w d a b,
      .remw w d a b, .remnw w d a b, .clz w d a, .ctz w d a, .popc w d a, .clzw w d a, .ctzw w d a, .popcw w d a, .brev w d a,
      .bswap w d a, .rol w d a b, .ror w d a b, .sextb w d a, .sexth w d a, .sextw w d a, .zextw w d a, .bext w d a b,
      .bdep w d a b, .tid w d, .place w d, .lsize w d, .call w d u] →
    s.Ready w [a.toNat, b.toNat] →
    ∃ v : State, exec j s = .next v ∧ (s.afterW w).OnlyG v d.toNat

/-- R21, R22: the W marker lands what has been issued: it changes no byte of storage, no other thread and, of its own thread,
no register that has no result pending; without it nothing lands. -/
def Statement.WaitMarkerFrame : Prop :=
  ∀ s : State, s.afterW false = s ∧ (s.afterW true).mem = s.mem ∧
    s.afterW true = { s with threads := (s.afterW true).threads } ∧
    (∀ k, k ≠ s.cur → (s.afterW true).thread k = s.thread k) ∧ (s.afterW true).thr.pc = s.thr.pc ∧
    ∀ r, 0 < r → pendingOf s.thr.pend r = none → (s.afterW true).thr.getG r = s.thr.getG r

/-- R95 to R97, R243, R250: the frame of the relaxed stores in plain storage: they write their parts, and change no other byte as
their core reads it and no register; a byte of storage outside the parts changes only where it takes up what its core had stored on
a STRM page. -/
def Statement.StoreFrame : Prop :=
  ∀ (s : State) (w : Bool) (a b : BitVec 5) (i : BitVec 10), s.Ready w [a.toNat] → (s.afterW w).unpending b.toNat →
    let t := s.afterW w
    let x := t.thr.getG a.toNat
    let va := (BitVec.ofInt 64 (x.toNat + i.toInt)).toNat
    ∀ (st : Instr) (n : Nat), (st, n) ∈ [(Instr.sb w 0 a b i, 1), (.sh w 0 a b i, 2), (.sw w 0 a b i, 4), (.sd w 0 a b i, 8)] →
      let here := coreOf t.cur
      ∀ sp, t.Admits .store (lsOrder 0) va n sp → (∀ p ∈ sp, t.isReg p.pa p.attr = false) → t.thr.lease = none →
        ((t.core here).strm.map Prod.fst).Nodup →
        ∃ v : State, exec st s = .next v ∧ (∀ r, v.thr.getG r = t.thr.getG r) ∧ v.thr.pc = t.thr.pc + 4 ∧
          v.thr.fflags = t.thr.fflags ∧ v.thr.frm = t.thr.frm ∧ v.thr.vl = t.thr.vl ∧ v.thr.v = t.thr.v ∧ v.thr.m = t.thr.m ∧
          ∀ y, (∀ p ∈ sp, y < p.pa ∨ p.pa + p.n ≤ y) → v.coreByte here y = t.coreByte here y ∧
            ((∀ e ∈ (t.core here).strm, e.1 ≠ y) → memByte v.mem y = memByte t.mem y)

/-- R23: without the marker, a read of a register with a pending result gives its value before or after that result, and with
c.debug PENDTRAP set it traps, whatever poison the register holds. -/
def Statement.PendingOperand : Prop :=
  ∀ (s : State) (d a : BitVec 5) (i : BitVec 15) (v : Word), a ≠ 0 → pendingOf s.thr.pend a.toNat = some (some v) →
    (s.thr.dbg.getLsbD 0 = true →
      exec (.addi false d a i) s = s.trapAfter s 0x08 (BitVec.ofNat 64 a.toNat)) ∧
    (s.thr.dbg.getLsbD 0 = false → a.toNat ∉ s.thr.poison → pendingOf s.thr.pend (codePoison + a.toNat) = none →
      ∃ x ∈ [s.thr.getG a.toNat, v], exec (.addi false d a i) s =
        .next ((({ s with fresh := s.fresh + 1 } : State).setG d.toNat (BitVec.ofInt 64 (x.toNat + i.toInt))).advance 4))

/-- R281, R283: an instruction that consumes a poisoned scalar register with no pending result takes the machine check, whose value
names it; one that writes the register ends its poison. -/
def Statement.PoisonedOperand : Prop :=
  ∀ (s : State) (d a : BitVec 5) (i : BitVec 15) (u : BitVec 20), a ≠ 0 → a.toNat ∈ s.thr.poison →
    pendingOf s.thr.pend a.toNat = none →
    exec (.addi false d a i) s = s.trapAfter s 0x0F (BitVec.ofNat 64 (2 ^ 56 + a.toNat)) ∧
    ∃ v : State, exec (.lui false a u) s = .next v ∧ a.toNat ∉ v.thr.poison ∧ v.thr.getG a.toNat = BitVec.ofInt 64 (u.toInt * 4096)

/-- R10, R20, R59, R60, R66, R103, R259, R349: a step is a move, after which the device keeps its code tables. A move that is a
slot's turn runs the instruction that the decoder reads at the thread's PC; a word that decodes to none, and a fetch that fails,
have their own meaning; a slot that may not issue passes its turn; and a move of an agent runs that agent's step. The words that a
thread of a launch fetches are those of its launch's dispatch.
MODEL'S CHOICE: the statement rests on that the agenda says what moves next (entry 6), for the clause of an empty agenda on the order of steps (entry 17), and on the code that a launch runs (entry 108). -/
def Obligations.StepRunsDecoded : Prop :=
  (∀ (s u : State), stepMove s = .next u → step s = .next u.codeUpkeep) ∧
  (∀ (s : State), (∀ e ∈ s.parts, (s.part e.1).loaded = [] ∧ (s.part e.1).goneCode = []) → s.codeUpkeep = s) ∧
  (∀ (s : State) (k : Nat) (rest : List Move), s.agenda = .issue k :: rest →
    let s₀ : State := { s with agenda := rest }
    let u := s₀.takeTurn k
    (s₀.mayIssue k = false → stepMove s = .next (s₀.passTurn k)) ∧
    (s₀.mayIssue k = true →
      (∀ x p i, u.fetchWords k = .ok (x, p) → decodeWord x p = .ok i → stepMove s = exec i u) ∧
      (∀ x p e, u.fetchWords k = .ok (x, p) → decodeWord x p = .error e → stepMove s = exec (.illegalInstructionWord x) u) ∧
      (∀ e, u.fetchWords k = .error e → stepMove s = exec .instructionFetchFault u))) ∧
  (∀ (s : State) (i : Instr) (rest : List Move), s.agenda = .event i :: rest → stepMove s = exec i { s with agenda := rest }) ∧
  (∀ (s : State) (r : RemoteColl) (rest : List Move), s.agenda = .coll r :: rest →
    stepMove s = .next { s with agenda := rest, remote := s.remote ++ [r] }) ∧
  (∀ (s : State) (k : Nat), s.agenda = [] → firstMove s s.agentEvents = none → s.nextTurn = some k → s.mayIssue k = true →
    s.turnOf k ≤ s.clk →
    ∀ x p i, (s.takeTurn k).fetchWords k = .ok (x, p) → decodeWord x p = .ok i → stepMove s = exec i (s.takeTurn k)) ∧
  (∀ (s : State) (k : Nat), let u := s.takeTurn k
    u.cur = k ∧ u.clk % 16 = slotOf k ∧ s.clk ≤ u.clk ∧ (s.thread k).ready ≤ u.clk ∧ u.mem = s.mem ∧
      u.thread k = { s.thread k with ready := u.clk + 1 } ∧ ∀ j, j ≠ k → u.thread j = s.thread j) ∧
  (∀ (s : State) (k pa attr : Nat), let pc := (s.thread k).pc.toNat
    pc < winBase → s.walkFor k .fetch pc = .ok pa attr →
    let x := BitVec.ofNat 32 (memNat (s.codeMem k) pa 4)
    isXl x = false → s.fetchWords k = .ok (x, 0)) ∧
  (∀ (s : State) (k lid : Nat) (l : Launch), (s.thread k).launch = some lid → s.launches.get? lid = some l → s.codeMem k = l.codeMem)

/-- R59 to R70: decoding gives back every well-formed instruction that has an encoding, with all its operands, from the bytes of
its words, and leaves the bytes behind them. TLBINV, SLOTCTL and WAKEP share a word among several rows, of which the decoder
gives the first; the rows of one word have one meaning, which their registers' contents select.
MODEL'S CHOICE: the statement rests on the rows that share one word, which it leaves to the first (entry 84). -/
def Obligations.DecodeEncode : Prop :=
  (∀ (i : Instr) (rest : List (BitVec 8)), i.wf = true → i.fields ≠ none →
    decode ((encode i).flatMap bytesOfWord ++ rest) = .ok (i.canon, rest)) ∧
  (∀ (i : Instr) (s : State), exec i.canon s = exec i s)

/-- R59 to R70: words as the encodings section of the spec works them out, and words that decode to nothing. -/
def Obligations.WorkedWords : Prop :=
  decodeTableWord 32 0x02321400 = some (.add false 3 4 5) ∧
  decodeTableWord 32 0x0C73A003 = some (.srai false 7 7 3) ∧
  decodeTableWord 32 0x3DE00010 = some (.call false 30 16) ∧
  decodeTableWord 32 0x44864100 = some (.vfadd false 8 12 16 2) ∧
  decodeTableWord 32 0x70020000 = some (.copy false 4) ∧
  decodeTableWord 32 0 = none ∧
  decodeWord 0 0 = .error .permanentlyIllegal ∧
  decodeWord 0x64000000 0 = .error .marchOneWord

/-- R11, R19, R28, R355, R361: what reset leaves: every slot is EMPTY, storage reads 0, no partition runs, and no queue entry,
launch or record stands. The spec gives these. The registers of an EMPTY slot, a byte of host memory and the first step's
idle clk are the model's choice (log entries 2, 8 and 17). -/
def Obligations.ResetState : Prop :=
  let s := State.reset
  s.Ok ∧ (∀ k, s.thread k = Thread.empty) ∧ (∀ a, memByte s.mem a = 0) ∧
  (∀ p, (s.part p).state = 0 ∧ (s.part p).uroot = 0 ∧ (s.part p).clus = 0 ∧ (s.part p).spare = 64) ∧
  s.entries = [] ∧ s.launches = [] ∧ s.reqs = [] ∧ s.clk = 0 ∧ s.dev.stage = 8 ∧ s.dev.plimit = 3800 ∧ s.dev.sealed = false ∧
  (∀ c l r j, (s.core c).accWord l r j = 0) ∧ step s = .next { s with clk := 1 }

/-- R6, R361: storage keeps its canonical form: whatever step the machine takes, every address is listed at most once, in rising
order, and only where it holds a byte other than 0. -/
def Obligations.StorageForm : Prop :=
  ∀ s u : State, s.Ok → step s = .next u → u.Ok

/-- No instruction and no step stops the machine: each answers a next state, since the spec gives every one an effect, be it
a trap, a park, an idle turn or an error code.
MODEL'S CHOICE: the statement rests on the steps of agents that are not due (entry 83). -/
def Obligations.NothingStops : Prop :=
  (∀ (i : Instr) (s : State), ∃ u, exec i s = .next u) ∧ ∀ s : State, ∃ u, step s = .next u

/-! ## Rules stated whole -/

/-- R316, R317: where the samples lie, and which a primitive covers: each of the three edge expressions is positive, or is 0 on an
edge with dy < 0, or with dy = 0 and dx > 0. A point of an edge that two primitives traverse in opposite directions lies inside of
that edge for exactly one of them. -/
def Obligations.SampleCoverage : Prop :=
  (samplePoints 1 = [(8, 8)] ∧ samplePoints 2 = [(4, 4), (12, 12)] ∧ samplePoints 4 = [(6, 2), (14, 6), (2, 10), (10, 14)] ∧
    samplePoints 8 = [(9, 5), (7, 11), (13, 9), (5, 3), (3, 13), (1, 7), (11, 15), (15, 1)]) ∧
  (∀ x y sx sy : Nat, samplePoint x y (sx, sy) = (256 * (x : Int) + 16 * sx, 256 * (y : Int) + 16 * sy)) ∧
  (∀ (p : Prim) (q : Int × Int), p.covers q = true ↔ ∀ e ∈ [(0, 1), (1, 2), (2, 0)],
    let dx := (p.vert e.2).1 - (p.vert e.1).1
    let dy := (p.vert e.2).2 - (p.vert e.1).2
    let E := dx * (q.2 - (p.vert e.1).2) - dy * (q.1 - (p.vert e.1).1)
    0 < E ∨ (E = 0 ∧ (dy < 0 ∨ (dy = 0 ∧ 0 < dx)))) ∧
  (∀ (p p' : Prim) (i j i' j' : Nat) (q : Int × Int), p'.vert i' = p.vert j → p'.vert j' = p.vert i → p.vert i ≠ p.vert j →
    p'.inside i' j' q = !p.inside i j q)

/-- R48: the generators' seeds. At dispatch, with c.srseed 0 (R24), and at an MTS to c.srseed each lane is seeded; MFS gives back the
value written. Both wait while a vector instruction of the thread is queued (R53, R104). A value with one of the RSV bits [63:32] set
is an illegal instruction (R7, R24). -/
def Obligations.GeneratorSeeds : Prop :=
  (∀ (seed : Word) (lane : Nat), lane < 32 →
    let x : BitVec 32 := seed.truncate 32 ^^^ BitVec.ofNat 32 (lane * 0x9E3779B9)
    lfsrSeed seed lane = if x = 0 then 1 else x) ∧
  (∀ (l : Launch) (lid tid now lane : Nat), lane < 32 → let t := startThread l lid tid now
    t.srseed = 0 ∧ t.lfsr.getD lane (lfsrSeed 0 lane) = lfsrSeed 0 lane) ∧
  (∀ (s : State) (w : Bool) (d a : BitVec 5), s.Ready w [a.toNat] →
    let t := s.afterW w
    let x := t.thr.getG a.toNat
    (t.thr.vq ≠ [] → exec (.mfs w d 0x012) s = .next s ∧ (x.toNat < 2 ^ 32 → exec (.mts w a 0x012) s = .next s)) ∧
    (t.thr.vq = [] → x.toNat < 2 ^ 32 → ∃ u : State, exec (.mts w a 0x012) s = .next u ∧ u.thr.srseed = x ∧
      ∀ lane < 32, u.thr.lfsr.get? lane = some (lfsrSeed x lane)) ∧
    (2 ^ 32 ≤ x.toNat → exec (.mts w a 0x012) s = s.trapAfter t 0x01 t.wordAtPc) ∧
    (t.thr.vq = [] → exec (.mfs w d 0x012) s = .next ((t.setG d.toNat t.thr.srseed).advance 4)))

/-- R292, R294: what the cell-march unit checks before it computes a face. A tetrahedron whose vertex indices are not all below
vcount, and a polyhedron whose fcount is not 4 to 8, end the ray BADREF with detail 2; the four vertex records are read after
that. A polyhedron's face has num and den as R294 gives them, and makes the cell DEGENERATE with detail 2 where a component of its
plane is not finite or its normal is zero. -/
def Obligations.CellChecks : Prop :=
  (∀ (s : State) (e : Entry) (m : March) (r : Ray), r.o.bad = false → r.d.bad = false → (fp r.tmax).bad = false → r.d.isZero = false →
    r.cell < m.ccount → Val.le (fp r.tmax) (.zero false) = false → r.steps ≠ m.limit →
    (∀ x, m.poly = false → meshRead s e (m.cells + 32 * r.cell) 32 (fun _ => [(0, 32)]) = .ok x →
      ((∃ k < 4, m.vcount ≤ fieldOf x (4 * k) 4) → rayStep s e m r = .ray (r.stop m.mode 3 2) none true) ∧
      ((∀ k < 4, fieldOf x (4 * k) 4 < m.vcount) → ∀ vs, readVerts s e m [fieldOf x 0 4, fieldOf x 4 4, fieldOf x 8 4, fieldOf x 12 4] = .ok vs →
        rayStep s e m r = .ray (r.cross m (.tet vs [fieldOf x 0x10 4, fieldOf x 0x14 4, fieldOf x 0x18 4, fieldOf x 0x1C 4])) none true)) ∧
    (∀ x, m.poly = true → meshRead s e (m.cells + 256 * r.cell) 256 polyUsed = .ok x →
      (fieldOf x 0 4 < 4 ∨ 8 < fieldOf x 0 4 → rayStep s e m r = .ray (r.stop m.mode 3 2) none true))) ∧
  (∀ (r : Ray) (m : March) (v0 : Val) (c g : V3) (ps : List (V3 × Val)) (nb : List Nat),
    (∃ p ∈ ps, p.1.bad = true ∨ p.2.bad = true ∨ p.1.isZero = true) → r.cross m (.poly v0 c g ps nb) = r.stop m.mode 4 2) ∧
  (∀ (o d n : V3) (w : Val), n.bad = false → w.bad = false → n.isZero = false → polyFace o d (n, w) =
    some (rndV (w.sub (Val.plus (Val.plus (n.x.times o.x) (n.y.times o.y)) (n.z.times o.z))),
      rndV (Val.plus (Val.plus (n.x.times d.x) (n.y.times d.y)) (n.z.times d.z))))

/-! ## Number formats and arithmetic -/

/-- R43 to R45: `r` is the code and the flags of the real number (−1)^s × y, y > 0, rounded to format `f`: with m the code of a
magnitude on the format's grid, its exponent unbounded above, that the mode picks. -/
def Rounded (f : Fp) (mode : RMode) (s : Bool) (y : ℝ) (r : Nat × Flags) : Prop :=
  let grid (m : Nat) : ℝ :=
    if m < 2 ^ f.fbits then (m : ℝ) * (2 : ℝ) ^ (1 - (f.bias : ℤ) - f.fbits)
    else ((m % 2 ^ f.fbits + 2 ^ f.fbits : Nat) : ℝ) * (2 : ℝ) ^ (((m / 2 ^ f.fbits : Nat) : ℤ) - f.bias - f.fbits)
  let outward : Bool := (mode == .rdn && s) || (mode == .rup && !s)
  let inward : Bool := mode == .rtz || (mode == .rdn && !s) || (mode == .rup && s)
  ∃ m : Nat,
    (mode = .rne → ∀ k, |y - grid m| ≤ |y - grid k| ∧ (k ≠ m → |y - grid m| = |y - grid k| → m % 2 = 0)) ∧
    (inward = true → grid m ≤ y ∧ y < grid (m + 1)) ∧
    (outward = true → y ≤ grid m ∧ ∀ k, y ≤ grid k → m ≤ k) ∧
    (m ≤ f.maxCode → grid m = y → r = (signCode f s m, 0)) ∧
    (m ≤ f.maxCode → grid m ≠ y → r = (signCode f s m, flagNX + if m < 2 ^ f.fbits then flagUF else 0)) ∧
    (f.maxCode < m → r = (signCode f s (if f.hasInf && (mode == .rne || outward) then f.maxCode + 1 else f.maxCode), flagOF + flagNX))

/-- R35, R43 to R46: rounding a value to a floating-point format, under each of the four modes: a finite non-zero value goes to the
grid value that the mode picks, with the overflow rule and the flags; a zero keeps its sign; an infinity and a NaN pass where the
format has them, and else give the largest magnitude and code 0, with NV. Decoding gives each code the grid's value. Rounding to an
integer is the same with spacing 1, and saturates with NV.
MODEL'S CHOICE: the statement rests on the flags of a result that rounds to zero (entry 29). -/
def Obligations.RoundingResults : Prop :=
  (∀ (f : Fp) (mode : RMode) (s : Bool), f ∈ [Fp.fp16, Fp.bf16, Fp.fp32, Fp.fp64, Fp.e4m3, Fp.e5m2, Fp.e2m1] →
    mode ∈ [RMode.rne, .rtz, .rdn, .rup] →
    (∀ n d : Nat, 0 < n → 0 < d → Rounded f mode s ((n : ℝ) / d) (roundTo f mode (.fin s n d))) ∧
    roundTo f mode (.zero s) = (signCode f s 0, 0) ∧
    roundTo f mode (.inf s) = (if f.hasInf then (signCode f s (f.maxCode + 1), 0) else (signCode f s f.maxCode, flagNV)) ∧
    roundTo f mode .nan = (if f.hasNan then (f.canonNan, 0) else (0, flagNV)) ∧
    decodeFp f (signCode f s 0) = .zero s ∧
    (f.hasInf = true → decodeFp f (signCode f s (f.maxCode + 1)) = .inf s) ∧
    (∀ m, 0 < m → m ≤ f.maxCode → ∃ n d : Nat, 0 < n ∧ 0 < d ∧ decodeFp f (signCode f s m) = .fin s n d ∧
      (n : ℝ) / d = (if m < 2 ^ f.fbits then (m : ℝ) * (2 : ℝ) ^ (1 - (f.bias : ℤ) - f.fbits)
        else ((m % 2 ^ f.fbits + 2 ^ f.fbits : Nat) : ℝ) * (2 : ℝ) ^ (((m / 2 ^ f.fbits : Nat) : ℤ) - f.bias - f.fbits)))) ∧
  (∀ (signed : Bool) (w n d : Nat) (mode : RMode) (s : Bool), w ∈ [8, 16, 32, 64] → mode ∈ [RMode.rne, .rtz, .rdn, .rup] →
    0 < n → 0 < d →
    let y : ℝ := if s then -((n : ℝ) / d) else (n : ℝ) / d
    let lo : ℤ := if signed then -(2 ^ (w - 1) : Nat) else 0
    let hi : ℤ := if signed then (2 ^ (w - 1) : Nat) - 1 else (2 ^ w : Nat) - 1
    ∃ z : ℤ,
      (mode = .rne → ∀ k : ℤ, |y - z| ≤ |y - k| ∧ (k ≠ z → |y - z| = |y - k| → z % 2 = 0)) ∧
      (mode = .rtz → |(z : ℝ)| ≤ |y| ∧ |y - z| < 1) ∧ (mode = .rdn → (z : ℝ) ≤ y ∧ y < z + 1) ∧ (mode = .rup → (z : ℝ) - 1 < y ∧ y ≤ z) ∧
      (lo ≤ z → z ≤ hi → (y = z → roundToInt signed w mode (.fin s n d) = (truncInt z w, 0)) ∧
        (y ≠ z → roundToInt signed w mode (.fin s n d) = (truncInt z w, flagNX))) ∧
      (z < lo → roundToInt signed w mode (.fin s n d) = (truncInt lo w, flagNV)) ∧
      (hi < z → roundToInt signed w mode (.fin s n d) = (truncInt hi w, flagNV)))

/-- A value that is a number: a signed zero or a fraction. -/
def IsNumber (v : Val) : Prop := (∃ s, v = .zero s) ∨ ∃ s n d, 0 < n ∧ 0 < d ∧ v = .fin s n d
/-- The number that a value is. -/
noncomputable def numberOf (v : Val) : ℝ := (v.numer : ℝ) / v.denom

/-- R43, R52: what the arithmetic operations give before the one rounding. Sums, products, fused multiply-adds, quotients and
reciprocals of numbers are exact; a sum of two zeros of one sign keeps it, and every other sum that is zero is +0, or −0 under RDN;
the table's special operands have its results and flags. A square root and a reciprocal square root, rounded, are the real number
rounded; exp2 is exact for an integer, and exp2 and log2 lie within 2^−300 of the real number, exp2 by its size (log entry 114
says why that rounds as the real number does).
MODEL'S CHOICE: the statement rests on how far exp2 and log2 are computed (entry 114) and the sign of a zero (entry 91). -/
def Obligations.ArithmeticResults : Prop :=
  (∀ (dn : Bool) (a b c : Val), IsNumber a → IsNumber b → IsNumber c →
    (IsNumber (Val.add dn a b).1 ∧ numberOf (Val.add dn a b).1 = numberOf a + numberOf b ∧ (Val.add dn a b).2 = 0) ∧
    (numberOf a + numberOf b = 0 → (Val.add dn a b).1 = if a = b then a else .zero dn) ∧
    (IsNumber (Val.mul a b).1 ∧ numberOf (Val.mul a b).1 = numberOf a * numberOf b ∧ (Val.mul a b).2 = 0 ∧
      (Val.mul a b).1.neg? = (a.neg? != b.neg?)) ∧
    (IsNumber (Val.fma dn a b c).1 ∧ numberOf (Val.fma dn a b c).1 = numberOf a * numberOf b + numberOf c ∧ (Val.fma dn a b c).2 = 0) ∧
    (numberOf b ≠ 0 → IsNumber (Val.div a b).1 ∧ numberOf (Val.div a b).1 = numberOf a / numberOf b ∧ (Val.div a b).2 = 0 ∧
      (Val.div a b).1.neg? = (a.neg? != b.neg?)) ∧
    (numberOf a ≠ 0 → numberOf b = 0 → Val.div a b = (.inf (a.neg? != b.neg?), flagDZ)) ∧
    (numberOf a = 0 → numberOf b = 0 → Val.div a b = (.nan, flagNV)) ∧
    (numberOf a ≠ 0 → IsNumber a.recip.1 ∧ numberOf a.recip.1 = 1 / numberOf a ∧ a.recip.2 = 0) ∧
    (numberOf a < 0 → a.sqrt = (.nan, flagNV) ∧ a.rsqrt = (.nan, flagNV) ∧ a.log2 = (.nan, flagNV))) ∧
  (∀ (dn s t : Bool) (a : Val), IsNumber a →
    Val.add dn (.inf s) a = (.inf s, 0) ∧ Val.add dn a (.inf s) = (.inf s, 0) ∧
    Val.add dn (.inf s) (.inf t) = (if s = t then (.inf s, 0) else (.nan, flagNV)) ∧
    Val.mul (.inf s) (.zero t) = (.nan, flagNV) ∧ Val.mul (.zero t) (.inf s) = (.nan, flagNV) ∧
    Val.mul (.inf s) (.inf t) = (.inf (s != t), 0) ∧
    (numberOf a ≠ 0 → Val.mul (.inf s) a = (.inf (s != a.neg?), 0) ∧ Val.mul a (.inf s) = (.inf (a.neg? != s), 0)) ∧
    Val.div (.inf s) (.inf t) = (.nan, flagNV) ∧ Val.div (.inf s) a = (.inf (s != a.neg?), 0) ∧
    Val.div a (.inf s) = (.zero (a.neg? != s), 0) ∧
    Val.sqrt (.zero s) = (.zero s, 0) ∧ Val.sqrt (.inf false) = (.inf false, 0) ∧ Val.sqrt (.inf true) = (.nan, flagNV) ∧
    Val.recip (.zero s) = (.inf s, flagDZ) ∧ Val.recip (.inf s) = (.zero s, 0) ∧
    Val.rsqrt (.zero s) = (.inf s, flagDZ) ∧ Val.rsqrt (.inf false) = (.zero false, 0) ∧ Val.rsqrt (.inf true) = (.nan, flagNV) ∧
    Val.exp2 (.inf true) = (.zero false, 0) ∧ Val.exp2 (.inf false) = (.inf false, 0) ∧ Val.exp2 (.zero s) = (.fin false 1 1, 0) ∧
    Val.log2 (.zero s) = (.inf true, flagDZ) ∧ Val.log2 (.inf false) = (.inf false, 0) ∧ Val.log2 (.inf true) = (.nan, flagNV) ∧
    Val.log2 (.fin false 1 1) = (.zero false, 0)) ∧
  (∀ (dn s t : Bool) (x : Val),
    Val.add dn .nan x = (.nan, 0) ∧ Val.add dn x .nan = (.nan, 0) ∧ Val.mul .nan x = (.nan, 0) ∧ Val.mul x .nan = (.nan, 0) ∧
    Val.div .nan x = (.nan, 0) ∧ Val.div x .nan = (.nan, 0) ∧ Val.fma dn (.inf s) (.zero t) x = (.nan, flagNV) ∧
    Val.fma dn (.zero t) (.inf s) x = (.nan, flagNV) ∧ Val.sqrt .nan = (.nan, 0) ∧ Val.recip .nan = (.nan, 0) ∧
    Val.rsqrt .nan = (.nan, 0) ∧ Val.exp2 .nan = (.nan, 0) ∧ Val.log2 .nan = (.nan, 0)) ∧
  (∀ (f : Fp) (mode : RMode) (n d : Nat), f ∈ [Fp.fp16, Fp.bf16, Fp.fp32, Fp.fp64] → mode ∈ [RMode.rne, .rtz, .rdn, .rup] →
    0 < n → 0 < d →
    Rounded f mode false (Real.sqrt ((n : ℝ) / d)) (roundTo f mode (Val.sqrt (.fin false n d)).1) ∧
    Rounded f mode false (Real.sqrt ((d : ℝ) / n)) (roundTo f mode (Val.rsqrt (.fin false n d)).1)) ∧
  (∀ (s : Bool) (n d : Nat), 0 < n → 0 < d → (n : ℝ) / d ≤ 4000 →
    let x : ℝ := if s then -((n : ℝ) / d) else (n : ℝ) / d
    IsNumber (Val.exp2 (.fin s n d)).1 ∧ (Val.exp2 (.fin s n d)).2 = 0 ∧
    (d ∣ n → numberOf (Val.exp2 (.fin s n d)).1 = (2 : ℝ) ^ x) ∧
    |numberOf (Val.exp2 (.fin s n d)).1 - (2 : ℝ) ^ x| ≤ (2 : ℝ) ^ x * (2 : ℝ) ^ (-300 : ℤ)) ∧
  (∀ n d : Nat, 0 < n → 0 < d →
    IsNumber (Val.log2 (.fin false n d)).1 ∧ (Val.log2 (.fin false n d)).2 = 0 ∧
    |numberOf (Val.log2 (.fin false n d)).1 - Real.logb 2 ((n : ℝ) / d)| ≤ (2 : ℝ) ^ (-300 : ℤ))

/-- R206, R289, R293, R295 to R297, R409: what one step of a ray computes in a cell. A tetrahedron's face has num and den by R293, with
its normal turned away from the opposite vertex. The exit face is the candidate of the least tf, the lowest of a tie, and the exit t
never falls below t. The value at t is one rounding of the sum of the vertices' values by the barycentric coordinates of p(t), where
a coordinate of 0 leaves its value out, or of the polyhedron's value and gradient. The trapezoid over the step is added to acc with
one rounding, and the ray then ends or enters the neighbour across the exit face. -/
def Statement.CellMarchArithmetic : Prop :=
  (∀ (o d x0 x1 x2 x3 a b c p : V3) (f0 f1 f2 f3 : Val) (i : Nat),
    (i, a, b, c, p) ∈ [(0, x1, x2, x3, x0), (1, x0, x2, x3, x1), (2, x0, x1, x3, x2), (3, x0, x1, x2, x3)] →
    let dot (u v : V3) : Val := Val.plus (Val.plus (u.x.times v.x) (u.y.times v.y)) (u.z.times v.z)
    let e1 : V3 := ⟨rndV (b.x.sub a.x), rndV (b.y.sub a.y), rndV (b.z.sub a.z)⟩
    let e2 : V3 := ⟨rndV (c.x.sub a.x), rndV (c.y.sub a.y), rndV (c.z.sub a.z)⟩
    let n : V3 := ⟨rndV ((e1.y.times e2.z).sub (e1.z.times e2.y)), rndV ((e1.z.times e2.x).sub (e1.x.times e2.z)),
      rndV ((e1.x.times e2.y).sub (e1.y.times e2.x))⟩
    let s := rndV (dot n ⟨p.x.sub a.x, p.y.sub a.y, p.z.sub a.z⟩)
    let out : V3 := if Val.lt (.zero false) s then ⟨n.x.negate, n.y.negate, n.z.negate⟩ else n
    tetFace o d [(x0, f0), (x1, f1), (x2, f2), (x3, f3)] i =
      if s.isZero then none else some (rndV (dot out ⟨a.x.sub o.x, a.y.sub o.y, a.z.sub o.z⟩), rndV (dot out d))) ∧
  (∀ (o d : V3) (t : Nat) (c : Cell) (fs : List (Val × Val)), c.faces o d = some fs →
    let num (i : Nat) : Val := (fs.getD i (.nan, .nan)).1
    let den (i : Nat) : Val := (fs.getD i (.nan, .nan)).2
    let tf (i : Nat) : Val := rndV ((num i).over (den i))
    let cand (i : Nat) : Prop := i < fs.length ∧ Val.lt (.zero false) (den i) = true
    ((∀ i, ¬ cand i) ∨ (∃ i, cand i ∧ tf i = .nan) → c.exit o d t = none) ∧
    ((∃ i, cand i) → (∀ i, cand i → tf i ≠ .nan) → ∃ f tout, c.exit o d t = some (f, tout) ∧ cand f ∧
      (∀ i, cand i → Val.lt (tf i) (tf f) = false ∧ (i < f → Val.lt (tf f) (tf i) = true)) ∧
      tout = if Val.lt (fp t) (tf f) then rnd (tf f) else t)) ∧
  (∀ (o d : V3) (t : Nat) (c : Cell),
    (c.faces o d = none → c.exit o d t = none) ∧
    ∀ px py pz : Val, px = rndV (o.x.plus ((fp t).times d.x)) → py = rndV (o.y.plus ((fp t).times d.y)) →
      pz = rndV (o.z.plus ((fp t).times d.z)) →
      (px.bad = true ∨ py.bad = true ∨ pz.bad = true → c.value o d t = 0x7FC00000) ∧
      (px.bad = false → py.bad = false → pz.bad = false →
        (∀ (x : Nat → V3) (f : Nat → Val) (nb : List Nat), c = .tet [(x 0, f 0), (x 1, f 1), (x 2, f 2), (x 3, f 3)] nb →
          (∀ k < 4, IsNumber (x k).x ∧ IsNumber (x k).y ∧ IsNumber (x k).z) →
          let e (k : Nat) (q : V3 → Val) : ℝ := numberOf (q (x k)) - numberOf (q (x 0))
          let det : ℝ := e 1 V3.x * (e 2 V3.y * e 3 V3.z - e 2 V3.z * e 3 V3.y) - e 1 V3.y * (e 2 V3.x * e 3 V3.z - e 2 V3.z * e 3 V3.x) +
            e 1 V3.z * (e 2 V3.x * e 3 V3.y - e 2 V3.y * e 3 V3.x)
          (det = 0 → c.value o d t = 0x7FC00000) ∧
          (det ≠ 0 → ∀ l : Nat → ℝ, l 0 + l 1 + l 2 + l 3 = 1 →
            (∀ q v, (q, v) ∈ [(V3.x, px), (V3.y, py), (V3.z, pz)] → l 0 * numberOf (q (x 0)) + l 1 * numberOf (q (x 1)) +
              l 2 * numberOf (q (x 2)) + l 3 * numberOf (q (x 3)) = numberOf v) →
            (∀ k < 4, l k ≠ 0 → IsNumber (f k)) →
            let term (k : Nat) : ℝ := if l k = 0 then 0 else l k * numberOf (f k)
            ∃ v, IsNumber v ∧ numberOf v = term 0 + term 1 + term 2 + term 3 ∧ c.value o d t = rnd v)) ∧
        (∀ (v0 : Val) (m g : V3) (planes : List (V3 × Val)) (nb : List Nat), c = .poly v0 m g planes nb → IsNumber v0 →
          IsNumber m.x → IsNumber m.y → IsNumber m.z → IsNumber g.x → IsNumber g.y → IsNumber g.z →
          ∃ v, IsNumber v ∧ numberOf v = numberOf v0 + numberOf g.x * (numberOf px - numberOf m.x) +
            numberOf g.y * (numberOf py - numberOf m.y) + numberOf g.z * (numberOf pz - numberOf m.z) ∧ c.value o d t = rnd v))) ∧
  (∀ (r : Ray) (m : March) (c : Cell), (c.exit r.o r.d r.t = none → r.cross m c = r.stop m.mode 4 2) ∧
    ∀ f tout, c.exit r.o r.d r.t = some (f, tout) →
      let past := Val.le (fp r.tmax) (fp tout)
      let tend := if past then r.tmax else tout
      let vin := c.value r.o r.d r.t
      let vout := c.value r.o r.d tend
      let u := r.cross m c
      u.steps = r.steps + 1 ∧ u.face = f ∧ u.t = tend ∧ u.last = vout ∧
      u.recs = (if m.mode = 0 then r.recs ++ [(r.cell, r.t, tend, vin, vout)] else r.recs) ∧
      (m.mode ≠ 1 → u.acc = r.acc) ∧
      (m.mode = 1 → IsNumber (fp r.acc) → IsNumber (fp tend) → IsNumber (fp r.t) → IsNumber (fp vin) → IsNumber (fp vout) →
        ∃ v, IsNumber v ∧ numberOf v = numberOf (fp r.acc) +
          (numberOf (fp tend) - numberOf (fp r.t)) * (numberOf (fp vin) + numberOf (fp vout)) / 2 ∧ u.acc = rnd v) ∧
      (let val := if m.mode = 1 then u.acc else vout
       let n := c.nb f
       (past = true → u.out = some (0, 0, tend, val) ∧ u.cell = r.cell) ∧
       (past = false → n = 0xFFFFFFFF → u.out = some (1, 0, tend, val) ∧ u.cell = r.cell) ∧
       (past = false → n ≠ 0xFFFFFFFF → m.ccount ≤ n → u.out = some (3, 1, tend, val) ∧ u.cell = r.cell) ∧
       (past = false → n ≠ 0xFFFFFFFF → n < m.ccount → u.out = r.out ∧ u.cell = n)))

/-! ## Statements of several parts -/

/-- R86, R89 to R91: the register–register and the immediate operations. -/
def Obligations.AluAndImmediateResults : Prop := Statement.AluResults ∧ Statement.ImmediateResults

/-- R92, R93: multiplication and division, and the bit operations. -/
def Obligations.MulDivAndBitResults : Prop := Statement.MulDivResults ∧ Statement.BitOpResults

/-- R94, R101, R102: thread identity, branches and calls. -/
def Obligations.IdentityAndBranchResults : Prop := Statement.IdentityResults ∧ Statement.BranchResults

/-- R6, R95, R170, R250: what the store of one part does, and how a number lies in storage.
MODEL'S CHOICE: the statement rests on the dirty STRM bytes of a line, which a store through another page first writes home (entry 13). -/
def Obligations.StorageEffects : Prop := Statement.StorePartEffects ∧ Statement.LittleEndianStorage

/-- R162, R163: the atomics of one register and of a register pair.
MODEL'S CHOICE: the statement rests on when an access is performed and what holds it (entries 11, 12, 20 and 22) and the place of the lease trap (entry 105). -/
def Obligations.AtomicResults : Prop := Statement.AmoResults ∧ Statement.CasPairResult

/-- R168 to R174: the requests of a lease, its grant, its end and its expiry.
MODEL'S CHOICE: the statement rests on which lines a lease may name (entry 21), what holds an access (entry 20), the dirty STRM bytes at a grant (entry 13) and the place of the lease trap (entry 105). -/
def Obligations.LeaseResults : Prop := Statement.LeaseRequests ∧ Statement.LeaseGrant ∧ Statement.LeaseEnd ∧ Statement.LeaseExpiry

/-- R183, R184, R187, R250: CLAIM, FENCE, WFE and WAKE.
MODEL'S CHOICE: the statement rests on when accesses are performed and what holds them (entries 11 to 13, 20 and 105), where a waiting thread keeps its PC (entry 26) and a WAKE to a saved thread (entry 94). -/
def Obligations.ClaimFenceWakeResults : Prop := Statement.ClaimResult ∧ Statement.FenceResult ∧ Statement.WakeResults

/-- R185, R186: arrival and wait at a barrier, and the release of its phase.
MODEL'S CHOICE: the statement rests on the pending arrival and the delays of barriers (entries 23 and 24). -/
def Obligations.BarrierResults : Prop := Statement.BarrierIssue ∧ Statement.BarrierRelease

/-- R180 to R182: the issue of VWAIT and VWAIT.T, and their further passes.
MODEL'S CHOICE: the statement rests on where a waiting thread keeps its PC (entry 26), the place of the check of c.vstart (entry 118) and the tval of a failing element (entry 102). -/
def Obligations.VectorWaitResults : Prop := Statement.VectorWaitIssue ∧ Statement.VectorWaitPasses

/-- R20, R24 to R26, R87, R222: the h registers, and reads and writes of the control registers.
MODEL'S CHOICE: the statement rests on the choice of c.gtime (entry 25), of c.place in a Spring slot (entry 85), the width of c.cause (entry 95) and what a change of c.pool does to scratch (entry 107). -/
def Obligations.SpecialRegisterResults : Prop := Statement.SharedRegisterForms ∧ Statement.ControlRegisterReads ∧ Statement.ControlRegisterWrites

/-- R29, R60, R66, R103, R223 to R230, R407: taking a trap, of a user slot and of a Spring slot, and what traps of itself.
MODEL'S CHOICE: the statement rests on the places of the trap ring and the trap of a Spring slot (entries 33 and 34). -/
def Obligations.TrapResults : Prop := Statement.TrapTaking ∧ Statement.SpringTrap ∧ Statement.TrapInstructions

/-- R21, R226, R244, R249, R250, R254: what the machine performs between instructions: announced accesses in their rank, results, dirty STRM bytes.
MODEL'S CHOICE: the statement rests on when accesses are performed and results land (entries 11 to 13 and 16). -/
def Obligations.AccessesOutOfTurn : Prop := Statement.RankedAccesses ∧ Statement.MachineSteps

/-- R116 to R118, R121, R122: the integer operations and the comparisons.
MODEL'S CHOICE: the statement rests on when a vector instruction executes (entry 18) and which captures c.vl and c.vstart (entry 92). -/
def Obligations.VectorIntegerAndCompareResults : Prop := Statement.VectorIntegerResults ∧ Statement.VectorCompareResults

/-- R236 to R239: CTXSAVE and CTXLOAD, and the layout of a context block.
MODEL'S CHOICE: the statement rests on slot ids, the flags of CTXSAVE, the layout of the remainder and the bits of a block that the spec leaves open (entries 46 and 47), the blocks of halted threads (entry 98), the grants of a launch that is loaded again (entry 99) and the accumulator store of a gang that is loaded (entry 116). -/
def Obligations.ContextResults : Prop := Statement.ContextSave ∧ Statement.ContextLoad ∧ Statement.ContextBlockRoundTrip

/-- R110 to R115, R126 to R128: the movement forms, and the moves of elements, registers and tags.
MODEL'S CHOICE: the statement rests on when a vector instruction executes and its scalar result lands (entries 18 and 19), which captures c.vl and c.vstart (entry 92), the operand of VGRANT (entry 87), the moves of a VF4 group (entry 103), the place of VCFG, VTAG and VGRANT in the queue (entry 111) and the place of the check of c.vstart (entry 118). -/
def Obligations.VectorDataMovement : Prop := Statement.VectorMovementResults ∧ Statement.VectorElementMoves

/-- R32, R133 to R138: vector loads and stores as a whole, and what one element does.
MODEL'S CHOICE: the statement rests on when a vector instruction executes (entry 18), its accesses are performed and held (entries 11 and 20), and on the tval of a failing element (entry 102). -/
def Obligations.VectorLoadStoreResults : Prop := Statement.VectorMemoryResults ∧ Statement.VectorElementEffects

/-- R163, R176 to R179: GLD, SCS and the vector atomics.
MODEL'S CHOICE: the statement rests on when a vector instruction executes (entry 18), its accesses are performed (entries 11 and 22), the place of the lease-attribute check (entry 93) and the tval of a failing element (entry 102). -/
def Obligations.VectorLinkedAndAtomicResults : Prop := Statement.LinkedResults ∧ Statement.VectorAtomicResults

/-- R188 to R193: SAMPLE, and the arithmetic of its filters.
MODEL'S CHOICE: the statement rests on the roundings and the order of checks of SAMPLE (entries 27, 30, 31 and 96) and the tval of a failing element (entry 102). -/
def Obligations.TextureResults : Prop := Statement.SampleResults ∧ Statement.SampleArithmetic

/-- R195 to R201: BOXTEST, TRITEST and PARTITION.
MODEL'S CHOICE: the statement rests on the roundings of BOXTEST and TRITEST, the order of checks, PARTITION and the sign of a zero (entries 27, 28, 30, 91 and 97), the place of the check of c.vstart (entry 118), an empty range of elements (entry 113) and the tval of a failing element (entry 102). -/
def Obligations.TraversalResults : Prop := Statement.RayTestResults ∧ Statement.PartitionResult

/-- R142 to R157: the issue of MMA and MMA.SLIDE, and what one K-step adds to the accumulators.
MODEL'S CHOICE: the statement rests on the order of the checks of MMA, the matrix-drain queue and the sign of a sum that is zero (entries 40 and 41). -/
def Obligations.MatrixResults : Prop := Statement.MatrixIssueResults ∧ Statement.KStepEffect

/-- R140, R141, R149 to R155: the join of a gang and the steps of its operation.
MODEL'S CHOICE: the statement rests on the effects of an MMA operation (entry 40), the join of a held thread (entry 47) and the order of the cases of the gang trap (entry 115). -/
def Obligations.GangResults : Prop := Statement.GangJoinResults ∧ Statement.GangEventResults

/-- R203, R216 to R221: the instructions that fill the engine queues, and those that wait on them.
MODEL'S CHOICE: the statement rests on QFENCE, the flush at an engine instruction, a COLL that fails at its issue (entries 42 and 45), the parts of a MARCH buffer (entry 106) and which registers MARCH captures (entry 92). -/
def Obligations.EngineInstructionResults : Prop := Statement.EngineIssueResults ∧ Statement.EngineWaitResults

/-- R206, R217 to R219, R286, R289, R291, R293, R295 to R297, R358, R409: the engines, and the arithmetic of one step of the cell-march unit.
MODEL'S CHOICE: the statement rests on what a QFENCE holds, and what an engine does with an absent page, with collectives, with MARCH and with a route that is down (entries 42, 43, 45, 50, 100 and 122). -/
def Obligations.EngineEventResults : Prop := Statement.EngineSteps ∧ Statement.CellMarchArithmetic

/-- R313 to R322: what a tile unit does with its queue and its bin, and with memory.
MODEL'S CHOICE: the statement rests on the order of pixels, when a primitive reaches a tile, and write-back (entries 53 to 56) and accesses to a die in reset (entry 124). -/
def Obligations.TileUnitResults : Prop := Statement.TileResults ∧ Statement.TileMemoryResults

/-- R214, R328 to R335: doorbells, packets and their ends.
MODEL'S CHOICE: the statement rests on packets that cannot be read or signalled, and descriptors (entries 61 and 62) and accesses to a die in reset (entry 124). -/
def Obligations.PacketResults : Prop := Statement.QueueResults ∧ Statement.PacketEnds

/-- R279, R365 to R368, R371: sealing and restoring, power, and the mailbox.
MODEL'S CHOICE: the statement rests on sealing, restoring, the root of trust and power (entries 74 to 76 and 79). -/
def Obligations.SealAndMailboxResults : Prop := Statement.SealResults ∧ Statement.MailboxResults

/-- R251, R278, R280, R353 to R360, R370: register writes, and what comes from outside the package.
MODEL'S CHOICE: the statement rests on device registers, errors, links and values that leave the machine (entries 36 to 38, 60, 78, 80, 81, 86 and 101) and accesses to a die in reset (entry 124). -/
def Obligations.DeviceBoundaryResults : Prop := Statement.RegisterWriteResults ∧ Statement.OutsideWorldResults

/-- R23, R281, R283: operands with a pending result, and poisoned ones.
MODEL'S CHOICE: the statement rests on the choice between the old and the new value (entry 15) and the order in which poison is found (entry 32). -/
def Obligations.OperandHazards : Prop := Statement.PendingOperand ∧ Statement.PoisonedOperand

/-- R12, R21, R22, R95, R101: what the scalar instructions, the relaxed stores and the W marker leave unchanged. -/
def Obligations.Frames : Prop := Statement.ScalarFrame ∧ Statement.StoreFrame ∧ Statement.WaitMarkerFrame
end

