-- ==== Sys2Proof/Laws/Memory.lean ====
section
/-! SUPPORT. Tables by number and storage: what a read sees after a write, and the canonical form of storage. -/
namespace Sys2Proof

/-! ## Tables -/

/-- The keys of a table rise. -/
def Tab.Sorted {α : Type} (t : Tab α) : Prop := t.Pairwise (fun a b => a.1 < b.1)

theorem Tab.get?_set {α : Type} (t : Tab α) (k j : Nat) (x : α) :
    Tab.get? (Tab.set t k x) j = if j = k then some x else Tab.get? t j := by
  induction t with
  | nil => simp [Tab.set, Tab.get?, eq_comm]
  | cons e t ih =>
    obtain ⟨i, y⟩ := e
    simp only [Tab.set]
    split
    · simp [Tab.get?, eq_comm]
    · split
      · subst_vars
        by_cases h : j = i <;> simp [Tab.get?, h, eq_comm]
      · simp only [Tab.get?, ih]
        by_cases h : i = j
        · subst h
          simp [show ¬ i = k by omega]
        · simp [h]

theorem Tab.getD_set {α : Type} (t : Tab α) (k j : Nat) (x y : α) :
    Tab.getD (Tab.set t k x) j y = if j = k then x else Tab.getD t j y := by
  simp only [Tab.getD, Tab.get?_set]
  split <;> rfl

theorem Tab.get?_erase {α : Type} (t : Tab α) (k j : Nat) :
    Tab.get? (Tab.erase t k) j = if j = k then none else Tab.get? t j := by
  induction t with
  | nil => simp [Tab.erase, Tab.get?]
  | cons e t ih =>
    obtain ⟨i, y⟩ := e
    simp only [Tab.erase]
    split
    · rw [ih]
      subst_vars
      by_cases h : j = i
      · simp [h]
      · simp [h, Tab.get?, show ¬ i = j from fun e => h e.symm]
    · simp only [Tab.get?, ih]
      by_cases h : i = j
      · subst h
        simp [show ¬ i = k by omega]
      · simp [h]

theorem Tab.set_set {α : Type} (t : Tab α) (k : Nat) (x y : α) : Tab.set (Tab.set t k x) k y = Tab.set t k y := by
  induction t with
  | nil => simp [Tab.set]
  | cons e t ih =>
    obtain ⟨i, z⟩ := e
    simp only [Tab.set]
    split
    · simp [Tab.set]
    · split
      · simp [Tab.set]
      · simp [Tab.set, *]

theorem Tab.mem_set {α : Type} {t : Tab α} {k : Nat} {x : α} {e : Nat × α} (h : e ∈ Tab.set t k x) : e = (k, x) ∨ e ∈ t := by
  induction t with
  | nil => simpa [Tab.set] using h
  | cons f t ih =>
    obtain ⟨i, z⟩ := f
    simp only [Tab.set] at h
    split at h
    · simpa using h
    · split at h
      · simp only [List.mem_cons] at h ⊢
        tauto
      · simp only [List.mem_cons] at h ⊢
        rcases h with h | h
        · tauto
        · have := ih h
          tauto

theorem Tab.mem_erase {α : Type} {t : Tab α} {k : Nat} {e : Nat × α} (h : e ∈ Tab.erase t k) : e ∈ t := by
  induction t with
  | nil => simp [Tab.erase] at h
  | cons f t ih =>
    obtain ⟨i, z⟩ := f
    simp only [Tab.erase] at h
    split at h
    · exact List.mem_cons_of_mem _ (ih h)
    · simp only [List.mem_cons] at h ⊢
      rcases h with h | h
      · exact .inl h
      · exact .inr (ih h)

theorem Tab.Sorted.set {α : Type} {t : Tab α} (h : Tab.Sorted t) (k : Nat) (x : α) : Tab.Sorted (Tab.set t k x) := by
  induction t with
  | nil => simp [Tab.set, Tab.Sorted]
  | cons e t ih =>
    obtain ⟨i, z⟩ := e
    obtain ⟨h1, h2⟩ := List.pairwise_cons.1 h
    simp only [Tab.set]
    split
    · exact List.pairwise_cons.2 ⟨fun f hf => by
        rcases List.mem_cons.1 hf with rfl | hf
        · assumption
        · have := h1 f hf
          show k < f.1
          simp only at this
          omega, h⟩
    · split
      · subst_vars
        exact List.pairwise_cons.2 ⟨h1, h2⟩
      · exact List.pairwise_cons.2 ⟨fun f hf => by
          rcases Tab.mem_set hf with rfl | hf
          · show i < k
            omega
          · exact h1 f hf, ih h2⟩

theorem Tab.Sorted.erase {α : Type} {t : Tab α} (h : Tab.Sorted t) (k : Nat) : Tab.Sorted (Tab.erase t k) := by
  induction t with
  | nil => simp [Tab.erase, Tab.Sorted]
  | cons e t ih =>
    obtain ⟨i, z⟩ := e
    obtain ⟨h1, h2⟩ := List.pairwise_cons.1 h
    simp only [Tab.erase]
    split
    · exact ih h2
    · exact List.pairwise_cons.2 ⟨fun f hf => h1 f (Tab.mem_erase hf), ih h2⟩

end Sys2Proof

namespace Sys2Proof.Machine

/-! ## Storage -/

/-- The canonical form: rising addresses, and no byte of 0. -/
theorem Memory.wf_iff (m : List Host.Cell) : Memory.wf m = true ↔ Tab.Sorted m ∧ ∀ e ∈ m, e.2 ≠ 0 := by
  induction m with
  | nil => simp [Memory.wf, Tab.Sorted]
  | cons e t ih =>
    obtain ⟨a, b⟩ := e
    cases t with
    | nil => simp [Memory.wf, Tab.Sorted]
    | cons f t =>
      obtain ⟨c, d⟩ := f
      simp only [Memory.wf, Bool.and_eq_true, decide_eq_true_eq, ih]
      simp only [Tab.Sorted, List.pairwise_cons, List.mem_cons]
      constructor
      · rintro ⟨⟨hb, hac⟩, ⟨h1, h2⟩, h3⟩
        refine ⟨⟨?_, h1, h2⟩, ?_⟩
        · rintro f (rfl | hf)
          · exact hac
          · exact Nat.lt_trans hac (h1 f hf)
        · rintro f (rfl | hf)
          · exact hb
          · exact h3 f hf
      · rintro ⟨⟨h1, h2, h3⟩, h4⟩
        exact ⟨⟨h4 (a, b) (.inl rfl), h1 (c, d) (.inl rfl)⟩, ⟨h2, h3⟩, fun f hf => h4 f (.inr hf)⟩

theorem memSet_wf {m : List Host.Cell} (h : Memory.wf m = true) (a : Nat) (b : Byte) : Memory.wf (memSet m a b) = true := by
  rw [Memory.wf_iff] at h ⊢
  unfold memSet
  split
  · exact ⟨h.1.erase a, fun e he => h.2 e (Tab.mem_erase he)⟩
  · refine ⟨h.1.set a b, fun e he => ?_⟩
    rcases Tab.mem_set he with rfl | he
    · assumption
    · exact h.2 e he

theorem memPut_wf {m : List Host.Cell} (h : Memory.wf m = true) (a n v : Nat) : Memory.wf (memPut m a n v) = true := by
  induction n generalizing m a v with
  | zero => exact h
  | succ n ih => exact ih (memSet_wf h _ _) _ _

theorem memFilter_wf {m : List Host.Cell} (h : Memory.wf m = true) (p : Host.Cell → Bool) : Memory.wf (m.filter p) = true := by
  rw [Memory.wf_iff] at h ⊢
  exact ⟨h.1.filter p, fun e he => h.2 e (List.mem_filter.1 he).1⟩

theorem memByte_memSet (m : List Host.Cell) (a x : Nat) (b : Byte) :
    memByte (memSet m a b) x = if x = a then b else memByte m x := by
  unfold memByte memSet
  split
  · simp only [Tab.getD, Tab.get?_erase]
    split <;> simp_all
  · exact Tab.getD_set m a x b 0

theorem memByte_memPut (m : List Host.Cell) (a n v x : Nat) :
    memByte (memPut m a n v) x = if a ≤ x ∧ x < a + n then BitVec.ofNat 8 (v / 256 ^ (x - a)) else memByte m x := by
  induction n generalizing m a v with
  | zero => simp [memPut, show ¬ (a ≤ x ∧ x < a) by omega]
  | succ n ih =>
    simp only [memPut, ih, memByte_memSet]
    by_cases h1 : x = a
    · subst h1
      simp
    · by_cases h2 : a + 1 ≤ x ∧ x < a + 1 + n
      · rw [if_pos h2, if_pos (by omega), Nat.div_div_eq_div_mul,
          show 256 * 256 ^ (x - (a + 1)) = 256 ^ (x - a) by rw [← Nat.pow_succ']; congr 1; omega]
      · rw [if_neg h2, if_neg h1, if_neg (by omega)]

theorem memByte_memPut_outside (m : List Host.Cell) (a n v x : Nat) (h : x < a ∨ a + n ≤ x) :
    memByte (memPut m a n v) x = memByte m x := by
  rw [memByte_memPut, if_neg (by omega)]

/-- A number is the sum of the bytes read from it. -/
theorem memNat_of_bytes (m : List Host.Cell) (a n v : Nat)
    (h : ∀ j < n, memByte m (a + j) = BitVec.ofNat 8 (v / 256 ^ j)) : memNat m a n = v % 2 ^ (8 * n) := by
  induction n generalizing a v with
  | zero => simp [memNat, Nat.mod_one]
  | succ n ih =>
    have h0 := h 0 (by omega)
    simp only [Nat.add_zero, Nat.pow_zero, Nat.div_one] at h0
    have := ih (a + 1) (v / 256) (fun j hj => by
      have := h (j + 1) (by omega)
      rw [show a + 1 + j = a + (j + 1) by omega, this, Nat.div_div_eq_div_mul, Nat.pow_succ'])
    rw [memNat, h0, this, BitVec.toNat_ofNat, show 8 * (n + 1) = 8 + 8 * n by omega, Nat.pow_add, Nat.mod_mul]

theorem memNat_memPut (m : List Host.Cell) (a n v : Nat) : memNat (memPut m a n v) a n = v % 2 ^ (8 * n) :=
  memNat_of_bytes _ _ _ _ (fun j hj => by
    rw [memByte_memPut, if_pos (by omega), show a + j - a = j by omega])

end Sys2Proof.Machine
end

