-- ==== Sys2Proof/Laws/Scalar.lean ====
section
/-! SUPPORT. The issue of a scalar instruction: the W marker, the reading of operands, and the operand forms. -/
namespace Sys2Proof.Machine

theorem waitW_ok {s : State} {w : Bool} (h : w = true → (s.afterW w).thr.pend = []) : waitW w s = .ok (s.afterW w) := by
  cases w <;> simp_all [waitW, State.afterW]

theorem readG_ok {s : State} {r : Nat} (h : s.readable r) : readG s r = .ok (s.thr.getG r, s) := by
  rcases h with h | ⟨h1, h2⟩
  · simp [readG, h, Thread.getG]
  · by_cases hr : r = 0
    · simp [readG, hr, Thread.getG]
    · simp_all [readG, readChoice, Thread.chosenBad, bind, Except.bind]

theorem State.Ready.waitW {s : State} {w : Bool} {rs : List Nat} (h : s.Ready w rs) :
    Machine.waitW w s = .ok (s.afterW w) := waitW_ok h.1

theorem State.Ready.read {s : State} {w : Bool} {rs : List Nat} (h : s.Ready w rs) (r : Nat) (hr : r ∈ rs) :
    readG (s.afterW w) r = .ok ((s.afterW w).thr.getG r, s.afterW w) := readG_ok (h.2 r hr)

theorem scalarRR_ok {s : State} {w : Bool} {d a b : BitVec 5} (f : Word → Word → Word) (h : s.Ready w [a.toNat, b.toNat]) :
    scalarRR w d a b f s =
      .ok (((s.afterW w).setG d.toNat (f ((s.afterW w).thr.getG a.toNat) ((s.afterW w).thr.getG b.toNat))).advance 4) := by
  simp [scalarRR, h.waitW, h.read a.toNat (by simp), h.read b.toNat (by simp), bind, Except.bind]

theorem scalarR_ok {s : State} {w : Bool} {d a : BitVec 5} (n : Nat) (f : Word → Word) (h : s.Ready w [a.toNat]) :
    scalarR w d a n f s = .ok (((s.afterW w).setG d.toNat (f ((s.afterW w).thr.getG a.toNat))).advance n) := by
  simp [scalarR, h.waitW, h.read a.toNat (by simp), bind, Except.bind]

theorem scalarC_ok {s : State} {w : Bool} {d : BitVec 5} (n : Nat) (f : State → Word) (h : s.Ready w []) :
    scalarC w d n f s = .ok (((s.afterW w).setG d.toNat (f (s.afterW w))).advance n) := by
  simp [scalarC, h.waitW, bind, Except.bind]

theorem branch_ok {s : State} {w : Bool} {o : BitVec 15} {a b : BitVec 5} (m : Nat) (h : s.Ready w [a.toNat, b.toNat]) :
    branch m w o a b s = .ok ((s.afterW w).putThr { (s.afterW w).thr with
      pc := if branchTaken m ((s.afterW w).thr.getG a.toNat) ((s.afterW w).thr.getG b.toNat)
        then (s.afterW w).thr.pc + 4 * o.signExtend 64 else (s.afterW w).thr.pc + 4 }) := by
  simp [branch, h.waitW, h.read a.toNat (by simp), h.read b.toNat (by simp), bind, Except.bind]

end Sys2Proof.Machine
end

