-- ==== Sys2Proof/Laws/Access.lean ====
section
/-! SUPPORT. Accesses to storage: what an admitted load, store or atomic does. -/
namespace Sys2Proof.Machine

theorem noteWrite_debug (t : Thread) (own : Bool) (ls : List Nat) : (t.noteWrite own ls).dbg = t.dbg := by
  unfold Thread.noteWrite
  cases own <;> simp only [Bool.false_eq_true, if_false, if_true] <;> split <;> (try split) <;> rfl

theorem Tab.getD_map {α : Type} (t : Tab α) (k : Nat) (f : Nat → α → α) (d : α) (h : f k d = d) :
    Tab.getD (t.map (fun e => (e.1, f e.1 e.2))) k d = f k (Tab.getD t k d) := by
  induction t with
  | nil => simp [Tab.getD, Tab.get?, h]
  | cons e t ih =>
    obtain ⟨i, x⟩ := e
    simp only [List.map_cons, Tab.getD, Tab.get?]
    by_cases hk : i = k
    · simp [hk]
    · simpa [hk, Tab.getD] using ih

theorem empty_noteWrite (own : Bool) (ls : List Nat) : Thread.empty.noteWrite own ls = Thread.empty := by
  cases own <;> rfl

theorem thread_noteWrite (s : State) (who : Option Nat) (ls : List Nat) (k : Nat) :
    (s.noteWrite who ls).thread k = (s.thread k).noteWrite (who == some k) ls := by
  simp only [State.thread, State.noteWrite]
  exact Tab.getD_map s.threads k (fun k t => t.noteWrite (who == some k) ls) _ (empty_noteWrite _ _)

theorem thread_write (s : State) (who : Option Nat) (a n v k : Nat) :
    (s.write who a n v).thread k = if n = 0 then s.thread k else (s.thread k).noteWrite (who == some k) (linesOf a n) := by
  unfold State.write
  split
  · rfl
  · exact thread_noteWrite s who _ k

/-- What a write of the dirty STRM bytes leaves alone. -/
theorem flush_debug (s : State) (c : Nat) (p : Nat → Bool) (k : Nat) :
    ((s.flushStrm c p).thread k).dbg = (s.thread k).dbg ∧ (s.flushStrm c p).strong = s.strong ∧
      (s.flushStrm c p).clk = s.clk ∧ (s.flushStrm c p).cur = s.cur ∧ (s.flushStrm c p).scq = s.scq ∧
      (s.flushStrm c p).uid = s.uid := by
  unfold State.flushStrm
  simp only
  split
  · simp
  · have key : ∀ (l : List (Nat × Byte)) (u : State),
        ((l.foldl (fun s e => s.write none e.1 1 e.2.toNat) u).thread k).dbg = (u.thread k).dbg ∧
          (l.foldl (fun s e => s.write none e.1 1 e.2.toNat) u).strong = u.strong ∧
          (l.foldl (fun s e => s.write none e.1 1 e.2.toNat) u).clk = u.clk ∧
          (l.foldl (fun s e => s.write none e.1 1 e.2.toNat) u).cur = u.cur ∧
          (l.foldl (fun s e => s.write none e.1 1 e.2.toNat) u).scq = u.scq ∧
          (l.foldl (fun s e => s.write none e.1 1 e.2.toNat) u).uid = u.uid := by
      intro l
      induction l with
      | nil => simp
      | cons e l ih =>
        intro u
        simp only [List.foldl_cons]
        obtain ⟨h1, h2, h3, h4, h5, h6⟩ := ih (u.write none e.1 1 e.2.toNat)
        refine ⟨h1.trans ?_, h2, h3, h4, h5, h6⟩
        rw [thread_write]
        simp [noteWrite_debug]
    exact key _ _

theorem before_keeps (s : State) (o : Order) (k : Nat) :
    ((s.before o).thread k).dbg = (s.thread k).dbg ∧ (s.before o).strong = s.strong ∧
      (s.before o).clk = s.clk ∧ (s.before o).cur = s.cur ∧ (s.before o).scq = s.scq ∧ (s.before o).uid = s.uid := by
  unfold State.before State.release
  split
  · split
    · exact flush_debug s _ _ k
    · simp
  · simp

theorem readGData_ok {s : State} {r : Nat} (h : s.unpending r) :
    readGData s r = .ok (s.thr.getG r, decide (r ≠ 0 ∧ r ∈ s.thr.poison), s) := by
  rcases h with h | h
  · simp [readGData, h, Thread.getG]
  · by_cases hr : r = 0
    · simp [readGData, hr, Thread.getG]
    · simp [readGData, readChoice, Thread.chosenBad, hr, h, bind, Except.bind]

theorem poison_noteWrite (s : State) (who : Option Nat) (ls : List Nat) : (s.noteWrite who ls).mem = s.mem := rfl

theorem mem_write (s : State) (who : Option Nat) (a n v : Nat) : (s.write who a n v).mem = memPut s.mem a n v := by
  unfold State.write
  split
  · subst_vars
    rfl
  · rfl

theorem cores_write (s : State) (who : Option Nat) (a n v : Nat) : (s.write who a n v).cores = s.cores := by
  unfold State.write
  split <;> rfl

theorem getD_bufPut (b : Tab Byte) (a n v x : Nat) (d : Byte) :
    (bufPut b a n v).getD x d = if a ≤ x ∧ x < a + n then BitVec.ofNat 8 (v / 256 ^ (x - a)) else b.getD x d := by
  induction n generalizing b a v with
  | zero => simp [bufPut, show ¬ (a ≤ x ∧ x < a) by omega]
  | succ n ih =>
    simp only [bufPut, ih, Tab.getD_set]
    by_cases h1 : x = a
    · subst h1
      simp
    · by_cases h2 : a + 1 ≤ x ∧ x < a + 1 + n
      · rw [if_pos h2, if_pos (by omega), Nat.div_div_eq_div_mul,
          show 256 * 256 ^ (x - (a + 1)) = 256 ^ (x - a) by rw [← Nat.pow_succ']; congr 1; omega]
      · rw [if_neg h2, if_neg h1, if_neg (by omega)]

end Sys2Proof.Machine
end

