-- ==== Sys2Proof/Laws/Bits.lean ====
section
/-! SUPPORT. Bit fields: cutting and joining. -/
namespace Sys2Proof.Laws.Bits
open Sys2Proof

@[simp] theorem hi15_lo10 (i : BitVec 15) : hi15 i ++ lo10 i = i := by
  unfold hi15 lo10
  rw [BitVec.extractLsb'_append_extractLsb'_eq_extractLsb' (by omega)]; simp

@[simp] theorem hi20_mid20_lo10 (i : BitVec 20) : hi20 i ++ mid20 i ++ lo10 i = i := by
  unfold hi20 mid20 lo10
  rw [BitVec.extractLsb'_append_extractLsb'_eq_extractLsb' (by omega)]
  rw [BitVec.extractLsb'_append_extractLsb'_eq_extractLsb' (by omega)]; simp

@[simp] theorem hi12_lo10 (i : BitVec 12) : hi12 i ++ lo10 i = i := by
  unfold hi12 lo10
  rw [BitVec.extractLsb'_append_extractLsb'_eq_extractLsb' (by omega)]; simp

@[simp] theorem join11 (i : BitVec 11) : i.extractLsb' 6 5 ++ i.extractLsb' 0 6 = i := by
  rw [BitVec.extractLsb'_append_extractLsb'_eq_extractLsb' (by omega)]; simp

end Sys2Proof.Laws.Bits
end

