-- ==== Sys2Proof/Laws/Cuts.lean ====
section
/-! SUPPORT. Cutting a field out of two joined ones, at the widths that the encoding joins. -/
namespace Sys2Proof.Laws.Bits

@[simp] theorem lo_2_3 (x : BitVec 2) (y : BitVec 3) (s l : Nat) (h : s + l ≤ 3) :
    BitVec.extractLsb' (n := 5) s l (x ++ y) = y.extractLsb' s l := BitVec.extractLsb'_append_eq_of_add_le h

@[simp] theorem hi_2_3 (x : BitVec 2) (y : BitVec 3) (s l : Nat) (h : 3 ≤ s) :
    BitVec.extractLsb' (n := 5) s l (x ++ y) = x.extractLsb' (s - 3) l := BitVec.extractLsb'_append_eq_of_le h

@[simp] theorem lo_3_2 (x : BitVec 3) (y : BitVec 2) (s l : Nat) (h : s + l ≤ 2) :
    BitVec.extractLsb' (n := 5) s l (x ++ y) = y.extractLsb' s l := BitVec.extractLsb'_append_eq_of_add_le h

@[simp] theorem hi_3_2 (x : BitVec 3) (y : BitVec 2) (s l : Nat) (h : 2 ≤ s) :
    BitVec.extractLsb' (n := 5) s l (x ++ y) = x.extractLsb' (s - 2) l := BitVec.extractLsb'_append_eq_of_le h

@[simp] theorem lo_4_1 (x : BitVec 4) (y : BitVec 1) (s l : Nat) (h : s + l ≤ 1) :
    BitVec.extractLsb' (n := 5) s l (x ++ y) = y.extractLsb' s l := BitVec.extractLsb'_append_eq_of_add_le h

@[simp] theorem hi_4_1 (x : BitVec 4) (y : BitVec 1) (s l : Nat) (h : 1 ≤ s) :
    BitVec.extractLsb' (n := 5) s l (x ++ y) = x.extractLsb' (s - 1) l := BitVec.extractLsb'_append_eq_of_le h

@[simp] theorem lo_1_4 (x : BitVec 1) (y : BitVec 4) (s l : Nat) (h : s + l ≤ 4) :
    BitVec.extractLsb' (n := 5) s l (x ++ y) = y.extractLsb' s l := BitVec.extractLsb'_append_eq_of_add_le h

@[simp] theorem hi_1_4 (x : BitVec 1) (y : BitVec 4) (s l : Nat) (h : 4 ≤ s) :
    BitVec.extractLsb' (n := 5) s l (x ++ y) = x.extractLsb' (s - 4) l := BitVec.extractLsb'_append_eq_of_le h

@[simp] theorem lo_3_1 (x : BitVec 3) (y : BitVec 1) (s l : Nat) (h : s + l ≤ 1) :
    BitVec.extractLsb' (n := 4) s l (x ++ y) = y.extractLsb' s l := BitVec.extractLsb'_append_eq_of_add_le h

@[simp] theorem hi_3_1 (x : BitVec 3) (y : BitVec 1) (s l : Nat) (h : 1 ≤ s) :
    BitVec.extractLsb' (n := 4) s l (x ++ y) = x.extractLsb' (s - 1) l := BitVec.extractLsb'_append_eq_of_le h

@[simp] theorem lo_1_3 (x : BitVec 1) (y : BitVec 3) (s l : Nat) (h : s + l ≤ 3) :
    BitVec.extractLsb' (n := 4) s l (x ++ y) = y.extractLsb' s l := BitVec.extractLsb'_append_eq_of_add_le h

@[simp] theorem hi_1_3 (x : BitVec 1) (y : BitVec 3) (s l : Nat) (h : 3 ≤ s) :
    BitVec.extractLsb' (n := 4) s l (x ++ y) = x.extractLsb' (s - 3) l := BitVec.extractLsb'_append_eq_of_le h

@[simp] theorem lo_3_3 (x : BitVec 3) (y : BitVec 3) (s l : Nat) (h : s + l ≤ 3) :
    BitVec.extractLsb' (n := 6) s l (x ++ y) = y.extractLsb' s l := BitVec.extractLsb'_append_eq_of_add_le h

@[simp] theorem hi_3_3 (x : BitVec 3) (y : BitVec 3) (s l : Nat) (h : 3 ≤ s) :
    BitVec.extractLsb' (n := 6) s l (x ++ y) = x.extractLsb' (s - 3) l := BitVec.extractLsb'_append_eq_of_le h

@[simp] theorem lo_3_4 (x : BitVec 3) (y : BitVec 4) (s l : Nat) (h : s + l ≤ 4) :
    BitVec.extractLsb' (n := 7) s l (x ++ y) = y.extractLsb' s l := BitVec.extractLsb'_append_eq_of_add_le h

@[simp] theorem hi_3_4 (x : BitVec 3) (y : BitVec 4) (s l : Nat) (h : 4 ≤ s) :
    BitVec.extractLsb' (n := 7) s l (x ++ y) = x.extractLsb' (s - 4) l := BitVec.extractLsb'_append_eq_of_le h

@[simp] theorem lo_4_3 (x : BitVec 4) (y : BitVec 3) (s l : Nat) (h : s + l ≤ 3) :
    BitVec.extractLsb' (n := 7) s l (x ++ y) = y.extractLsb' s l := BitVec.extractLsb'_append_eq_of_add_le h

@[simp] theorem hi_4_3 (x : BitVec 4) (y : BitVec 3) (s l : Nat) (h : 3 ≤ s) :
    BitVec.extractLsb' (n := 7) s l (x ++ y) = x.extractLsb' (s - 3) l := BitVec.extractLsb'_append_eq_of_le h

@[simp] theorem lo_2_8 (x : BitVec 2) (y : BitVec 8) (s l : Nat) (h : s + l ≤ 8) :
    BitVec.extractLsb' (n := 10) s l (x ++ y) = y.extractLsb' s l := BitVec.extractLsb'_append_eq_of_add_le h

@[simp] theorem hi_2_8 (x : BitVec 2) (y : BitVec 8) (s l : Nat) (h : 8 ≤ s) :
    BitVec.extractLsb' (n := 10) s l (x ++ y) = x.extractLsb' (s - 8) l := BitVec.extractLsb'_append_eq_of_le h

@[simp] theorem lo_4_6 (x : BitVec 4) (y : BitVec 6) (s l : Nat) (h : s + l ≤ 6) :
    BitVec.extractLsb' (n := 10) s l (x ++ y) = y.extractLsb' s l := BitVec.extractLsb'_append_eq_of_add_le h

@[simp] theorem hi_4_6 (x : BitVec 4) (y : BitVec 6) (s l : Nat) (h : 6 ≤ s) :
    BitVec.extractLsb' (n := 10) s l (x ++ y) = x.extractLsb' (s - 6) l := BitVec.extractLsb'_append_eq_of_le h

@[simp] theorem lo_5_5 (x : BitVec 5) (y : BitVec 5) (s l : Nat) (h : s + l ≤ 5) :
    BitVec.extractLsb' (n := 10) s l (x ++ y) = y.extractLsb' s l := BitVec.extractLsb'_append_eq_of_add_le h

@[simp] theorem hi_5_5 (x : BitVec 5) (y : BitVec 5) (s l : Nat) (h : 5 ≤ s) :
    BitVec.extractLsb' (n := 10) s l (x ++ y) = x.extractLsb' (s - 5) l := BitVec.extractLsb'_append_eq_of_le h

@[simp] theorem lo_6_4 (x : BitVec 6) (y : BitVec 4) (s l : Nat) (h : s + l ≤ 4) :
    BitVec.extractLsb' (n := 10) s l (x ++ y) = y.extractLsb' s l := BitVec.extractLsb'_append_eq_of_add_le h

@[simp] theorem hi_6_4 (x : BitVec 6) (y : BitVec 4) (s l : Nat) (h : 4 ≤ s) :
    BitVec.extractLsb' (n := 10) s l (x ++ y) = x.extractLsb' (s - 4) l := BitVec.extractLsb'_append_eq_of_le h

@[simp] theorem lo_7_3 (x : BitVec 7) (y : BitVec 3) (s l : Nat) (h : s + l ≤ 3) :
    BitVec.extractLsb' (n := 10) s l (x ++ y) = y.extractLsb' s l := BitVec.extractLsb'_append_eq_of_add_le h

@[simp] theorem hi_7_3 (x : BitVec 7) (y : BitVec 3) (s l : Nat) (h : 3 ≤ s) :
    BitVec.extractLsb' (n := 10) s l (x ++ y) = x.extractLsb' (s - 3) l := BitVec.extractLsb'_append_eq_of_le h

@[simp] theorem lo_3_7 (x : BitVec 3) (y : BitVec 7) (s l : Nat) (h : s + l ≤ 7) :
    BitVec.extractLsb' (n := 10) s l (x ++ y) = y.extractLsb' s l := BitVec.extractLsb'_append_eq_of_add_le h

@[simp] theorem hi_3_7 (x : BitVec 3) (y : BitVec 7) (s l : Nat) (h : 7 ≤ s) :
    BitVec.extractLsb' (n := 10) s l (x ++ y) = x.extractLsb' (s - 7) l := BitVec.extractLsb'_append_eq_of_le h

@[simp] theorem lo_4_4 (x : BitVec 4) (y : BitVec 4) (s l : Nat) (h : s + l ≤ 4) :
    BitVec.extractLsb' (n := 8) s l (x ++ y) = y.extractLsb' s l := BitVec.extractLsb'_append_eq_of_add_le h

@[simp] theorem hi_4_4 (x : BitVec 4) (y : BitVec 4) (s l : Nat) (h : 4 ≤ s) :
    BitVec.extractLsb' (n := 8) s l (x ++ y) = x.extractLsb' (s - 4) l := BitVec.extractLsb'_append_eq_of_le h

@[simp] theorem lo_5_10 (x : BitVec 5) (y : BitVec 10) (s l : Nat) (h : s + l ≤ 10) :
    BitVec.extractLsb' (n := 15) s l (x ++ y) = y.extractLsb' s l := BitVec.extractLsb'_append_eq_of_add_le h

@[simp] theorem hi_5_10 (x : BitVec 5) (y : BitVec 10) (s l : Nat) (h : 10 ≤ s) :
    BitVec.extractLsb' (n := 15) s l (x ++ y) = x.extractLsb' (s - 10) l := BitVec.extractLsb'_append_eq_of_le h

@[simp] theorem lo_8_2 (x : BitVec 8) (y : BitVec 2) (s l : Nat) (h : s + l ≤ 2) :
    BitVec.extractLsb' (n := 10) s l (x ++ y) = y.extractLsb' s l := BitVec.extractLsb'_append_eq_of_add_le h

@[simp] theorem hi_8_2 (x : BitVec 8) (y : BitVec 2) (s l : Nat) (h : 2 ≤ s) :
    BitVec.extractLsb' (n := 10) s l (x ++ y) = x.extractLsb' (s - 2) l := BitVec.extractLsb'_append_eq_of_le h

@[simp] theorem lo_9_1 (x : BitVec 9) (y : BitVec 1) (s l : Nat) (h : s + l ≤ 1) :
    BitVec.extractLsb' (n := 10) s l (x ++ y) = y.extractLsb' s l := BitVec.extractLsb'_append_eq_of_add_le h

@[simp] theorem hi_9_1 (x : BitVec 9) (y : BitVec 1) (s l : Nat) (h : 1 ≤ s) :
    BitVec.extractLsb' (n := 10) s l (x ++ y) = x.extractLsb' (s - 1) l := BitVec.extractLsb'_append_eq_of_le h

@[simp] theorem lo_2_1 (x : BitVec 2) (y : BitVec 1) (s l : Nat) (h : s + l ≤ 1) :
    BitVec.extractLsb' (n := 3) s l (x ++ y) = y.extractLsb' s l := BitVec.extractLsb'_append_eq_of_add_le h

@[simp] theorem hi_2_1 (x : BitVec 2) (y : BitVec 1) (s l : Nat) (h : 1 ≤ s) :
    BitVec.extractLsb' (n := 3) s l (x ++ y) = x.extractLsb' (s - 1) l := BitVec.extractLsb'_append_eq_of_le h

@[simp] theorem lo_1_1 (x : BitVec 1) (y : BitVec 1) (s l : Nat) (h : s + l ≤ 1) :
    BitVec.extractLsb' (n := 2) s l (x ++ y) = y.extractLsb' s l := BitVec.extractLsb'_append_eq_of_add_le h

@[simp] theorem hi_1_1 (x : BitVec 1) (y : BitVec 1) (s l : Nat) (h : 1 ≤ s) :
    BitVec.extractLsb' (n := 2) s l (x ++ y) = x.extractLsb' (s - 1) l := BitVec.extractLsb'_append_eq_of_le h

@[simp] theorem lo_1_2 (x : BitVec 1) (y : BitVec 2) (s l : Nat) (h : s + l ≤ 2) :
    BitVec.extractLsb' (n := 3) s l (x ++ y) = y.extractLsb' s l := BitVec.extractLsb'_append_eq_of_add_le h

@[simp] theorem hi_1_2 (x : BitVec 1) (y : BitVec 2) (s l : Nat) (h : 2 ≤ s) :
    BitVec.extractLsb' (n := 3) s l (x ++ y) = x.extractLsb' (s - 2) l := BitVec.extractLsb'_append_eq_of_le h

@[simp] theorem lo_2_2 (x : BitVec 2) (y : BitVec 2) (s l : Nat) (h : s + l ≤ 2) :
    BitVec.extractLsb' (n := 4) s l (x ++ y) = y.extractLsb' s l := BitVec.extractLsb'_append_eq_of_add_le h

@[simp] theorem hi_2_2 (x : BitVec 2) (y : BitVec 2) (s l : Nat) (h : 2 ≤ s) :
    BitVec.extractLsb' (n := 4) s l (x ++ y) = x.extractLsb' (s - 2) l := BitVec.extractLsb'_append_eq_of_le h

@[simp] theorem lo_5_27 (x : BitVec 5) (y : BitVec 27) (s l : Nat) (h : s + l ≤ 27) :
    BitVec.extractLsb' (n := 32) s l (x ++ y) = y.extractLsb' s l := BitVec.extractLsb'_append_eq_of_add_le h

@[simp] theorem hi_5_27 (x : BitVec 5) (y : BitVec 27) (s l : Nat) (h : 27 ≤ s) :
    BitVec.extractLsb' (n := 32) s l (x ++ y) = x.extractLsb' (s - 27) l := BitVec.extractLsb'_append_eq_of_le h

end Sys2Proof.Laws.Bits
end

