-- ==== Sys2Proof/Laws/Dispatch.lean ====
section
/-! SUPPORT. The dispatch, one equation for each constructor. -/
namespace Sys2Proof.Machine

@[simp] theorem exec_add (w : Bool) (d a b : BitVec 5) (s : State) : exec (.add w d a b) s = execAdd w d a b s := rfl
@[simp] theorem exec_sub (w : Bool) (d a b : BitVec 5) (s : State) : exec (.sub w d a b) s = execSub w d a b s := rfl
@[simp] theorem exec_and (w : Bool) (d a b : BitVec 5) (s : State) : exec (.and w d a b) s = execAnd w d a b s := rfl
@[simp] theorem exec_or (w : Bool) (d a b : BitVec 5) (s : State) : exec (.or w d a b) s = execOr w d a b s := rfl
@[simp] theorem exec_xor (w : Bool) (d a b : BitVec 5) (s : State) : exec (.xor w d a b) s = execXor w d a b s := rfl
@[simp] theorem exec_sll (w : Bool) (d a b : BitVec 5) (s : State) : exec (.sll w d a b) s = execSll w d a b s := rfl
@[simp] theorem exec_srl (w : Bool) (d a b : BitVec 5) (s : State) : exec (.srl w d a b) s = execSrl w d a b s := rfl
@[simp] theorem exec_sra (w : Bool) (d a b : BitVec 5) (s : State) : exec (.sra w d a b) s = execSra w d a b s := rfl
@[simp] theorem exec_slt (w : Bool) (d a b : BitVec 5) (s : State) : exec (.slt w d a b) s = execSlt w d a b s := rfl
@[simp] theorem exec_sltn (w : Bool) (d a b : BitVec 5) (s : State) : exec (.sltn w d a b) s = execSltn w d a b s := rfl
@[simp] theorem exec_min (w : Bool) (d a b : BitVec 5) (s : State) : exec (.min w d a b) s = execMin w d a b s := rfl
@[simp] theorem exec_max (w : Bool) (d a b : BitVec 5) (s : State) : exec (.max w d a b) s = execMax w d a b s := rfl
@[simp] theorem exec_minn (w : Bool) (d a b : BitVec 5) (s : State) : exec (.minn w d a b) s = execMinn w d a b s := rfl
@[simp] theorem exec_maxn (w : Bool) (d a b : BitVec 5) (s : State) : exec (.maxn w d a b) s = execMaxn w d a b s := rfl
@[simp] theorem exec_addw (w : Bool) (d a b : BitVec 5) (s : State) : exec (.addw w d a b) s = execAddw w d a b s := rfl
@[simp] theorem exec_subw (w : Bool) (d a b : BitVec 5) (s : State) : exec (.subw w d a b) s = execSubw w d a b s := rfl
@[simp] theorem exec_sllw (w : Bool) (d a b : BitVec 5) (s : State) : exec (.sllw w d a b) s = execSllw w d a b s := rfl
@[simp] theorem exec_srlw (w : Bool) (d a b : BitVec 5) (s : State) : exec (.srlw w d a b) s = execSrlw w d a b s := rfl
@[simp] theorem exec_sraw (w : Bool) (d a b : BitVec 5) (s : State) : exec (.sraw w d a b) s = execSraw w d a b s := rfl
@[simp] theorem exec_aluH (w : Bool) (d a b : BitVec 5) (p : BitVec 8) (s : State) : exec (.aluH w d a b p) s = execAluH w d a b p s := rfl
@[simp] theorem exec_addiH (w : Bool) (d a : BitVec 5) (im : BitVec 11) (s : State) : exec (.addiH w d a im) s = execAddiH w d a im s := rfl
@[simp] theorem exec_andiH (w : Bool) (d a : BitVec 5) (im : BitVec 11) (s : State) : exec (.andiH w d a im) s = execAndiH w d a im s := rfl
@[simp] theorem exec_oriH (w : Bool) (d a : BitVec 5) (im : BitVec 11) (s : State) : exec (.oriH w d a im) s = execOriH w d a im s := rfl
@[simp] theorem exec_xoriH (w : Bool) (d a : BitVec 5) (im : BitVec 11) (s : State) : exec (.xoriH w d a im) s = execXoriH w d a im s := rfl
@[simp] theorem exec_addi (w : Bool) (d a : BitVec 5) (im : BitVec 15) (s : State) : exec (.addi w d a im) s = execAddi w d a im s := rfl
@[simp] theorem exec_andi (w : Bool) (d a : BitVec 5) (im : BitVec 15) (s : State) : exec (.andi w d a im) s = execAndi w d a im s := rfl
@[simp] theorem exec_ori (w : Bool) (d a : BitVec 5) (im : BitVec 15) (s : State) : exec (.ori w d a im) s = execOri w d a im s := rfl
@[simp] theorem exec_xori (w : Bool) (d a : BitVec 5) (im : BitVec 15) (s : State) : exec (.xori w d a im) s = execXori w d a im s := rfl
@[simp] theorem exec_slti (w : Bool) (d a : BitVec 5) (im : BitVec 15) (s : State) : exec (.slti w d a im) s = execSlti w d a im s := rfl
@[simp] theorem exec_sltni (w : Bool) (d a : BitVec 5) (im : BitVec 15) (s : State) : exec (.sltni w d a im) s = execSltni w d a im s := rfl
@[simp] theorem exec_addiL (w : Bool) (d a : BitVec 5) (im : BitVec 32) (s : State) : exec (.addiL w d a im) s = execAddiL w d a im s := rfl
@[simp] theorem exec_slli (w : Bool) (d a : BitVec 5) (sz : BitVec 6) (s : State) : exec (.slli w d a sz) s = execSlli w d a sz s := rfl
@[simp] theorem exec_srli (w : Bool) (d a : BitVec 5) (sz : BitVec 6) (s : State) : exec (.srli w d a sz) s = execSrli w d a sz s := rfl
@[simp] theorem exec_srai (w : Bool) (d a : BitVec 5) (sz : BitVec 6) (s : State) : exec (.srai w d a sz) s = execSrai w d a sz s := rfl
@[simp] theorem exec_slliw (w : Bool) (d a sz : BitVec 5) (s : State) : exec (.slliw w d a sz) s = execSlliw w d a sz s := rfl
@[simp] theorem exec_srliw (w : Bool) (d a sz : BitVec 5) (s : State) : exec (.srliw w d a sz) s = execSrliw w d a sz s := rfl
@[simp] theorem exec_sraiw (w : Bool) (d a sz : BitVec 5) (s : State) : exec (.sraiw w d a sz) s = execSraiw w d a sz s := rfl
@[simp] theorem exec_rori (w : Bool) (d a : BitVec 5) (sz : BitVec 6) (s : State) : exec (.rori w d a sz) s = execRori w d a sz s := rfl
@[simp] theorem exec_lui (w : Bool) (d : BitVec 5) (im : BitVec 20) (s : State) : exec (.lui w d im) s = execLui w d im s := rfl
@[simp] theorem exec_addpc (w : Bool) (d : BitVec 5) (im : BitVec 20) (s : State) : exec (.addpc w d im) s = execAddpc w d im s := rfl
@[simp] theorem exec_addpcL (w : Bool) (d : BitVec 5) (im : BitVec 32) (s : State) : exec (.addpcL w d im) s = execAddpcL w d im s := rfl
@[simp] theorem exec_mul (w : Bool) (d a b : BitVec 5) (s : State) : exec (.mul w d a b) s = execMul w d a b s := rfl
@[simp] theorem exec_mulh (w : Bool) (d a b : BitVec 5) (s : State) : exec (.mulh w d a b) s = execMulh w d a b s := rfl
@[simp] theorem exec_mulhn (w : Bool) (d a b : BitVec 5) (s : State) : exec (.mulhn w d a b) s = execMulhn w d a b s := rfl
@[simp] theorem exec_mulhsn (w : Bool) (d a b : BitVec 5) (s : State) : exec (.mulhsn w d a b) s = execMulhsn w d a b s := rfl
@[simp] theorem exec_div (w : Bool) (d a b : BitVec 5) (s : State) : exec (.div w d a b) s = execDiv w d a b s := rfl
@[simp] theorem exec_divn (w : Bool) (d a b : BitVec 5) (s : State) : exec (.divn w d a b) s = execDivn w d a b s := rfl
@[simp] theorem exec_rem (w : Bool) (d a b : BitVec 5) (s : State) : exec (.rem w d a b) s = execRem w d a b s := rfl
@[simp] theorem exec_remn (w : Bool) (d a b : BitVec 5) (s : State) : exec (.remn w d a b) s = execRemn w d a b s := rfl
@[simp] theorem exec_mulw (w : Bool) (d a b : BitVec 5) (s : State) : exec (.mulw w d a b) s = execMulw w d a b s := rfl
@[simp] theorem exec_divw (w : Bool) (d a b : BitVec 5) (s : State) : exec (.divw w d a b) s = execDivw w d a b s := rfl
@[simp] theorem exec_divnw (w : Bool) (d a b : BitVec 5) (s : State) : exec (.divnw w d a b) s = execDivnw w d a b s := rfl
@[simp] theorem exec_remw (w : Bool) (d a b : BitVec 5) (s : State) : exec (.remw w d a b) s = execRemw w d a b s := rfl
@[simp] theorem exec_remnw (w : Bool) (d a b : BitVec 5) (s : State) : exec (.remnw w d a b) s = execRemnw w d a b s := rfl
@[simp] theorem exec_clz (w : Bool) (d a : BitVec 5) (s : State) : exec (.clz w d a) s = execClz w d a s := rfl
@[simp] theorem exec_ctz (w : Bool) (d a : BitVec 5) (s : State) : exec (.ctz w d a) s = execCtz w d a s := rfl
@[simp] theorem exec_popc (w : Bool) (d a : BitVec 5) (s : State) : exec (.popc w d a) s = execPopc w d a s := rfl
@[simp] theorem exec_brev (w : Bool) (d a : BitVec 5) (s : State) : exec (.brev w d a) s = execBrev w d a s := rfl
@[simp] theorem exec_bswap (w : Bool) (d a : BitVec 5) (s : State) : exec (.bswap w d a) s = execBswap w d a s := rfl
@[simp] theorem exec_rol (w : Bool) (d a b : BitVec 5) (s : State) : exec (.rol w d a b) s = execRol w d a b s := rfl
@[simp] theorem exec_ror (w : Bool) (d a b : BitVec 5) (s : State) : exec (.ror w d a b) s = execRor w d a b s := rfl
@[simp] theorem exec_sextb (w : Bool) (d a : BitVec 5) (s : State) : exec (.sextb w d a) s = execSextb w d a s := rfl
@[simp] theorem exec_sexth (w : Bool) (d a : BitVec 5) (s : State) : exec (.sexth w d a) s = execSexth w d a s := rfl
@[simp] theorem exec_sextw (w : Bool) (d a : BitVec 5) (s : State) : exec (.sextw w d a) s = execSextw w d a s := rfl
@[simp] theorem exec_zextw (w : Bool) (d a : BitVec 5) (s : State) : exec (.zextw w d a) s = execZextw w d a s := rfl
@[simp] theorem exec_bext (w : Bool) (d a b : BitVec 5) (s : State) : exec (.bext w d a b) s = execBext w d a b s := rfl
@[simp] theorem exec_bdep (w : Bool) (d a b : BitVec 5) (s : State) : exec (.bdep w d a b) s = execBdep w d a b s := rfl
@[simp] theorem exec_clzw (w : Bool) (d a : BitVec 5) (s : State) : exec (.clzw w d a) s = execClzw w d a s := rfl
@[simp] theorem exec_ctzw (w : Bool) (d a : BitVec 5) (s : State) : exec (.ctzw w d a) s = execCtzw w d a s := rfl
@[simp] theorem exec_popcw (w : Bool) (d a : BitVec 5) (s : State) : exec (.popcw w d a) s = execPopcw w d a s := rfl
@[simp] theorem exec_tid (w : Bool) (d : BitVec 5) (s : State) : exec (.tid w d) s = execTid w d s := rfl
@[simp] theorem exec_place (w : Bool) (d : BitVec 5) (s : State) : exec (.place w d) s = execPlace w d s := rfl
@[simp] theorem exec_lsize (w : Bool) (d : BitVec 5) (s : State) : exec (.lsize w d) s = execLsize w d s := rfl
@[simp] theorem exec_lb (w : Bool) (d a : BitVec 5) (o : BitVec 2) (im : BitVec 10) (s : State) : exec (.lb w d a o im) s = execLb w d a o im s := rfl
@[simp] theorem exec_lh (w : Bool) (d a : BitVec 5) (o : BitVec 2) (im : BitVec 10) (s : State) : exec (.lh w d a o im) s = execLh w d a o im s := rfl
@[simp] theorem exec_lw (w : Bool) (d a : BitVec 5) (o : BitVec 2) (im : BitVec 10) (s : State) : exec (.lw w d a o im) s = execLw w d a o im s := rfl
@[simp] theorem exec_ld (w : Bool) (d a : BitVec 5) (o : BitVec 2) (im : BitVec 10) (s : State) : exec (.ld w d a o im) s = execLd w d a o im s := rfl
@[simp] theorem exec_lbn (w : Bool) (d a : BitVec 5) (o : BitVec 2) (im : BitVec 10) (s : State) : exec (.lbn w d a o im) s = execLbn w d a o im s := rfl
@[simp] theorem exec_lhn (w : Bool) (d a : BitVec 5) (o : BitVec 2) (im : BitVec 10) (s : State) : exec (.lhn w d a o im) s = execLhn w d a o im s := rfl
@[simp] theorem exec_lwn (w : Bool) (d a : BitVec 5) (o : BitVec 2) (im : BitVec 10) (s : State) : exec (.lwn w d a o im) s = execLwn w d a o im s := rfl
@[simp] theorem exec_sb (w : Bool) (o : BitVec 2) (a b : BitVec 5) (im : BitVec 10) (s : State) : exec (.sb w o a b im) s = execSb w o a b im s := rfl
@[simp] theorem exec_sh (w : Bool) (o : BitVec 2) (a b : BitVec 5) (im : BitVec 10) (s : State) : exec (.sh w o a b im) s = execSh w o a b im s := rfl
@[simp] theorem exec_sw (w : Bool) (o : BitVec 2) (a b : BitVec 5) (im : BitVec 10) (s : State) : exec (.sw w o a b im) s = execSw w o a b im s := rfl
@[simp] theorem exec_sd (w : Bool) (o : BitVec 2) (a b : BitVec 5) (im : BitVec 10) (s : State) : exec (.sd w o a b im) s = execSd w o a b im s := rfl
@[simp] theorem exec_loadScoped (w : Bool) (d a : BitVec 5) (sz : BitVec 3) (o : BitVec 5) (s : State) : exec (.loadScoped w d a sz o) s = execLoadScoped w d a sz o s := rfl
@[simp] theorem exec_storeScoped (w : Bool) (a b : BitVec 5) (sz : BitVec 2) (o : BitVec 5) (s : State) : exec (.storeScoped w a b sz o) s = execStoreScoped w a b sz o s := rfl
@[simp] theorem exec_beq (w : Bool) (o : BitVec 15) (a b : BitVec 5) (s : State) : exec (.beq w o a b) s = execBeq w o a b s := rfl
@[simp] theorem exec_bne (w : Bool) (o : BitVec 15) (a b : BitVec 5) (s : State) : exec (.bne w o a b) s = execBne w o a b s := rfl
@[simp] theorem exec_blt (w : Bool) (o : BitVec 15) (a b : BitVec 5) (s : State) : exec (.blt w o a b) s = execBlt w o a b s := rfl
@[simp] theorem exec_bge (w : Bool) (o : BitVec 15) (a b : BitVec 5) (s : State) : exec (.bge w o a b) s = execBge w o a b s := rfl
@[simp] theorem exec_bltn (w : Bool) (o : BitVec 15) (a b : BitVec 5) (s : State) : exec (.bltn w o a b) s = execBltn w o a b s := rfl
@[simp] theorem exec_bgen (w : Bool) (o : BitVec 15) (a b : BitVec 5) (s : State) : exec (.bgen w o a b) s = execBgen w o a b s := rfl
@[simp] theorem exec_call (w : Bool) (d : BitVec 5) (o : BitVec 20) (s : State) : exec (.call w d o) s = execCall w d o s := rfl
@[simp] theorem exec_callr (w : Bool) (d a : BitVec 5) (im : BitVec 15) (s : State) : exec (.callr w d a im) s = execCallr w d a im s := rfl
@[simp] theorem exec_amoadd (w : Bool) (d a b : BitVec 5) (z : BitVec 1) (o : BitVec 5) (s : State) : exec (.amoadd w d a b z o) s = execAmoadd w d a b z o s := rfl
@[simp] theorem exec_amoand (w : Bool) (d a b : BitVec 5) (z : BitVec 1) (o : BitVec 5) (s : State) : exec (.amoand w d a b z o) s = execAmoand w d a b z o s := rfl
@[simp] theorem exec_amoor (w : Bool) (d a b : BitVec 5) (z : BitVec 1) (o : BitVec 5) (s : State) : exec (.amoor w d a b z o) s = execAmoor w d a b z o s := rfl
@[simp] theorem exec_amoxor (w : Bool) (d a b : BitVec 5) (z : BitVec 1) (o : BitVec 5) (s : State) : exec (.amoxor w d a b z o) s = execAmoxor w d a b z o s := rfl
@[simp] theorem exec_amomin (w : Bool) (d a b : BitVec 5) (z : BitVec 1) (o : BitVec 5) (s : State) : exec (.amomin w d a b z o) s = execAmomin w d a b z o s := rfl
@[simp] theorem exec_amomax (w : Bool) (d a b : BitVec 5) (z : BitVec 1) (o : BitVec 5) (s : State) : exec (.amomax w d a b z o) s = execAmomax w d a b z o s := rfl
@[simp] theorem exec_amominn (w : Bool) (d a b : BitVec 5) (z : BitVec 1) (o : BitVec 5) (s : State) : exec (.amominn w d a b z o) s = execAmominn w d a b z o s := rfl
@[simp] theorem exec_amomaxn (w : Bool) (d a b : BitVec 5) (z : BitVec 1) (o : BitVec 5) (s : State) : exec (.amomaxn w d a b z o) s = execAmomaxn w d a b z o s := rfl
@[simp] theorem exec_amoswap (w : Bool) (d a b : BitVec 5) (z : BitVec 1) (o : BitVec 5) (s : State) : exec (.amoswap w d a b z o) s = execAmoswap w d a b z o s := rfl
@[simp] theorem exec_cas (w : Bool) (d a b : BitVec 5) (z : BitVec 1) (o : BitVec 5) (s : State) : exec (.cas w d a b z o) s = execCas w d a b z o s := rfl
@[simp] theorem exec_amofadd (w : Bool) (d a b : BitVec 5) (z : BitVec 1) (o : BitVec 5) (s : State) : exec (.amofadd w d a b z o) s = execAmofadd w d a b z o s := rfl
@[simp] theorem exec_casQ (w : Bool) (d : BitVec 4) (a : BitVec 5) (b : BitVec 4) (o : BitVec 5) (s : State) : exec (.casQ w d a b o) s = execCasQ w d a b o s := rfl
@[simp] theorem exec_lease (w : Bool) (d a o : BitVec 5) (s : State) : exec (.lease w d a o) s = execLease w d a o s := rfl
@[simp] theorem exec_leaseN (w : Bool) (d a b o : BitVec 5) (s : State) : exec (.leaseN w d a b o) s = execLeaseN w d a b o s := rfl
@[simp] theorem exec_lend (w : Bool) (d o : BitVec 5) (s : State) : exec (.lend w d o) s = execLend w d o s := rfl
@[simp] theorem exec_fence (w : Bool) (k : BitVec 4) (sz : BitVec 3) (s : State) : exec (.fence w k sz) s = execFence w k sz s := rfl
@[simp] theorem exec_bar (w : Bool) (n : BitVec 4) (sz : BitVec 3) (s : State) : exec (.bar w n sz) s = execBar w n sz s := rfl
@[simp] theorem exec_bara (w : Bool) (n : BitVec 4) (sz : BitVec 3) (s : State) : exec (.bara w n sz) s = execBara w n sz s := rfl
@[simp] theorem exec_barw (w : Bool) (n : BitVec 4) (sz : BitVec 3) (s : State) : exec (.barw w n sz) s = execBarw w n sz s := rfl
@[simp] theorem exec_claim (w : Bool) (d a b : BitVec 5) (s : State) : exec (.claim w d a b) s = execClaim w d a b s := rfl
@[simp] theorem exec_vwait (w : Bool) (d a b : BitVec 5) (m : BitVec 3) (c : BitVec 4) (s : State) : exec (.vwait w d a b m c) s = execVwait w d a b m c s := rfl
@[simp] theorem exec_vwaitT (w : Bool) (d a b : BitVec 5) (m : BitVec 3) (c : BitVec 4) (s : State) : exec (.vwaitT w d a b m c) s = execVwaitT w d a b m c s := rfl
@[simp] theorem exec_wfe (w : Bool) (s : State) : exec (.wfe w) s = execWfe w s := rfl
@[simp] theorem exec_wake (w : Bool) (a : BitVec 5) (s : State) : exec (.wake w a) s = execWake w a s := rfl
@[simp] theorem exec_vcfg (w : Bool) (d t : BitVec 5) (g : BitVec 2) (s : State) : exec (.vcfg w d t g) s = execVcfg w d t g s := rfl
@[simp] theorem exec_vgrant (w : Bool) (d a b : BitVec 5) (s : State) : exec (.vgrant w d a b) s = execVgrant w d a b s := rfl
@[simp] theorem exec_vmv (w : Bool) (d a : BitVec 5) (m : BitVec 3) (s : State) : exec (.vmv w d a m) s = execVmv w d a m s := rfl
@[simp] theorem exec_vsplat (w : Bool) (d a : BitVec 5) (m : BitVec 3) (s : State) : exec (.vsplat w d a m) s = execVsplat w d a m s := rfl
@[simp] theorem exec_vget (w : Bool) (d a b : BitVec 5) (s : State) : exec (.vget w d a b) s = execVget w d a b s := rfl
@[simp] theorem exec_vput (w : Bool) (d a b : BitVec 5) (s : State) : exec (.vput w d a b) s = execVput w d a b s := rfl
@[simp] theorem exec_vmovr (w : Bool) (d a k : BitVec 5) (s : State) : exec (.vmovr w d a k) s = execVmovr w d a k s := rfl
@[simp] theorem exec_vmovw (w : Bool) (d a k : BitVec 5) (s : State) : exec (.vmovw w d a k) s = execVmovw w d a k s := rfl
@[simp] theorem exec_vtag (w : Bool) (d a : BitVec 5) (s : State) : exec (.vtag w d a) s = execVtag w d a s := rfl
@[simp] theorem exec_vadd (w : Bool) (d a b : BitVec 5) (m : BitVec 3) (s : State) : exec (.vadd w d a b m) s = execVadd w d a b m s := rfl
@[simp] theorem exec_vsub (w : Bool) (d a b : BitVec 5) (m : BitVec 3) (s : State) : exec (.vsub w d a b m) s = execVsub w d a b m s := rfl
@[simp] theorem exec_vmul (w : Bool) (d a b : BitVec 5) (m : BitVec 3) (s : State) : exec (.vmul w d a b m) s = execVmul w d a b m s := rfl
@[simp] theorem exec_vmulh (w : Bool) (d a b : BitVec 5) (m : BitVec 3) (s : State) : exec (.vmulh w d a b m) s = execVmulh w d a b m s := rfl
@[simp] theorem exec_vmulhn (w : Bool) (d a b : BitVec 5) (m : BitVec 3) (s : State) : exec (.vmulhn w d a b m) s = execVmulhn w d a b m s := rfl
@[simp] theorem exec_vmadd (w : Bool) (d a b : BitVec 5) (m : BitVec 3) (s : State) : exec (.vmadd w d a b m) s = execVmadd w d a b m s := rfl
@[simp] theorem exec_vdiv (w : Bool) (d a b : BitVec 5) (m : BitVec 3) (s : State) : exec (.vdiv w d a b m) s = execVdiv w d a b m s := rfl
@[simp] theorem exec_vdivn (w : Bool) (d a b : BitVec 5) (m : BitVec 3) (s : State) : exec (.vdivn w d a b m) s = execVdivn w d a b m s := rfl
@[simp] theorem exec_vrem (w : Bool) (d a b : BitVec 5) (m : BitVec 3) (s : State) : exec (.vrem w d a b m) s = execVrem w d a b m s := rfl
@[simp] theorem exec_vremn (w : Bool) (d a b : BitVec 5) (m : BitVec 3) (s : State) : exec (.vremn w d a b m) s = execVremn w d a b m s := rfl
@[simp] theorem exec_vand (w : Bool) (d a b : BitVec 5) (m : BitVec 3) (s : State) : exec (.vand w d a b m) s = execVand w d a b m s := rfl
@[simp] theorem exec_vor (w : Bool) (d a b : BitVec 5) (m : BitVec 3) (s : State) : exec (.vor w d a b m) s = execVor w d a b m s := rfl
@[simp] theorem exec_vxor (w : Bool) (d a b : BitVec 5) (m : BitVec 3) (s : State) : exec (.vxor w d a b m) s = execVxor w d a b m s := rfl
@[simp] theorem exec_vsll (w : Bool) (d a b : BitVec 5) (m : BitVec 3) (s : State) : exec (.vsll w d a b m) s = execVsll w d a b m s := rfl
@[simp] theorem exec_vsrl (w : Bool) (d a b : BitVec 5) (m : BitVec 3) (s : State) : exec (.vsrl w d a b m) s = execVsrl w d a b m s := rfl
@[simp] theorem exec_vsra (w : Bool) (d a b : BitVec 5) (m : BitVec 3) (s : State) : exec (.vsra w d a b m) s = execVsra w d a b m s := rfl
@[simp] theorem exec_vmin (w : Bool) (d a b : BitVec 5) (m : BitVec 3) (s : State) : exec (.vmin w d a b m) s = execVmin w d a b m s := rfl
@[simp] theorem exec_vmax (w : Bool) (d a b : BitVec 5) (m : BitVec 3) (s : State) : exec (.vmax w d a b m) s = execVmax w d a b m s := rfl
@[simp] theorem exec_vminn (w : Bool) (d a b : BitVec 5) (m : BitVec 3) (s : State) : exec (.vminn w d a b m) s = execVminn w d a b m s := rfl
@[simp] theorem exec_vmaxn (w : Bool) (d a b : BitVec 5) (m : BitVec 3) (s : State) : exec (.vmaxn w d a b m) s = execVmaxn w d a b m s := rfl
@[simp] theorem exec_vsadd (w : Bool) (d a b : BitVec 5) (m : BitVec 3) (s : State) : exec (.vsadd w d a b m) s = execVsadd w d a b m s := rfl
@[simp] theorem exec_vsaddn (w : Bool) (d a b : BitVec 5) (m : BitVec 3) (s : State) : exec (.vsaddn w d a b m) s = execVsaddn w d a b m s := rfl
@[simp] theorem exec_vssub (w : Bool) (d a b : BitVec 5) (m : BitVec 3) (s : State) : exec (.vssub w d a b m) s = execVssub w d a b m s := rfl
@[simp] theorem exec_vssubn (w : Bool) (d a b : BitVec 5) (m : BitVec 3) (s : State) : exec (.vssubn w d a b m) s = execVssubn w d a b m s := rfl
@[simp] theorem exec_vabs (w : Bool) (d a : BitVec 5) (m : BitVec 3) (s : State) : exec (.vabs w d a m) s = execVabs w d a m s := rfl
@[simp] theorem exec_vcmpeq (w : Bool) (d : BitVec 3) (a b : BitVec 5) (m : BitVec 3) (s : State) : exec (.vcmpeq w d a b m) s = execVcmpeq w d a b m s := rfl
@[simp] theorem exec_vcmpne (w : Bool) (d : BitVec 3) (a b : BitVec 5) (m : BitVec 3) (s : State) : exec (.vcmpne w d a b m) s = execVcmpne w d a b m s := rfl
@[simp] theorem exec_vcmplt (w : Bool) (d : BitVec 3) (a b : BitVec 5) (m : BitVec 3) (s : State) : exec (.vcmplt w d a b m) s = execVcmplt w d a b m s := rfl
@[simp] theorem exec_vcmpge (w : Bool) (d : BitVec 3) (a b : BitVec 5) (m : BitVec 3) (s : State) : exec (.vcmpge w d a b m) s = execVcmpge w d a b m s := rfl
@[simp] theorem exec_vcmpltn (w : Bool) (d : BitVec 3) (a b : BitVec 5) (m : BitVec 3) (s : State) : exec (.vcmpltn w d a b m) s = execVcmpltn w d a b m s := rfl
@[simp] theorem exec_vcmpgen (w : Bool) (d : BitVec 3) (a b : BitVec 5) (m : BitVec 3) (s : State) : exec (.vcmpgen w d a b m) s = execVcmpgen w d a b m s := rfl
@[simp] theorem exec_vwadd (w : Bool) (d a b : BitVec 5) (m : BitVec 3) (s : State) : exec (.vwadd w d a b m) s = execVwadd w d a b m s := rfl
@[simp] theorem exec_vwmul (w : Bool) (d a b : BitVec 5) (m : BitVec 3) (s : State) : exec (.vwmul w d a b m) s = execVwmul w d a b m s := rfl
@[simp] theorem exec_vfadd (w : Bool) (d a b : BitVec 5) (m : BitVec 3) (s : State) : exec (.vfadd w d a b m) s = execVfadd w d a b m s := rfl
@[simp] theorem exec_vfsub (w : Bool) (d a b : BitVec 5) (m : BitVec 3) (s : State) : exec (.vfsub w d a b m) s = execVfsub w d a b m s := rfl
@[simp] theorem exec_vfmul (w : Bool) (d a b : BitVec 5) (m : BitVec 3) (s : State) : exec (.vfmul w d a b m) s = execVfmul w d a b m s := rfl
@[simp] theorem exec_vfdiv (w : Bool) (d a b : BitVec 5) (m : BitVec 3) (s : State) : exec (.vfdiv w d a b m) s = execVfdiv w d a b m s := rfl
@[simp] theorem exec_vfma (w : Bool) (d a b : BitVec 5) (m : BitVec 3) (s : State) : exec (.vfma w d a b m) s = execVfma w d a b m s := rfl
@[simp] theorem exec_vfms (w : Bool) (d a b : BitVec 5) (m : BitVec 3) (s : State) : exec (.vfms w d a b m) s = execVfms w d a b m s := rfl
@[simp] theorem exec_vfnma (w : Bool) (d a b : BitVec 5) (m : BitVec 3) (s : State) : exec (.vfnma w d a b m) s = execVfnma w d a b m s := rfl
@[simp] theorem exec_vfmin (w : Bool) (d a b : BitVec 5) (m : BitVec 3) (s : State) : exec (.vfmin w d a b m) s = execVfmin w d a b m s := rfl
@[simp] theorem exec_vfmax (w : Bool) (d a b : BitVec 5) (m : BitVec 3) (s : State) : exec (.vfmax w d a b m) s = execVfmax w d a b m s := rfl
@[simp] theorem exec_vfsgnj (w : Bool) (d a b : BitVec 5) (m : BitVec 3) (s : State) : exec (.vfsgnj w d a b m) s = execVfsgnj w d a b m s := rfl
@[simp] theorem exec_vfsgnjn (w : Bool) (d a b : BitVec 5) (m : BitVec 3) (s : State) : exec (.vfsgnjn w d a b m) s = execVfsgnjn w d a b m s := rfl
@[simp] theorem exec_vfsqrt (w : Bool) (d a : BitVec 5) (m : BitVec 3) (s : State) : exec (.vfsqrt w d a m) s = execVfsqrt w d a m s := rfl
@[simp] theorem exec_vfrcp (w : Bool) (d a : BitVec 5) (m : BitVec 3) (s : State) : exec (.vfrcp w d a m) s = execVfrcp w d a m s := rfl
@[simp] theorem exec_vfrsqrt (w : Bool) (d a : BitVec 5) (m : BitVec 3) (s : State) : exec (.vfrsqrt w d a m) s = execVfrsqrt w d a m s := rfl
@[simp] theorem exec_vfexp2 (w : Bool) (d a : BitVec 5) (m : BitVec 3) (s : State) : exec (.vfexp2 w d a m) s = execVfexp2 w d a m s := rfl
@[simp] theorem exec_vflog2 (w : Bool) (d a : BitVec 5) (m : BitVec 3) (s : State) : exec (.vflog2 w d a m) s = execVflog2 w d a m s := rfl
@[simp] theorem exec_vfabs (w : Bool) (d a : BitVec 5) (m : BitVec 3) (s : State) : exec (.vfabs w d a m) s = execVfabs w d a m s := rfl
@[simp] theorem exec_vfneg (w : Bool) (d a : BitVec 5) (m : BitVec 3) (s : State) : exec (.vfneg w d a m) s = execVfneg w d a m s := rfl
@[simp] theorem exec_vfclass (w : Bool) (d a : BitVec 5) (m : BitVec 3) (s : State) : exec (.vfclass w d a m) s = execVfclass w d a m s := rfl
@[simp] theorem exec_vfcmpeq (w : Bool) (d : BitVec 3) (a b : BitVec 5) (m : BitVec 3) (s : State) : exec (.vfcmpeq w d a b m) s = execVfcmpeq w d a b m s := rfl
@[simp] theorem exec_vfcmplt (w : Bool) (d : BitVec 3) (a b : BitVec 5) (m : BitVec 3) (s : State) : exec (.vfcmplt w d a b m) s = execVfcmplt w d a b m s := rfl
@[simp] theorem exec_vfcmple (w : Bool) (d : BitVec 3) (a b : BitVec 5) (m : BitVec 3) (s : State) : exec (.vfcmple w d a b m) s = execVfcmple w d a b m s := rfl
@[simp] theorem exec_vfcmpun (w : Bool) (d : BitVec 3) (a b : BitVec 5) (m : BitVec 3) (s : State) : exec (.vfcmpun w d a b m) s = execVfcmpun w d a b m s := rfl
@[simp] theorem exec_vintG (w : Bool) (d a b : BitVec 5) (m : BitVec 3) (p : BitVec 6) (s : State) : exec (.vintG w d a b m p) s = execVintG w d a b m p s := rfl
@[simp] theorem exec_vfloatG (w : Bool) (d a b : BitVec 5) (m : BitVec 3) (p : BitVec 6) (s : State) : exec (.vfloatG w d a b m p) s = execVfloatG w d a b m p s := rfl
@[simp] theorem exec_vcvt (w : Bool) (d a : BitVec 5) (m r : BitVec 3) (s : State) : exec (.vcvt w d a m r) s = execVcvt w d a m r s := rfl
@[simp] theorem exec_vcvtSat (w : Bool) (d a : BitVec 5) (m r : BitVec 3) (s : State) : exec (.vcvtSat w d a m r) s = execVcvtSat w d a m r s := rfl
@[simp] theorem exec_vcvtSc (w : Bool) (d a b : BitVec 5) (m r : BitVec 3) (s : State) : exec (.vcvtSc w d a b m r) s = execVcvtSc w d a b m r s := rfl
@[simp] theorem exec_vcvtDs (w : Bool) (d a b : BitVec 5) (r : BitVec 3) (s : State) : exec (.vcvtDs w d a b r) s = execVcvtDs w d a b r s := rfl
@[simp] theorem exec_vshift (w : Bool) (d a b : BitVec 5) (m : BitVec 3) (s : State) : exec (.vshift w d a b m) s = execVshift w d a b m s := rfl
@[simp] theorem exec_vrot (w : Bool) (d a b : BitVec 5) (m : BitVec 3) (s : State) : exec (.vrot w d a b m) s = execVrot w d a b m s := rfl
@[simp] theorem exec_vfeedlo (w : Bool) (d a b : BitVec 5) (m : BitVec 3) (s : State) : exec (.vfeedlo w d a b m) s = execVfeedlo w d a b m s := rfl
@[simp] theorem exec_vfeedhi (w : Bool) (d a b : BitVec 5) (m : BitVec 3) (s : State) : exec (.vfeedhi w d a b m) s = execVfeedhi w d a b m s := rfl
@[simp] theorem exec_vpick (w : Bool) (d a b : BitVec 5) (m : BitVec 3) (s : State) : exec (.vpick w d a b m) s = execVpick w d a b m s := rfl
@[simp] theorem exec_vpack (w : Bool) (d a : BitVec 5) (m : BitVec 3) (s : State) : exec (.vpack w d a m) s = execVpack w d a m s := rfl
@[simp] theorem exec_vspread (w : Bool) (d a : BitVec 5) (m : BitVec 3) (s : State) : exec (.vspread w d a m) s = execVspread w d a m s := rfl
@[simp] theorem exec_vscanadd (w : Bool) (d a b : BitVec 5) (m : BitVec 3) (s : State) : exec (.vscanadd w d a b m) s = execVscanadd w d a b m s := rfl
@[simp] theorem exec_vscanmin (w : Bool) (d a b : BitVec 5) (m : BitVec 3) (s : State) : exec (.vscanmin w d a b m) s = execVscanmin w d a b m s := rfl
@[simp] theorem exec_vscanmax (w : Bool) (d a b : BitVec 5) (m : BitVec 3) (s : State) : exec (.vscanmax w d a b m) s = execVscanmax w d a b m s := rfl
@[simp] theorem exec_vfscanadd (w : Bool) (d a b : BitVec 5) (m : BitVec 3) (s : State) : exec (.vfscanadd w d a b m) s = execVfscanadd w d a b m s := rfl
@[simp] theorem exec_vredsum (w : Bool) (d a b : BitVec 5) (m : BitVec 3) (s : State) : exec (.vredsum w d a b m) s = execVredsum w d a b m s := rfl
@[simp] theorem exec_vredmin (w : Bool) (d a b : BitVec 5) (m : BitVec 3) (s : State) : exec (.vredmin w d a b m) s = execVredmin w d a b m s := rfl
@[simp] theorem exec_vredmax (w : Bool) (d a b : BitVec 5) (m : BitVec 3) (s : State) : exec (.vredmax w d a b m) s = execVredmax w d a b m s := rfl
@[simp] theorem exec_vredminn (w : Bool) (d a b : BitVec 5) (m : BitVec 3) (s : State) : exec (.vredminn w d a b m) s = execVredminn w d a b m s := rfl
@[simp] theorem exec_vredmaxn (w : Bool) (d a b : BitVec 5) (m : BitVec 3) (s : State) : exec (.vredmaxn w d a b m) s = execVredmaxn w d a b m s := rfl
@[simp] theorem exec_vredand (w : Bool) (d a b : BitVec 5) (m : BitVec 3) (s : State) : exec (.vredand w d a b m) s = execVredand w d a b m s := rfl
@[simp] theorem exec_vredor (w : Bool) (d a b : BitVec 5) (m : BitVec 3) (s : State) : exec (.vredor w d a b m) s = execVredor w d a b m s := rfl
@[simp] theorem exec_vredxor (w : Bool) (d a b : BitVec 5) (m : BitVec 3) (s : State) : exec (.vredxor w d a b m) s = execVredxor w d a b m s := rfl
@[simp] theorem exec_vfredsum (w : Bool) (d a b : BitVec 5) (m : BitVec 3) (s : State) : exec (.vfredsum w d a b m) s = execVfredsum w d a b m s := rfl
@[simp] theorem exec_vfredmin (w : Bool) (d a b : BitVec 5) (m : BitVec 3) (s : State) : exec (.vfredmin w d a b m) s = execVfredmin w d a b m s := rfl
@[simp] theorem exec_vfredmax (w : Bool) (d a b : BitVec 5) (m : BitVec 3) (s : State) : exec (.vfredmax w d a b m) s = execVfredmax w d a b m s := rfl
@[simp] theorem exec_mbound (w : Bool) (d : BitVec 3) (a b : BitVec 5) (s : State) : exec (.mbound w d a b) s = execMbound w d a b s := rfl
@[simp] theorem exec_mand (w : Bool) (d a b : BitVec 3) (s : State) : exec (.mand w d a b) s = execMand w d a b s := rfl
@[simp] theorem exec_mor (w : Bool) (d a b : BitVec 3) (s : State) : exec (.mor w d a b) s = execMor w d a b s := rfl
@[simp] theorem exec_mxor (w : Bool) (d a b : BitVec 3) (s : State) : exec (.mxor w d a b) s = execMxor w d a b s := rfl
@[simp] theorem exec_mandn (w : Bool) (d a b : BitVec 3) (s : State) : exec (.mandn w d a b) s = execMandn w d a b s := rfl
@[simp] theorem exec_mnot (w : Bool) (d a : BitVec 3) (s : State) : exec (.mnot w d a) s = execMnot w d a s := rfl
@[simp] theorem exec_mmv (w : Bool) (d a : BitVec 3) (s : State) : exec (.mmv w d a) s = execMmv w d a s := rfl
@[simp] theorem exec_mcnt (w : Bool) (d : BitVec 5) (a : BitVec 3) (s : State) : exec (.mcnt w d a) s = execMcnt w d a s := rfl
@[simp] theorem exec_mfirst (w : Bool) (d : BitVec 5) (a : BitVec 3) (s : State) : exec (.mfirst w d a) s = execMfirst w d a s := rfl
@[simp] theorem exec_mfromv (w : Bool) (d : BitVec 3) (a : BitVec 5) (s : State) : exec (.mfromv w d a) s = execMfromv w d a s := rfl
@[simp] theorem exec_mtov (w : Bool) (d : BitVec 5) (a : BitVec 3) (s : State) : exec (.mtov w d a) s = execMtov w d a s := rfl
@[simp] theorem exec_mpush (w : Bool) (a : BitVec 3) (s : State) : exec (.mpush w a) s = execMpush w a s := rfl
@[simp] theorem exec_melse (w : Bool) (s : State) : exec (.melse w) s = execMelse w s := rfl
@[simp] theorem exec_mpop (w : Bool) (s : State) : exec (.mpop w) s = execMpop w s := rfl
@[simp] theorem exec_vld (w : Bool) (d a : BitVec 5) (m : BitVec 3) (s : State) : exec (.vld w d a m) s = execVld w d a m s := rfl
@[simp] theorem exec_vlds (w : Bool) (d a b : BitVec 5) (m : BitVec 3) (s : State) : exec (.vlds w d a b m) s = execVlds w d a b m s := rfl
@[simp] theorem exec_vldx (w : Bool) (d a b : BitVec 5) (m : BitVec 3) (s : State) : exec (.vldx w d a b m) s = execVldx w d a b m s := rfl
@[simp] theorem exec_vst (w : Bool) (d a : BitVec 5) (m : BitVec 3) (s : State) : exec (.vst w d a m) s = execVst w d a m s := rfl
@[simp] theorem exec_vsts (w : Bool) (d a b : BitVec 5) (m : BitVec 3) (s : State) : exec (.vsts w d a b m) s = execVsts w d a b m s := rfl
@[simp] theorem exec_vstx (w : Bool) (d a b : BitVec 5) (m : BitVec 3) (s : State) : exec (.vstx w d a b m) s = execVstx w d a b m s := rfl
@[simp] theorem exec_gld (w : Bool) (d a b : BitVec 5) (m : BitVec 3) (s : State) : exec (.gld w d a b m) s = execGld w d a b m s := rfl
@[simp] theorem exec_scs (w : Bool) (d a b : BitVec 5) (m : BitVec 3) (s : State) : exec (.scs w d a b m) s = execScs w d a b m s := rfl
@[simp] theorem exec_vamoadd (w : Bool) (d a b : BitVec 5) (m : BitVec 3) (s : State) : exec (.vamoadd w d a b m) s = execVamoadd w d a b m s := rfl
@[simp] theorem exec_vamoand (w : Bool) (d a b : BitVec 5) (m : BitVec 3) (s : State) : exec (.vamoand w d a b m) s = execVamoand w d a b m s := rfl
@[simp] theorem exec_vamoor (w : Bool) (d a b : BitVec 5) (m : BitVec 3) (s : State) : exec (.vamoor w d a b m) s = execVamoor w d a b m s := rfl
@[simp] theorem exec_vamoxor (w : Bool) (d a b : BitVec 5) (m : BitVec 3) (s : State) : exec (.vamoxor w d a b m) s = execVamoxor w d a b m s := rfl
@[simp] theorem exec_vamomin (w : Bool) (d a b : BitVec 5) (m : BitVec 3) (s : State) : exec (.vamomin w d a b m) s = execVamomin w d a b m s := rfl
@[simp] theorem exec_vamomax (w : Bool) (d a b : BitVec 5) (m : BitVec 3) (s : State) : exec (.vamomax w d a b m) s = execVamomax w d a b m s := rfl
@[simp] theorem exec_vamominn (w : Bool) (d a b : BitVec 5) (m : BitVec 3) (s : State) : exec (.vamominn w d a b m) s = execVamominn w d a b m s := rfl
@[simp] theorem exec_vamomaxn (w : Bool) (d a b : BitVec 5) (m : BitVec 3) (s : State) : exec (.vamomaxn w d a b m) s = execVamomaxn w d a b m s := rfl
@[simp] theorem exec_vamofadd (w : Bool) (d a b : BitVec 5) (m : BitVec 3) (s : State) : exec (.vamofadd w d a b m) s = execVamofadd w d a b m s := rfl
@[simp] theorem exec_mgang (w : Bool) (s : State) : exec (.mgang w) s = execMgang w s := rfl
@[simp] theorem exec_mmaVreg (w : Bool) (sz : BitVec 1) (a b : BitVec 5) (k : BitVec 4) (s : State) : exec (.mmaVreg w sz a b k) s = execMmaVreg w sz a b k s := rfl
@[simp] theorem exec_mmaScratch (w : Bool) (sz : BitVec 1) (a b : BitVec 5) (k : BitVec 4) (s : State) : exec (.mmaScratch w sz a b k) s = execMmaScratch w sz a b k s := rfl
@[simp] theorem exec_mmaDownconv (w : Bool) (sz t : BitVec 1) (b : BitVec 5) (k : BitVec 3) (s : State) : exec (.mmaDownconv w sz t b k) s = execMmaDownconv w sz t b k s := rfl
@[simp] theorem exec_mmaSlideVreg (w : Bool) (sz : BitVec 1) (a b : BitVec 5) (k : BitVec 4) (s : State) : exec (.mmaSlideVreg w sz a b k) s = execMmaSlideVreg w sz a b k s := rfl
@[simp] theorem exec_mmaSlideScratch (w : Bool) (sz : BitVec 1) (a b : BitVec 5) (k : BitVec 4) (s : State) : exec (.mmaSlideScratch w sz a b k) s = execMmaSlideScratch w sz a b k s := rfl
@[simp] theorem exec_mst (w : Bool) (sz : BitVec 1) (a b : BitVec 5) (s : State) : exec (.mst w sz a b) s = execMst w sz a b s := rfl
@[simp] theorem exec_mwait (w : Bool) (s : State) : exec (.mwait w) s = execMwait w s := rfl
@[simp] theorem exec_mzero (w : Bool) (sz : BitVec 1) (s : State) : exec (.mzero w sz) s = execMzero w sz s := rfl
@[simp] theorem exec_mrd (w : Bool) (d : BitVec 5) (sz : BitVec 1) (b : BitVec 5) (s : State) : exec (.mrd w d sz b) s = execMrd w d sz b s := rfl
@[simp] theorem exec_mwr (w : Bool) (sz : BitVec 1) (a b : BitVec 5) (s : State) : exec (.mwr w sz a b) s = execMwr w sz a b s := rfl
@[simp] theorem exec_mcvt (w : Bool) (d : BitVec 5) (sz : BitVec 1) (b : BitVec 5) (s : State) : exec (.mcvt w d sz b) s = execMcvt w d sz b s := rfl
@[simp] theorem exec_sampleNear (w : Bool) (d a b : BitVec 5) (m : BitVec 3) (s : State) : exec (.sampleNear w d a b m) s = execSampleNear w d a b m s := rfl
@[simp] theorem exec_sampleBil (w : Bool) (d a b : BitVec 5) (m : BitVec 3) (s : State) : exec (.sampleBil w d a b m) s = execSampleBil w d a b m s := rfl
@[simp] theorem exec_sampleTri (w : Bool) (d a b : BitVec 5) (m : BitVec 3) (s : State) : exec (.sampleTri w d a b m) s = execSampleTri w d a b m s := rfl
@[simp] theorem exec_boxtest (w : Bool) (d : BitVec 5) (a : BitVec 4) (b : BitVec 5) (m : BitVec 3) (s : State) : exec (.boxtest w d a b m) s = execBoxtest w d a b m s := rfl
@[simp] theorem exec_tritest (w : Bool) (d : BitVec 5) (a : BitVec 4) (b : BitVec 5) (m : BitVec 3) (s : State) : exec (.tritest w d a b m) s = execTritest w d a b m s := rfl
@[simp] theorem exec_partition (w : Bool) (d : BitVec 5) (a : BitVec 4) (b : BitVec 5) (m : BitVec 3) (s : State) : exec (.partition w d a b m) s = execPartition w d a b m s := rfl
@[simp] theorem exec_marchRecord (w : Bool) (d a b : BitVec 5) (m : BitVec 3) (s : State) : exec (.marchRecord w d a b m) s = execMarchRecord w d a b m s := rfl
@[simp] theorem exec_marchAcc (w : Bool) (d a b : BitVec 5) (m : BitVec 3) (s : State) : exec (.marchAcc w d a b m) s = execMarchAcc w d a b m s := rfl
@[simp] theorem exec_marchLocate (w : Bool) (d a b : BitVec 5) (m : BitVec 3) (s : State) : exec (.marchLocate w d a b m) s = execMarchLocate w d a b m s := rfl
@[simp] theorem exec_qpushTile (w : Bool) (a b : BitVec 5) (n : BitVec 1) (s : State) : exec (.qpushTile w a b n) s = execQpushTile w a b n s := rfl
@[simp] theorem exec_qpushBlend (w : Bool) (a b : BitVec 5) (n : BitVec 1) (s : State) : exec (.qpushBlend w a b n) s = execQpushBlend w a b n s := rfl
@[simp] theorem exec_qpushMesh (w : Bool) (a b : BitVec 5) (n : BitVec 1) (s : State) : exec (.qpushMesh w a b n) s = execQpushMesh w a b n s := rfl
@[simp] theorem exec_copy (w : Bool) (a : BitVec 5) (s : State) : exec (.copy w a) s = execCopy w a s := rfl
@[simp] theorem exec_fill (w : Bool) (a : BitVec 5) (s : State) : exec (.fill w a) s = execFill w a s := rfl
@[simp] theorem exec_coll (w : Bool) (a : BitVec 5) (s : State) : exec (.coll w a) s = execColl w a s := rfl
@[simp] theorem exec_qfence (w : Bool) (sz : BitVec 5) (s : State) : exec (.qfence w sz) s = execQfence w sz s := rfl
@[simp] theorem exec_qwait (w : Bool) (d : BitVec 5) (q : BitVec 3) (s : State) : exec (.qwait w d q) s = execQwait w d q s := rfl
@[simp] theorem exec_qstat (w : Bool) (d : BitVec 5) (q : BitVec 3) (s : State) : exec (.qstat w d q) s = execQstat w d q s := rfl
@[simp] theorem exec_mfs (w : Bool) (d : BitVec 5) (c : BitVec 12) (s : State) : exec (.mfs w d c) s = execMfs w d c s := rfl
@[simp] theorem exec_mts (w : Bool) (a : BitVec 5) (c : BitVec 12) (s : State) : exec (.mts w a c) s = execMts w a c s := rfl
@[simp] theorem exec_svc (w : Bool) (a : BitVec 5) (s : State) : exec (.svc w a) s = execSvc w a s := rfl
@[simp] theorem exec_trap (w : Bool) (a : BitVec 5) (s : State) : exec (.trap w a) s = execTrap w a s := rfl
@[simp] theorem exec_brk (w : Bool) (s : State) : exec (.brk w) s = execBrk w s := rfl
@[simp] theorem exec_yield (w : Bool) (s : State) : exec (.yield w) s = execYield w s := rfl
@[simp] theorem exec_halt (w : Bool) (s : State) : exec (.halt w) s = execHalt w s := rfl
@[simp] theorem exec_timewait (w : Bool) (a : BitVec 5) (s : State) : exec (.timewait w a) s = execTimewait w a s := rfl
@[simp] theorem exec_tres (w : Bool) (d a b : BitVec 5) (s : State) : exec (.tres w d a b) s = execTres w d a b s := rfl
@[simp] theorem exec_ctxsave (w : Bool) (d a b : BitVec 5) (s : State) : exec (.ctxsave w d a b) s = execCtxsave w d a b s := rfl
@[simp] theorem exec_ctxload (w : Bool) (d a b : BitVec 5) (s : State) : exec (.ctxload w d a b) s = execCtxload w d a b s := rfl
@[simp] theorem exec_tlbinvPage (w : Bool) (a b : BitVec 5) (s : State) : exec (.tlbinvPage w a b) s = execTlbinvPage w a b s := rfl
@[simp] theorem exec_tlbinvPartition (w : Bool) (a b : BitVec 5) (s : State) : exec (.tlbinvPartition w a b) s = execTlbinvPartition w a b s := rfl
@[simp] theorem exec_slotctlHold (w : Bool) (a b : BitVec 5) (s : State) : exec (.slotctlHold w a b) s = execSlotctlHold w a b s := rfl
@[simp] theorem exec_slotctlRelease (w : Bool) (a b : BitVec 5) (s : State) : exec (.slotctlRelease w a b) s = execSlotctlRelease w a b s := rfl
@[simp] theorem exec_slotctlKill (w : Bool) (a b : BitVec 5) (s : State) : exec (.slotctlKill w a b) s = execSlotctlKill w a b s := rfl
@[simp] theorem exec_slotctlDebug (w : Bool) (a b : BitVec 5) (s : State) : exec (.slotctlDebug w a b) s = execSlotctlDebug w a b s := rfl
@[simp] theorem exec_slotctlPool (w : Bool) (a b : BitVec 5) (s : State) : exec (.slotctlPool w a b) s = execSlotctlPool w a b s := rfl
@[simp] theorem exec_wakepThread (w : Bool) (a : BitVec 5) (s : State) : exec (.wakepThread w a) s = execWakepThread w a s := rfl
@[simp] theorem exec_wakepAgent (w : Bool) (a : BitVec 5) (s : State) : exec (.wakepAgent w a) s = execWakepAgent w a s := rfl
@[simp] theorem exec_vectorSequencerStart (core : Nat) (s : State) : exec (.vectorSequencerStart core) s = execVectorSequencerStart core s := rfl
@[simp] theorem exec_longLatencyResultLand (slot n : Nat) (s : State) : exec (.longLatencyResultLand slot n) s = execLongLatencyResultLand slot n s := rfl
@[simp] theorem exec_trapRecordDeferredWrite (cluster : Nat) (s : State) : exec (.trapRecordDeferredWrite cluster) s = execTrapRecordDeferredWrite cluster s := rfl
@[simp] theorem exec_springDispatch (cluster : Nat) (s : State) : exec (.springDispatch cluster) s = execSpringDispatch cluster s := rfl
@[simp] theorem exec_gangJoinRelease (quad slot : Nat) (s : State) : exec (.gangJoinRelease quad slot) s = execGangJoinRelease quad slot s := rfl
@[simp] theorem exec_gangOpStart (quad : Nat) (s : State) : exec (.gangOpStart quad) s = execGangOpStart quad s := rfl
@[simp] theorem exec_gangKstepEnd (quad : Nat) (s : State) : exec (.gangKstepEnd quad) s = execGangKstepEnd quad s := rfl
@[simp] theorem exec_gangOpComplete (quad : Nat) (s : State) : exec (.gangOpComplete quad) s = execGangOpComplete quad s := rfl
@[simp] theorem exec_mstDrainStart (core : Nat) (s : State) : exec (.mstDrainStart core) s = execMstDrainStart core s := rfl
@[simp] theorem exec_mstComplete (core : Nat) (s : State) : exec (.mstComplete core) s = execMstComplete core s := rfl
@[simp] theorem exec_leaseHomeRecord (line : Nat) (s : State) : exec (.leaseHomeRecord line) s = execLeaseHomeRecord line s := rfl
@[simp] theorem exec_leaseExpire (slot : Nat) (s : State) : exec (.leaseExpire slot) s = execLeaseExpire slot s := rfl
@[simp] theorem exec_vwaitPass (slot : Nat) (s : State) : exec (.vwaitPass slot) s = execVwaitPass slot s := rfl
@[simp] theorem exec_vwaitTimeout (slot : Nat) (s : State) : exec (.vwaitTimeout slot) s = execVwaitTimeout slot s := rfl
@[simp] theorem exec_barrierRelease (bkey : Nat) (s : State) : exec (.barrierRelease bkey) s = execBarrierRelease bkey s := rfl
@[simp] theorem exec_timewaitEnd (slot : Nat) (s : State) : exec (.timewaitEnd slot) s = execTimewaitEnd slot s := rfl
@[simp] theorem exec_scPerform (s : State) : exec (.scPerform) s = execScPerform s := rfl
@[simp] theorem exec_copyEngineEntry (unit : Nat) (s : State) : exec (.copyEngineEntry unit) s = execCopyEngineEntry unit s := rfl
@[simp] theorem exec_engineEntryComplete (id : Nat) (s : State) : exec (.engineEntryComplete id) s = execEngineEntryComplete id s := rfl
@[simp] theorem exec_collMatch (key : BitVec 64) (s : State) : exec (.collMatch key) s = execCollMatch key s := rfl
@[simp] theorem exec_marchEntryTake (cluster : Nat) (s : State) : exec (.marchEntryTake cluster) s = execMarchEntryTake cluster s := rfl
@[simp] theorem exec_marchStep (cluster id ray : Nat) (s : State) : exec (.marchStep cluster id ray) s = execMarchStep cluster id ray s := rfl
@[simp] theorem exec_marchEntryComplete (cluster id : Nat) (s : State) : exec (.marchEntryComplete cluster id) s = execMarchEntryComplete cluster id s := rfl
@[simp] theorem exec_meshTri (die q : Nat) (s : State) : exec (.meshTri die q) s = execMeshTri die q s := rfl
@[simp] theorem exec_meshEnd (die q : Nat) (s : State) : exec (.meshEnd die q) s = execMeshEnd die q s := rfl
@[simp] theorem exec_tileJob (cluster q : Nat) (s : State) : exec (.tileJob cluster q) s = execTileJob cluster q s := rfl
@[simp] theorem exec_tileMark (cluster q : Nat) (s : State) : exec (.tileMark cluster q) s = execTileMark cluster q s := rfl
@[simp] theorem exec_binRender (cluster : Nat) (s : State) : exec (.binRender cluster) s = execBinRender cluster s := rfl
@[simp] theorem exec_tileSpill (cluster : Nat) (s : State) : exec (.tileSpill cluster) s = execTileSpill cluster s := rfl
@[simp] theorem exec_fragmentWrite (cluster : Nat) (s : State) : exec (.fragmentWrite cluster) s = execFragmentWrite cluster s := rfl
@[simp] theorem exec_tileWriteback (cluster tile : Nat) (s : State) : exec (.tileWriteback cluster tile) s = execTileWriteback cluster tile s := rfl
@[simp] theorem exec_blendOrdered (cluster q : Nat) (s : State) : exec (.blendOrdered cluster q) s = execBlendOrdered cluster q s := rfl
@[simp] theorem exec_blendApply (cluster n : Nat) (s : State) : exec (.blendApply cluster n) s = execBlendApply cluster n s := rfl
@[simp] theorem exec_blendDirect (cluster q : Nat) (s : State) : exec (.blendDirect cluster q) s = execBlendDirect cluster q s := rfl
@[simp] theorem exec_frameDone (frame : Nat) (s : State) : exec (.frameDone frame) s = execFrameDone frame s := rfl
@[simp] theorem exec_frameUnbind (frame : Nat) (s : State) : exec (.frameUnbind frame) s = execFrameUnbind frame s := rfl
@[simp] theorem exec_doorbell (part q : Nat) (value : BitVec 64) (s : State) : exec (.doorbell part q value) s = execDoorbell part q value s := rfl
@[simp] theorem exec_packetNop (part q : Nat) (s : State) : exec (.packetNop part q) s = execPacketNop part q s := rfl
@[simp] theorem exec_packetLaunch (part q : Nat) (s : State) : exec (.packetLaunch part q) s = execPacketLaunch part q s := rfl
@[simp] theorem exec_packetBarrier (part q : Nat) (s : State) : exec (.packetBarrier part q) s = execPacketBarrier part q s := rfl
@[simp] theorem exec_packetCopy (part q : Nat) (s : State) : exec (.packetCopy part q) s = execPacketCopy part q s := rfl
@[simp] theorem exec_packetSignal (part q : Nat) (s : State) : exec (.packetSignal part q) s = execPacketSignal part q s := rfl
@[simp] theorem exec_packetFrame (part q : Nat) (s : State) : exec (.packetFrame part q) s = execPacketFrame part q s := rfl
@[simp] theorem exec_barrierEvaluate (part q : Nat) (s : State) : exec (.barrierEvaluate part q) s = execBarrierEvaluate part q s := rfl
@[simp] theorem exec_launchDispatch (part : Nat) (s : State) : exec (.launchDispatch part) s = execLaunchDispatch part s := rfl
@[simp] theorem exec_launchComplete (launch : Nat) (s : State) : exec (.launchComplete launch) s = execLaunchComplete launch s := rfl
@[simp] theorem exec_preemption (part : Nat) (s : State) : exec (.preemption part) s = execPreemption part s := rfl
@[simp] theorem exec_queueReset (part q : Nat) (s : State) : exec (.queueReset part q) s = execQueueReset part q s := rfl
@[simp] theorem exec_engineReset (part kind unit : Nat) (s : State) : exec (.engineReset part kind unit) s = execEngineReset part kind unit s := rfl
@[simp] theorem exec_resetPartition (part : Nat) (s : State) : exec (.resetPartition part) s = execResetPartition part s := rfl
@[simp] theorem exec_resetDie (die : Nat) (s : State) : exec (.resetDie die) s = execResetDie die s := rfl
@[simp] theorem exec_dieResetReturn (die : Nat) (s : State) : exec (.dieResetReturn die) s = execDieResetReturn die s := rfl
@[simp] theorem exec_resetFunction (wipe : Bool) (s : State) : exec (.resetFunction wipe) s = execResetFunction wipe s := rfl
@[simp] theorem exec_resetDevice (s : State) : exec (.resetDevice) s = execResetDevice s := rfl
@[simp] theorem exec_powerUp (s : State) : exec (.powerUp) s = execPowerUp s := rfl
@[simp] theorem exec_seal (s : State) : exec (.seal) s = execSeal s := rfl
@[simp] theorem exec_sealComplete (s : State) : exec (.sealComplete) s = execSealComplete s := rfl
@[simp] theorem exec_restore (s : State) : exec (.restore) s = execRestore s := rfl
@[simp] theorem exec_thermalTrip (s : State) : exec (.thermalTrip) s = execThermalTrip s := rfl
@[simp] theorem exec_powerLimitThrottle (s : State) : exec (.powerLimitThrottle) s = execPowerLimitThrottle s := rfl
@[simp] theorem exec_mboxReport (s : State) : exec (.mboxReport) s = execMboxReport s := rfl
@[simp] theorem exec_mboxCert (s : State) : exec (.mboxCert) s = execMboxCert s := rfl
@[simp] theorem exec_mboxLifecycle (s : State) : exec (.mboxLifecycle) s = execMboxLifecycle s := rfl
@[simp] theorem exec_mboxLoadspring (s : State) : exec (.mboxLoadspring) s = execMboxLoadspring s := rfl
@[simp] theorem exec_mboxKeyxfer (s : State) : exec (.mboxKeyxfer) s = execMboxKeyxfer s := rfl
@[simp] theorem exec_mboxKeyrecv (s : State) : exec (.mboxKeyrecv) s = execMboxKeyrecv s := rfl
@[simp] theorem exec_codeLoad (part handle : Nat) (s : State) : exec (.codeLoad part handle) s = execCodeLoad part handle s := rfl
@[simp] theorem exec_codeUnload (part handle : Nat) (s : State) : exec (.codeUnload part handle) s = execCodeUnload part handle s := rfl
@[simp] theorem exec_codeUnloadForce (part handle : Nat) (s : State) : exec (.codeUnloadForce part handle) s = execCodeUnloadForce part handle s := rfl
@[simp] theorem exec_registerWrite (off n : Nat) (value : BitVec 64) (s : State) : exec (.registerWrite off n value) s = execRegisterWrite off n value s := rfl
@[simp] theorem exec_hostBar2Access (fn off n : Nat) (data : Option (BitVec 64)) (s : State) : exec (.hostBar2Access fn off n data) s = execHostBar2Access fn off n data s := rfl
@[simp] theorem exec_tarnLaneFail (link : Nat) (s : State) : exec (.tarnLaneFail link) s = execTarnLaneFail link s := rfl
@[simp] theorem exec_podTimeSync (time : BitVec 64) (s : State) : exec (.podTimeSync time) s = execPodTimeSync time s := rfl
@[simp] theorem exec_hotnessEpochEnd (s : State) : exec (.hotnessEpochEnd) s = execHotnessEpochEnd s := rfl
@[simp] theorem exec_patrolScrub (addr : Nat) (s : State) : exec (.patrolScrub addr) s = execPatrolScrub addr s := rfl
@[simp] theorem exec_illegalInstructionWord (word : BitVec 32) (s : State) : exec (.illegalInstructionWord word) s = execIllegalInstructionWord word s := rfl
@[simp] theorem exec_instructionFetchFault (s : State) : exec (.instructionFetchFault) s = execInstructionFetchFault s := rfl
@[simp] theorem exec_accessPerformed (core : Nat) (s : State) : exec (.accessPerformed core) s = execAccessPerformed core s := rfl
@[simp] theorem exec_strmLineEviction (core line : Nat) (s : State) : exec (.strmLineEviction core line) s = execStrmLineEviction core line s := rfl
@[simp] theorem exec_mixtrapRecordDrop (line : Nat) (s : State) : exec (.mixtrapRecordDrop line) s = execMixtrapRecordDrop line s := rfl
@[simp] theorem exec_softError (kind loc : Nat) (fatal : Bool) (s : State) : exec (.softError kind loc fatal) s = execSoftError kind loc fatal s := rfl
@[simp] theorem exec_accessFromAnotherPackage (addr n : Nat) (data : Option (BitVec 64)) (s : State) : exec (.accessFromAnotherPackage addr n data) s = execAccessFromAnotherPackage addr n data s := rfl
@[simp] theorem exec_tarnLinkLoss (link : Nat) (s : State) : exec (.tarnLinkLoss link) s = execTarnLinkLoss link s := rfl
@[simp] theorem exec_tarnLinkTraining (link farPkg : Nat) (s : State) : exec (.tarnLinkTraining link farPkg) s = execTarnLinkTraining link farPkg s := rfl

end Sys2Proof.Machine
end

