-- ==== Sys2Proof/Laws/PerInstr.lean ====
section
/-! SUPPORT. For every constructor: the decoder, on the fields the encoder gives a well-formed instruction, gives that instruction back
(R59 to R70). -/
set_option linter.unusedSimpArgs false
namespace Sys2Proof.Laws
open Sys2Proof
set_option Elab.async false

/-- The fields that encode a well-formed instruction decode to it. -/
def Fields.Statement (i : Instr) : Prop :=
  i.wf = true → ∀ f, i.fields = some f → decodeFields f (i.payload.getD 0) = some i.canon

theorem Fields.major_decodeAlu (f : Fields) (p : BitVec 32) (h : f.maj = 0x01#6) : decodeFields f p = decodeAlu f := by
  simp [decodeFields, h]

theorem Fields.major_decodeShiftImm (f : Fields) (p : BitVec 32) (h : f.maj = 0x06#6) : decodeFields f p = decodeShiftImm f := by
  simp [decodeFields, h]

theorem Fields.major_decodeMulDiv (f : Fields) (p : BitVec 32) (h : f.maj = 0x0B#6) : decodeFields f p = decodeMulDiv f := by
  simp [decodeFields, h]

theorem Fields.major_decodeBitOp (f : Fields) (p : BitVec 32) (h : f.maj = 0x0C#6) : decodeFields f p = decodeBitOp f := by
  simp [decodeFields, h]

theorem Fields.major_decodeLoad (f : Fields) (p : BitVec 32) (h : f.maj = 0x10#6) : decodeFields f p = decodeLoad f := by
  simp [decodeFields, h]

theorem Fields.major_decodeStore (f : Fields) (p : BitVec 32) (h : f.maj = 0x11#6) : decodeFields f p = decodeStore f := by
  simp [decodeFields, h]

theorem Fields.major_decodeScoped (f : Fields) (p : BitVec 32) (h : f.maj = 0x12#6) : decodeFields f p = decodeScoped f := by
  simp [decodeFields, h]

theorem Fields.major_decodeAmo (f : Fields) (p : BitVec 32) (h : f.maj = 0x13#6) : decodeFields f p = decodeAmo f := by
  simp [decodeFields, h]

theorem Fields.major_decodeFence (f : Fields) (p : BitVec 32) (h : f.maj = 0x14#6) : decodeFields f p = decodeFence f := by
  simp [decodeFields, h]

theorem Fields.major_decodeWait (f : Fields) (p : BitVec 32) (h : f.maj = 0x15#6) : decodeFields f p = decodeWait f := by
  simp [decodeFields, h]

theorem Fields.major_decodeVConf (f : Fields) (p : BitVec 32) (h : f.maj = 0x20#6) : decodeFields f p = decodeVConf f := by
  simp [decodeFields, h]

theorem Fields.major_decodeVInt (f : Fields) (p : BitVec 32) (h : f.maj = 0x21#6) : decodeFields f p = decodeVInt f := by
  simp [decodeFields, h]

theorem Fields.major_decodeVFloat (f : Fields) (p : BitVec 32) (h : f.maj = 0x22#6) : decodeFields f p = decodeVFloat f := by
  simp [decodeFields, h]

theorem Fields.major_decodeVCvt (f : Fields) (p : BitVec 32) (h : f.maj = 0x23#6) : decodeFields f p = decodeVCvt f := by
  simp [decodeFields, h]

theorem Fields.major_decodeVPerm (f : Fields) (p : BitVec 32) (h : f.maj = 0x24#6) : decodeFields f p = decodeVPerm f := by
  simp [decodeFields, h]

theorem Fields.major_decodeVMask (f : Fields) (p : BitVec 32) (h : f.maj = 0x25#6) : decodeFields f p = decodeVMask f := by
  simp [decodeFields, h]

theorem Fields.major_decodeVLoad (f : Fields) (p : BitVec 32) (h : f.maj = 0x26#6) : decodeFields f p = decodeVLoad f := by
  simp [decodeFields, h]

theorem Fields.major_decodeVStore (f : Fields) (p : BitVec 32) (h : f.maj = 0x27#6) : decodeFields f p = decodeVStore f := by
  simp [decodeFields, h]

theorem Fields.major_decodeVLink (f : Fields) (p : BitVec 32) (h : f.maj = 0x28#6) : decodeFields f p = decodeVLink f := by
  simp [decodeFields, h]

theorem Fields.major_decodeVScalar (f : Fields) (p : BitVec 32) (h : f.maj = 0x29#6) : decodeFields f p = decodeVScalar f := by
  simp [decodeFields, h]

theorem Fields.major_decodeMatrix (f : Fields) (p : BitVec 32) (h : f.maj = 0x2C#6) : decodeFields f p = decodeMatrix f := by
  simp [decodeFields, h]

theorem Fields.major_decodeAcc (f : Fields) (p : BitVec 32) (h : f.maj = 0x2D#6) : decodeFields f p = decodeAcc f := by
  simp [decodeFields, h]

theorem Fields.major_decodeSample (f : Fields) (p : BitVec 32) (h : f.maj = 0x30#6) : decodeFields f p = decodeSample f := by
  simp [decodeFields, h]

theorem Fields.major_decodeBvh (f : Fields) (p : BitVec 32) (h : f.maj = 0x31#6) : decodeFields f p = decodeBvh f := by
  simp [decodeFields, h]

theorem Fields.major_decodeQPush (f : Fields) (p : BitVec 32) (h : f.maj = 0x33#6) : decodeFields f p = decodeQPush f := by
  simp [decodeFields, h]

theorem Fields.major_decodeEngine (f : Fields) (p : BitVec 32) (h : f.maj = 0x38#6) : decodeFields f p = decodeEngine f := by
  simp [decodeFields, h]

theorem Fields.major_decodeIdent (f : Fields) (p : BitVec 32) (h : f.maj = 0x39#6) : decodeFields f p = decodeIdent f := by
  simp [decodeFields, h]

theorem Fields.major_decodeCtl (f : Fields) (p : BitVec 32) (h : f.maj = 0x3A#6) : decodeFields f p = decodeCtl f := by
  simp [decodeFields, h]

theorem Fields.major_decodeSup (f : Fields) (p : BitVec 32) (h : f.maj = 0x3B#6) : decodeFields f p = decodeSup f := by
  simp [decodeFields, h]

theorem Fields.major_decodeXl (f : Fields) (p : BitVec 32) (h : f.maj = 0x3F#6) : decodeFields f p = decodeXl f p := by
  simp [decodeFields, h]

theorem Fields.add (w : Bool) (d a b : BitVec 5) : Fields.Statement (.add w d a b) := by
  intro _ f h; cases h
  rw [Fields.major_decodeAlu _ _ rfl]
  simp [decodeAlu, Instr.canon, decodeH]

theorem Fields.sub (w : Bool) (d a b : BitVec 5) : Fields.Statement (.sub w d a b) := by
  intro _ f h; cases h
  rw [Fields.major_decodeAlu _ _ rfl]
  simp [decodeAlu, Instr.canon, decodeH]

theorem Fields.and (w : Bool) (d a b : BitVec 5) : Fields.Statement (.and w d a b) := by
  intro _ f h; cases h
  rw [Fields.major_decodeAlu _ _ rfl]
  simp [decodeAlu, Instr.canon, decodeH]

theorem Fields.or (w : Bool) (d a b : BitVec 5) : Fields.Statement (.or w d a b) := by
  intro _ f h; cases h
  rw [Fields.major_decodeAlu _ _ rfl]
  simp [decodeAlu, Instr.canon, decodeH]

theorem Fields.xor (w : Bool) (d a b : BitVec 5) : Fields.Statement (.xor w d a b) := by
  intro _ f h; cases h
  rw [Fields.major_decodeAlu _ _ rfl]
  simp [decodeAlu, Instr.canon, decodeH]

theorem Fields.sll (w : Bool) (d a b : BitVec 5) : Fields.Statement (.sll w d a b) := by
  intro _ f h; cases h
  rw [Fields.major_decodeAlu _ _ rfl]
  simp [decodeAlu, Instr.canon, decodeH]

theorem Fields.srl (w : Bool) (d a b : BitVec 5) : Fields.Statement (.srl w d a b) := by
  intro _ f h; cases h
  rw [Fields.major_decodeAlu _ _ rfl]
  simp [decodeAlu, Instr.canon, decodeH]

theorem Fields.sra (w : Bool) (d a b : BitVec 5) : Fields.Statement (.sra w d a b) := by
  intro _ f h; cases h
  rw [Fields.major_decodeAlu _ _ rfl]
  simp [decodeAlu, Instr.canon, decodeH]

theorem Fields.slt (w : Bool) (d a b : BitVec 5) : Fields.Statement (.slt w d a b) := by
  intro _ f h; cases h
  rw [Fields.major_decodeAlu _ _ rfl]
  simp [decodeAlu, Instr.canon, decodeH]

theorem Fields.sltn (w : Bool) (d a b : BitVec 5) : Fields.Statement (.sltn w d a b) := by
  intro _ f h; cases h
  rw [Fields.major_decodeAlu _ _ rfl]
  simp [decodeAlu, Instr.canon, decodeH]

theorem Fields.min (w : Bool) (d a b : BitVec 5) : Fields.Statement (.min w d a b) := by
  intro _ f h; cases h
  rw [Fields.major_decodeAlu _ _ rfl]
  simp [decodeAlu, Instr.canon, decodeH]

theorem Fields.max (w : Bool) (d a b : BitVec 5) : Fields.Statement (.max w d a b) := by
  intro _ f h; cases h
  rw [Fields.major_decodeAlu _ _ rfl]
  simp [decodeAlu, Instr.canon, decodeH]

theorem Fields.minn (w : Bool) (d a b : BitVec 5) : Fields.Statement (.minn w d a b) := by
  intro _ f h; cases h
  rw [Fields.major_decodeAlu _ _ rfl]
  simp [decodeAlu, Instr.canon, decodeH]

theorem Fields.maxn (w : Bool) (d a b : BitVec 5) : Fields.Statement (.maxn w d a b) := by
  intro _ f h; cases h
  rw [Fields.major_decodeAlu _ _ rfl]
  simp [decodeAlu, Instr.canon, decodeH]

theorem Fields.addw (w : Bool) (d a b : BitVec 5) : Fields.Statement (.addw w d a b) := by
  intro _ f h; cases h
  rw [Fields.major_decodeAlu _ _ rfl]
  simp [decodeAlu, Instr.canon, decodeH]

theorem Fields.subw (w : Bool) (d a b : BitVec 5) : Fields.Statement (.subw w d a b) := by
  intro _ f h; cases h
  rw [Fields.major_decodeAlu _ _ rfl]
  simp [decodeAlu, Instr.canon, decodeH]

theorem Fields.sllw (w : Bool) (d a b : BitVec 5) : Fields.Statement (.sllw w d a b) := by
  intro _ f h; cases h
  rw [Fields.major_decodeAlu _ _ rfl]
  simp [decodeAlu, Instr.canon, decodeH]

theorem Fields.srlw (w : Bool) (d a b : BitVec 5) : Fields.Statement (.srlw w d a b) := by
  intro _ f h; cases h
  rw [Fields.major_decodeAlu _ _ rfl]
  simp [decodeAlu, Instr.canon, decodeH]

theorem Fields.sraw (w : Bool) (d a b : BitVec 5) : Fields.Statement (.sraw w d a b) := by
  intro _ f h; cases h
  rw [Fields.major_decodeAlu _ _ rfl]
  simp [decodeAlu, Instr.canon, decodeH]

theorem Fields.aluH (w : Bool) (d a b : BitVec 5) (p : BitVec 8) : Fields.Statement (.aluH w d a b p) := by
  intro hw f h; cases h
  rw [Fields.major_decodeAlu _ _ rfl]
  have h : (BitVec.extractLsb' (n := 10) 6 3 (2#2 ++ p)).toNat < 4 := by clear hw; revert p; decide
  simp [-BitVec.extractLsb'_toNat, decodeAlu, Instr.canon, decodeH]
  split <;> first | rfl | omega

theorem Fields.addiH (w : Bool) (d a : BitVec 5) (i : BitVec 11) : Fields.Statement (.addiH w d a i) := by
  intro _ f h; cases h
  rw [Fields.major_decodeAlu _ _ rfl]
  simp [-BitVec.extractLsb'_toNat, decodeAlu, Instr.canon, decodeH]

theorem Fields.andiH (w : Bool) (d a : BitVec 5) (i : BitVec 11) : Fields.Statement (.andiH w d a i) := by
  intro _ f h; cases h
  rw [Fields.major_decodeAlu _ _ rfl]
  simp [-BitVec.extractLsb'_toNat, decodeAlu, Instr.canon, decodeH]

theorem Fields.oriH (w : Bool) (d a : BitVec 5) (i : BitVec 11) : Fields.Statement (.oriH w d a i) := by
  intro _ f h; cases h
  rw [Fields.major_decodeAlu _ _ rfl]
  simp [-BitVec.extractLsb'_toNat, decodeAlu, Instr.canon, decodeH]

theorem Fields.xoriH (w : Bool) (d a : BitVec 5) (i : BitVec 11) : Fields.Statement (.xoriH w d a i) := by
  intro _ f h; cases h
  rw [Fields.major_decodeAlu _ _ rfl]
  simp [-BitVec.extractLsb'_toNat, decodeAlu, Instr.canon, decodeH]

theorem Fields.addi (w : Bool) (d a : BitVec 5) (i : BitVec 15) : Fields.Statement (.addi w d a i) := by
  intro _ f h; cases h
  simp [decodeFields, Fields.imm15, Fields.imm20, Fields.off15, Instr.canon]

theorem Fields.andi (w : Bool) (d a : BitVec 5) (i : BitVec 15) : Fields.Statement (.andi w d a i) := by
  intro _ f h; cases h
  simp [decodeFields, Fields.imm15, Fields.imm20, Fields.off15, Instr.canon]

theorem Fields.ori (w : Bool) (d a : BitVec 5) (i : BitVec 15) : Fields.Statement (.ori w d a i) := by
  intro _ f h; cases h
  simp [decodeFields, Fields.imm15, Fields.imm20, Fields.off15, Instr.canon]

theorem Fields.xori (w : Bool) (d a : BitVec 5) (i : BitVec 15) : Fields.Statement (.xori w d a i) := by
  intro _ f h; cases h
  simp [decodeFields, Fields.imm15, Fields.imm20, Fields.off15, Instr.canon]

theorem Fields.slti (w : Bool) (d a : BitVec 5) (i : BitVec 15) : Fields.Statement (.slti w d a i) := by
  intro _ f h; cases h
  simp [decodeFields, Fields.imm15, Fields.imm20, Fields.off15, Instr.canon]

theorem Fields.sltni (w : Bool) (d a : BitVec 5) (i : BitVec 15) : Fields.Statement (.sltni w d a i) := by
  intro _ f h; cases h
  simp [decodeFields, Fields.imm15, Fields.imm20, Fields.off15, Instr.canon]

theorem Fields.addiL (w : Bool) (d a : BitVec 5) (i : BitVec 32) : Fields.Statement (.addiL w d a i) := by
  intro _ f h; cases h
  rw [Fields.major_decodeXl _ _ rfl]
  simp [-BitVec.extractLsb'_toNat, decodeXl, Instr.canon, Instr.payload]

theorem Fields.slli (w : Bool) (d a : BitVec 5) (s : BitVec 6) : Fields.Statement (.slli w d a s) := by
  intro _ f h; cases h
  rw [Fields.major_decodeShiftImm _ _ rfl]
  have h : (BitVec.extractLsb' (n := 15) 6 9 (0#5 ++ (0#4 ++ s))).toNat = 0 := (by decide : ∀ x : BitVec 6, (BitVec.extractLsb' (n := 15) 6 9 (0#5 ++ (0#4 ++ x))).toNat = 0) s
  simp [-BitVec.extractLsb'_toNat, decodeShiftImm, Fields.imm15, Instr.canon, h]

theorem Fields.srli (w : Bool) (d a : BitVec 5) (s : BitVec 6) : Fields.Statement (.srli w d a s) := by
  intro _ f h; cases h
  rw [Fields.major_decodeShiftImm _ _ rfl]
  have h : (BitVec.extractLsb' (n := 15) 6 9 (4#5 ++ (0#4 ++ s))).toNat = 64 := (by decide : ∀ x : BitVec 6, (BitVec.extractLsb' (n := 15) 6 9 (4#5 ++ (0#4 ++ x))).toNat = 64) s
  simp [-BitVec.extractLsb'_toNat, decodeShiftImm, Fields.imm15, Instr.canon, h]

theorem Fields.srai (w : Bool) (d a : BitVec 5) (s : BitVec 6) : Fields.Statement (.srai w d a s) := by
  intro _ f h; cases h
  rw [Fields.major_decodeShiftImm _ _ rfl]
  have h : (BitVec.extractLsb' (n := 15) 6 9 (8#5 ++ (0#4 ++ s))).toNat = 128 := (by decide : ∀ x : BitVec 6, (BitVec.extractLsb' (n := 15) 6 9 (8#5 ++ (0#4 ++ x))).toNat = 128) s
  simp [-BitVec.extractLsb'_toNat, decodeShiftImm, Fields.imm15, Instr.canon, h]

theorem Fields.slliw (w : Bool) (d a s : BitVec 5) : Fields.Statement (.slliw w d a s) := by
  intro _ f h; cases h
  rw [Fields.major_decodeShiftImm _ _ rfl]
  have h : (BitVec.extractLsb' (n := 15) 6 9 (12#5 ++ (0#5 ++ s))).toNat = 192 := (by decide : ∀ x : BitVec 5, (BitVec.extractLsb' (n := 15) 6 9 (12#5 ++ (0#5 ++ x))).toNat = 192) s
  simp [-BitVec.extractLsb'_toNat, decodeShiftImm, Fields.imm15, Instr.canon, h]

theorem Fields.srliw (w : Bool) (d a s : BitVec 5) : Fields.Statement (.srliw w d a s) := by
  intro _ f h; cases h
  rw [Fields.major_decodeShiftImm _ _ rfl]
  have h : (BitVec.extractLsb' (n := 15) 6 9 (16#5 ++ (0#5 ++ s))).toNat = 256 := (by decide : ∀ x : BitVec 5, (BitVec.extractLsb' (n := 15) 6 9 (16#5 ++ (0#5 ++ x))).toNat = 256) s
  simp [-BitVec.extractLsb'_toNat, decodeShiftImm, Fields.imm15, Instr.canon, h]

theorem Fields.sraiw (w : Bool) (d a s : BitVec 5) : Fields.Statement (.sraiw w d a s) := by
  intro _ f h; cases h
  rw [Fields.major_decodeShiftImm _ _ rfl]
  have h : (BitVec.extractLsb' (n := 15) 6 9 (20#5 ++ (0#5 ++ s))).toNat = 320 := (by decide : ∀ x : BitVec 5, (BitVec.extractLsb' (n := 15) 6 9 (20#5 ++ (0#5 ++ x))).toNat = 320) s
  simp [-BitVec.extractLsb'_toNat, decodeShiftImm, Fields.imm15, Instr.canon, h]

theorem Fields.rori (w : Bool) (d a : BitVec 5) (s : BitVec 6) : Fields.Statement (.rori w d a s) := by
  intro _ f h; cases h
  rw [Fields.major_decodeShiftImm _ _ rfl]
  have h : (BitVec.extractLsb' (n := 15) 6 9 (24#5 ++ (0#4 ++ s))).toNat = 384 := (by decide : ∀ x : BitVec 6, (BitVec.extractLsb' (n := 15) 6 9 (24#5 ++ (0#4 ++ x))).toNat = 384) s
  simp [-BitVec.extractLsb'_toNat, decodeShiftImm, Fields.imm15, Instr.canon, h]

theorem Fields.lui (w : Bool) (d : BitVec 5) (i : BitVec 20) : Fields.Statement (.lui w d i) := by
  intro _ f h; cases h
  simp [decodeFields, Fields.imm15, Fields.imm20, Fields.off15, Instr.canon]

theorem Fields.addpc (w : Bool) (d : BitVec 5) (i : BitVec 20) : Fields.Statement (.addpc w d i) := by
  intro _ f h; cases h
  simp [decodeFields, Fields.imm15, Fields.imm20, Fields.off15, Instr.canon]

theorem Fields.addpcL (w : Bool) (d : BitVec 5) (i : BitVec 32) : Fields.Statement (.addpcL w d i) := by
  intro _ f h; cases h
  rw [Fields.major_decodeXl _ _ rfl]
  simp [-BitVec.extractLsb'_toNat, decodeXl, Instr.canon, Instr.payload]

theorem Fields.mul (w : Bool) (d a b : BitVec 5) : Fields.Statement (.mul w d a b) := by
  intro _ f h; cases h
  rw [Fields.major_decodeMulDiv _ _ rfl]
  simp [decodeMulDiv, Instr.canon]

theorem Fields.mulh (w : Bool) (d a b : BitVec 5) : Fields.Statement (.mulh w d a b) := by
  intro _ f h; cases h
  rw [Fields.major_decodeMulDiv _ _ rfl]
  simp [decodeMulDiv, Instr.canon]

theorem Fields.mulhn (w : Bool) (d a b : BitVec 5) : Fields.Statement (.mulhn w d a b) := by
  intro _ f h; cases h
  rw [Fields.major_decodeMulDiv _ _ rfl]
  simp [decodeMulDiv, Instr.canon]

theorem Fields.mulhsn (w : Bool) (d a b : BitVec 5) : Fields.Statement (.mulhsn w d a b) := by
  intro _ f h; cases h
  rw [Fields.major_decodeMulDiv _ _ rfl]
  simp [decodeMulDiv, Instr.canon]

theorem Fields.div (w : Bool) (d a b : BitVec 5) : Fields.Statement (.div w d a b) := by
  intro _ f h; cases h
  rw [Fields.major_decodeMulDiv _ _ rfl]
  simp [decodeMulDiv, Instr.canon]

theorem Fields.divn (w : Bool) (d a b : BitVec 5) : Fields.Statement (.divn w d a b) := by
  intro _ f h; cases h
  rw [Fields.major_decodeMulDiv _ _ rfl]
  simp [decodeMulDiv, Instr.canon]

theorem Fields.rem (w : Bool) (d a b : BitVec 5) : Fields.Statement (.rem w d a b) := by
  intro _ f h; cases h
  rw [Fields.major_decodeMulDiv _ _ rfl]
  simp [decodeMulDiv, Instr.canon]

theorem Fields.remn (w : Bool) (d a b : BitVec 5) : Fields.Statement (.remn w d a b) := by
  intro _ f h; cases h
  rw [Fields.major_decodeMulDiv _ _ rfl]
  simp [decodeMulDiv, Instr.canon]

theorem Fields.mulw (w : Bool) (d a b : BitVec 5) : Fields.Statement (.mulw w d a b) := by
  intro _ f h; cases h
  rw [Fields.major_decodeMulDiv _ _ rfl]
  simp [decodeMulDiv, Instr.canon]

theorem Fields.divw (w : Bool) (d a b : BitVec 5) : Fields.Statement (.divw w d a b) := by
  intro _ f h; cases h
  rw [Fields.major_decodeMulDiv _ _ rfl]
  simp [decodeMulDiv, Instr.canon]

theorem Fields.divnw (w : Bool) (d a b : BitVec 5) : Fields.Statement (.divnw w d a b) := by
  intro _ f h; cases h
  rw [Fields.major_decodeMulDiv _ _ rfl]
  simp [decodeMulDiv, Instr.canon]

theorem Fields.remw (w : Bool) (d a b : BitVec 5) : Fields.Statement (.remw w d a b) := by
  intro _ f h; cases h
  rw [Fields.major_decodeMulDiv _ _ rfl]
  simp [decodeMulDiv, Instr.canon]

theorem Fields.remnw (w : Bool) (d a b : BitVec 5) : Fields.Statement (.remnw w d a b) := by
  intro _ f h; cases h
  rw [Fields.major_decodeMulDiv _ _ rfl]
  simp [decodeMulDiv, Instr.canon]

theorem Fields.clz (w : Bool) (d a : BitVec 5) : Fields.Statement (.clz w d a) := by
  intro _ f h; cases h
  rw [Fields.major_decodeBitOp _ _ rfl]
  simp [decodeBitOp, Instr.canon]

theorem Fields.ctz (w : Bool) (d a : BitVec 5) : Fields.Statement (.ctz w d a) := by
  intro _ f h; cases h
  rw [Fields.major_decodeBitOp _ _ rfl]
  simp [decodeBitOp, Instr.canon]

theorem Fields.popc (w : Bool) (d a : BitVec 5) : Fields.Statement (.popc w d a) := by
  intro _ f h; cases h
  rw [Fields.major_decodeBitOp _ _ rfl]
  simp [decodeBitOp, Instr.canon]

theorem Fields.brev (w : Bool) (d a : BitVec 5) : Fields.Statement (.brev w d a) := by
  intro _ f h; cases h
  rw [Fields.major_decodeBitOp _ _ rfl]
  simp [decodeBitOp, Instr.canon]

theorem Fields.bswap (w : Bool) (d a : BitVec 5) : Fields.Statement (.bswap w d a) := by
  intro _ f h; cases h
  rw [Fields.major_decodeBitOp _ _ rfl]
  simp [decodeBitOp, Instr.canon]

theorem Fields.rol (w : Bool) (d a b : BitVec 5) : Fields.Statement (.rol w d a b) := by
  intro _ f h; cases h
  rw [Fields.major_decodeBitOp _ _ rfl]
  simp [decodeBitOp, Instr.canon]

theorem Fields.ror (w : Bool) (d a b : BitVec 5) : Fields.Statement (.ror w d a b) := by
  intro _ f h; cases h
  rw [Fields.major_decodeBitOp _ _ rfl]
  simp [decodeBitOp, Instr.canon]

theorem Fields.sextb (w : Bool) (d a : BitVec 5) : Fields.Statement (.sextb w d a) := by
  intro _ f h; cases h
  rw [Fields.major_decodeBitOp _ _ rfl]
  simp [decodeBitOp, Instr.canon]

theorem Fields.sexth (w : Bool) (d a : BitVec 5) : Fields.Statement (.sexth w d a) := by
  intro _ f h; cases h
  rw [Fields.major_decodeBitOp _ _ rfl]
  simp [decodeBitOp, Instr.canon]

theorem Fields.sextw (w : Bool) (d a : BitVec 5) : Fields.Statement (.sextw w d a) := by
  intro _ f h; cases h
  rw [Fields.major_decodeBitOp _ _ rfl]
  simp [decodeBitOp, Instr.canon]

theorem Fields.zextw (w : Bool) (d a : BitVec 5) : Fields.Statement (.zextw w d a) := by
  intro _ f h; cases h
  rw [Fields.major_decodeBitOp _ _ rfl]
  simp [decodeBitOp, Instr.canon]

theorem Fields.bext (w : Bool) (d a b : BitVec 5) : Fields.Statement (.bext w d a b) := by
  intro _ f h; cases h
  rw [Fields.major_decodeBitOp _ _ rfl]
  simp [decodeBitOp, Instr.canon]

theorem Fields.bdep (w : Bool) (d a b : BitVec 5) : Fields.Statement (.bdep w d a b) := by
  intro _ f h; cases h
  rw [Fields.major_decodeBitOp _ _ rfl]
  simp [decodeBitOp, Instr.canon]

theorem Fields.clzw (w : Bool) (d a : BitVec 5) : Fields.Statement (.clzw w d a) := by
  intro _ f h; cases h
  rw [Fields.major_decodeBitOp _ _ rfl]
  simp [decodeBitOp, Instr.canon]

theorem Fields.ctzw (w : Bool) (d a : BitVec 5) : Fields.Statement (.ctzw w d a) := by
  intro _ f h; cases h
  rw [Fields.major_decodeBitOp _ _ rfl]
  simp [decodeBitOp, Instr.canon]

theorem Fields.popcw (w : Bool) (d a : BitVec 5) : Fields.Statement (.popcw w d a) := by
  intro _ f h; cases h
  rw [Fields.major_decodeBitOp _ _ rfl]
  simp [decodeBitOp, Instr.canon]

theorem Fields.tid (w : Bool) (d : BitVec 5) : Fields.Statement (.tid w d) := by
  intro _ f h; cases h
  rw [Fields.major_decodeIdent _ _ rfl]
  simp [decodeIdent, Instr.canon]

theorem Fields.place (w : Bool) (d : BitVec 5) : Fields.Statement (.place w d) := by
  intro _ f h; cases h
  rw [Fields.major_decodeIdent _ _ rfl]
  simp [decodeIdent, Instr.canon]

theorem Fields.lsize (w : Bool) (d : BitVec 5) : Fields.Statement (.lsize w d) := by
  intro _ f h; cases h
  rw [Fields.major_decodeIdent _ _ rfl]
  simp [decodeIdent, Instr.canon]

theorem Fields.lb (w : Bool) (d a : BitVec 5) (o : BitVec 2) (i : BitVec 10) : Fields.Statement (.lb w d a o i) := by
  intro hw f h; cases h
  rw [Fields.major_decodeLoad _ _ rfl]
  simp [-BitVec.extractLsb'_toNat, decodeLoad, Instr.canon]

theorem Fields.lh (w : Bool) (d a : BitVec 5) (o : BitVec 2) (i : BitVec 10) : Fields.Statement (.lh w d a o i) := by
  intro hw f h; cases h
  rw [Fields.major_decodeLoad _ _ rfl]
  simp [-BitVec.extractLsb'_toNat, decodeLoad, Instr.canon]

theorem Fields.lw (w : Bool) (d a : BitVec 5) (o : BitVec 2) (i : BitVec 10) : Fields.Statement (.lw w d a o i) := by
  intro hw f h; cases h
  rw [Fields.major_decodeLoad _ _ rfl]
  simp [-BitVec.extractLsb'_toNat, decodeLoad, Instr.canon]

theorem Fields.ld (w : Bool) (d a : BitVec 5) (o : BitVec 2) (i : BitVec 10) : Fields.Statement (.ld w d a o i) := by
  intro hw f h; cases h
  rw [Fields.major_decodeLoad _ _ rfl]
  simp [-BitVec.extractLsb'_toNat, decodeLoad, Instr.canon]

theorem Fields.lbn (w : Bool) (d a : BitVec 5) (o : BitVec 2) (i : BitVec 10) : Fields.Statement (.lbn w d a o i) := by
  intro hw f h; cases h
  rw [Fields.major_decodeLoad _ _ rfl]
  simp [-BitVec.extractLsb'_toNat, decodeLoad, Instr.canon]

theorem Fields.lhn (w : Bool) (d a : BitVec 5) (o : BitVec 2) (i : BitVec 10) : Fields.Statement (.lhn w d a o i) := by
  intro hw f h; cases h
  rw [Fields.major_decodeLoad _ _ rfl]
  simp [-BitVec.extractLsb'_toNat, decodeLoad, Instr.canon]

theorem Fields.lwn (w : Bool) (d a : BitVec 5) (o : BitVec 2) (i : BitVec 10) : Fields.Statement (.lwn w d a o i) := by
  intro hw f h; cases h
  rw [Fields.major_decodeLoad _ _ rfl]
  simp [-BitVec.extractLsb'_toNat, decodeLoad, Instr.canon]

theorem Fields.sb (w : Bool) (o : BitVec 2) (a b : BitVec 5) (i : BitVec 10) : Fields.Statement (.sb w o a b i) := by
  intro hw f h; cases h
  rw [Fields.major_decodeStore _ _ rfl]
  simp [-BitVec.extractLsb'_toNat, decodeStore, Instr.canon]

theorem Fields.sh (w : Bool) (o : BitVec 2) (a b : BitVec 5) (i : BitVec 10) : Fields.Statement (.sh w o a b i) := by
  intro hw f h; cases h
  rw [Fields.major_decodeStore _ _ rfl]
  simp [-BitVec.extractLsb'_toNat, decodeStore, Instr.canon]

theorem Fields.sw (w : Bool) (o : BitVec 2) (a b : BitVec 5) (i : BitVec 10) : Fields.Statement (.sw w o a b i) := by
  intro hw f h; cases h
  rw [Fields.major_decodeStore _ _ rfl]
  simp [-BitVec.extractLsb'_toNat, decodeStore, Instr.canon]

theorem Fields.sd (w : Bool) (o : BitVec 2) (a b : BitVec 5) (i : BitVec 10) : Fields.Statement (.sd w o a b i) := by
  intro hw f h; cases h
  rw [Fields.major_decodeStore _ _ rfl]
  simp [-BitVec.extractLsb'_toNat, decodeStore, Instr.canon]

theorem Fields.loadScoped (w : Bool) (d a : BitVec 5) (s : BitVec 3) (o : BitVec 5) : Fields.Statement (.loadScoped w d a s o) := by
  intro hw f h; cases h
  rw [Fields.major_decodeScoped _ _ rfl]
  simp [-BitVec.extractLsb'_toNat, decodeScoped, Instr.canon]

theorem Fields.storeScoped (w : Bool) (a b : BitVec 5) (s : BitVec 2) (o : BitVec 5) : Fields.Statement (.storeScoped w a b s o) := by
  intro hw f h; cases h
  rw [Fields.major_decodeScoped _ _ rfl]
  simp [-BitVec.extractLsb'_toNat, decodeScoped, Instr.canon]

theorem Fields.beq (w : Bool) (o : BitVec 15) (a b : BitVec 5) : Fields.Statement (.beq w o a b) := by
  intro _ f h; cases h
  simp [decodeFields, Fields.imm15, Fields.imm20, Fields.off15, Instr.canon]

theorem Fields.bne (w : Bool) (o : BitVec 15) (a b : BitVec 5) : Fields.Statement (.bne w o a b) := by
  intro _ f h; cases h
  simp [decodeFields, Fields.imm15, Fields.imm20, Fields.off15, Instr.canon]

theorem Fields.blt (w : Bool) (o : BitVec 15) (a b : BitVec 5) : Fields.Statement (.blt w o a b) := by
  intro _ f h; cases h
  simp [decodeFields, Fields.imm15, Fields.imm20, Fields.off15, Instr.canon]

theorem Fields.bge (w : Bool) (o : BitVec 15) (a b : BitVec 5) : Fields.Statement (.bge w o a b) := by
  intro _ f h; cases h
  simp [decodeFields, Fields.imm15, Fields.imm20, Fields.off15, Instr.canon]

theorem Fields.bltn (w : Bool) (o : BitVec 15) (a b : BitVec 5) : Fields.Statement (.bltn w o a b) := by
  intro _ f h; cases h
  simp [decodeFields, Fields.imm15, Fields.imm20, Fields.off15, Instr.canon]

theorem Fields.bgen (w : Bool) (o : BitVec 15) (a b : BitVec 5) : Fields.Statement (.bgen w o a b) := by
  intro _ f h; cases h
  simp [decodeFields, Fields.imm15, Fields.imm20, Fields.off15, Instr.canon]

theorem Fields.call (w : Bool) (d : BitVec 5) (o : BitVec 20) : Fields.Statement (.call w d o) := by
  intro _ f h; cases h
  simp [decodeFields, Fields.imm15, Fields.imm20, Fields.off15, Instr.canon]

theorem Fields.callr (w : Bool) (d a : BitVec 5) (i : BitVec 15) : Fields.Statement (.callr w d a i) := by
  intro _ f h; cases h
  simp [decodeFields, Fields.imm15, Fields.imm20, Fields.off15, Instr.canon]

theorem Fields.amoadd (w : Bool) (d a b : BitVec 5) (z : BitVec 1) (o : BitVec 5) : Fields.Statement (.amoadd w d a b z o) := by
  intro hw f h; cases h
  rw [Fields.major_decodeAmo _ _ rfl]
  simp [-BitVec.extractLsb'_toNat, decodeAmo, Instr.canon]

theorem Fields.amoand (w : Bool) (d a b : BitVec 5) (z : BitVec 1) (o : BitVec 5) : Fields.Statement (.amoand w d a b z o) := by
  intro hw f h; cases h
  rw [Fields.major_decodeAmo _ _ rfl]
  simp [-BitVec.extractLsb'_toNat, decodeAmo, Instr.canon]

theorem Fields.amoor (w : Bool) (d a b : BitVec 5) (z : BitVec 1) (o : BitVec 5) : Fields.Statement (.amoor w d a b z o) := by
  intro hw f h; cases h
  rw [Fields.major_decodeAmo _ _ rfl]
  simp [-BitVec.extractLsb'_toNat, decodeAmo, Instr.canon]

theorem Fields.amoxor (w : Bool) (d a b : BitVec 5) (z : BitVec 1) (o : BitVec 5) : Fields.Statement (.amoxor w d a b z o) := by
  intro hw f h; cases h
  rw [Fields.major_decodeAmo _ _ rfl]
  simp [-BitVec.extractLsb'_toNat, decodeAmo, Instr.canon]

theorem Fields.amomin (w : Bool) (d a b : BitVec 5) (z : BitVec 1) (o : BitVec 5) : Fields.Statement (.amomin w d a b z o) := by
  intro hw f h; cases h
  rw [Fields.major_decodeAmo _ _ rfl]
  simp [-BitVec.extractLsb'_toNat, decodeAmo, Instr.canon]

theorem Fields.amomax (w : Bool) (d a b : BitVec 5) (z : BitVec 1) (o : BitVec 5) : Fields.Statement (.amomax w d a b z o) := by
  intro hw f h; cases h
  rw [Fields.major_decodeAmo _ _ rfl]
  simp [-BitVec.extractLsb'_toNat, decodeAmo, Instr.canon]

theorem Fields.amominn (w : Bool) (d a b : BitVec 5) (z : BitVec 1) (o : BitVec 5) : Fields.Statement (.amominn w d a b z o) := by
  intro hw f h; cases h
  rw [Fields.major_decodeAmo _ _ rfl]
  simp [-BitVec.extractLsb'_toNat, decodeAmo, Instr.canon]

theorem Fields.amomaxn (w : Bool) (d a b : BitVec 5) (z : BitVec 1) (o : BitVec 5) : Fields.Statement (.amomaxn w d a b z o) := by
  intro hw f h; cases h
  rw [Fields.major_decodeAmo _ _ rfl]
  simp [-BitVec.extractLsb'_toNat, decodeAmo, Instr.canon]

theorem Fields.amoswap (w : Bool) (d a b : BitVec 5) (z : BitVec 1) (o : BitVec 5) : Fields.Statement (.amoswap w d a b z o) := by
  intro hw f h; cases h
  rw [Fields.major_decodeAmo _ _ rfl]
  simp [-BitVec.extractLsb'_toNat, decodeAmo, Instr.canon]

theorem Fields.cas (w : Bool) (d a b : BitVec 5) (z : BitVec 1) (o : BitVec 5) : Fields.Statement (.cas w d a b z o) := by
  intro hw f h; cases h
  rw [Fields.major_decodeAmo _ _ rfl]
  simp [-BitVec.extractLsb'_toNat, decodeAmo, Instr.canon]

theorem Fields.amofadd (w : Bool) (d a b : BitVec 5) (z : BitVec 1) (o : BitVec 5) : Fields.Statement (.amofadd w d a b z o) := by
  intro hw f h; cases h
  rw [Fields.major_decodeAmo _ _ rfl]
  simp [-BitVec.extractLsb'_toNat, decodeAmo, Instr.canon]

theorem Fields.casQ (w : Bool) (d : BitVec 4) (a : BitVec 5) (b : BitVec 4) (o : BitVec 5) : Fields.Statement (.casQ w d a b o) := by
  intro hw f h; cases h
  rw [Fields.major_decodeAmo _ _ rfl]
  simp [-BitVec.extractLsb'_toNat, decodeAmo, Instr.canon]

theorem Fields.lease (w : Bool) (d a o : BitVec 5) : Fields.Statement (.lease w d a o) := by
  intro hw f h; cases h
  rw [Fields.major_decodeAmo _ _ rfl]
  simp [-BitVec.extractLsb'_toNat, decodeAmo, Instr.canon]

theorem Fields.leaseN (w : Bool) (d a b o : BitVec 5) : Fields.Statement (.leaseN w d a b o) := by
  intro hw f h; cases h
  rw [Fields.major_decodeAmo _ _ rfl]
  simp [-BitVec.extractLsb'_toNat, decodeAmo, Instr.canon]

theorem Fields.lend (w : Bool) (d o : BitVec 5) : Fields.Statement (.lend w d o) := by
  intro hw f h; cases h
  rw [Fields.major_decodeAmo _ _ rfl]
  simp [-BitVec.extractLsb'_toNat, decodeAmo, Instr.canon]

theorem Fields.fence (w : Bool) (k : BitVec 4) (s : BitVec 3) : Fields.Statement (.fence w k s) := by
  intro hw f h; cases h
  rw [Fields.major_decodeFence _ _ rfl]
  simp [-BitVec.extractLsb'_toNat, decodeFence, Instr.canon]

theorem Fields.bar (w : Bool) (n : BitVec 4) (s : BitVec 3) : Fields.Statement (.bar w n s) := by
  intro hw f h; cases h
  rw [Fields.major_decodeFence _ _ rfl]
  simp [-BitVec.extractLsb'_toNat, decodeFence, Instr.canon]

theorem Fields.bara (w : Bool) (n : BitVec 4) (s : BitVec 3) : Fields.Statement (.bara w n s) := by
  intro hw f h; cases h
  rw [Fields.major_decodeFence _ _ rfl]
  simp [-BitVec.extractLsb'_toNat, decodeFence, Instr.canon]

theorem Fields.barw (w : Bool) (n : BitVec 4) (s : BitVec 3) : Fields.Statement (.barw w n s) := by
  intro hw f h; cases h
  rw [Fields.major_decodeFence _ _ rfl]
  simp [-BitVec.extractLsb'_toNat, decodeFence, Instr.canon]

theorem Fields.claim (w : Bool) (d a b : BitVec 5) : Fields.Statement (.claim w d a b) := by
  intro _ f h; cases h
  rw [Fields.major_decodeFence _ _ rfl]
  simp [decodeFence, Instr.canon]

theorem Fields.vwait (w : Bool) (d a b : BitVec 5) (m : BitVec 3) (c : BitVec 4) : Fields.Statement (.vwait w d a b m c) := by
  intro hw f h; cases h
  rw [Fields.major_decodeWait _ _ rfl]
  simp [-BitVec.extractLsb'_toNat, decodeWait, Fields.mask, Instr.canon]

theorem Fields.vwaitT (w : Bool) (d a b : BitVec 5) (m : BitVec 3) (c : BitVec 4) : Fields.Statement (.vwaitT w d a b m c) := by
  intro hw f h; cases h
  rw [Fields.major_decodeWait _ _ rfl]
  simp [-BitVec.extractLsb'_toNat, decodeWait, Fields.mask, Instr.canon]

theorem Fields.wfe (w : Bool) : Fields.Statement (.wfe w) := by
  intro _ f h; cases h
  rw [Fields.major_decodeWait _ _ rfl]
  simp [decodeWait, Fields.mask, Instr.canon]

theorem Fields.wake (w : Bool) (a : BitVec 5) : Fields.Statement (.wake w a) := by
  intro _ f h; cases h
  rw [Fields.major_decodeWait _ _ rfl]
  simp [decodeWait, Fields.mask, Instr.canon]

theorem Fields.vcfg (w : Bool) (d t : BitVec 5) (g : BitVec 2) : Fields.Statement (.vcfg w d t g) := by
  intro hw f h; cases h
  rw [Fields.major_decodeVConf _ _ rfl]
  simp [-BitVec.extractLsb'_toNat, decodeVConf, Fields.fn7, Fields.mask, Instr.canon]

theorem Fields.vgrant (w : Bool) (d a b : BitVec 5) : Fields.Statement (.vgrant w d a b) := by
  intro _ f h; cases h
  rw [Fields.major_decodeVConf _ _ rfl]
  simp [decodeVConf, Fields.fn7, Fields.mask, Instr.canon]

theorem Fields.vmv (w : Bool) (d a : BitVec 5) (m : BitVec 3) : Fields.Statement (.vmv w d a m) := by
  intro _ f h; cases h
  rw [Fields.major_decodeVConf _ _ rfl]
  simp [-BitVec.extractLsb'_toNat, decodeVConf, Fields.fn7, Fields.mask, Instr.canon]

theorem Fields.vsplat (w : Bool) (d a : BitVec 5) (m : BitVec 3) : Fields.Statement (.vsplat w d a m) := by
  intro _ f h; cases h
  rw [Fields.major_decodeVConf _ _ rfl]
  simp [-BitVec.extractLsb'_toNat, decodeVConf, Fields.fn7, Fields.mask, Instr.canon]

theorem Fields.vget (w : Bool) (d a b : BitVec 5) : Fields.Statement (.vget w d a b) := by
  intro _ f h; cases h
  rw [Fields.major_decodeVConf _ _ rfl]
  simp [decodeVConf, Fields.fn7, Fields.mask, Instr.canon]

theorem Fields.vput (w : Bool) (d a b : BitVec 5) : Fields.Statement (.vput w d a b) := by
  intro _ f h; cases h
  rw [Fields.major_decodeVConf _ _ rfl]
  simp [decodeVConf, Fields.fn7, Fields.mask, Instr.canon]

theorem Fields.vmovr (w : Bool) (d a k : BitVec 5) : Fields.Statement (.vmovr w d a k) := by
  intro _ f h; cases h
  rw [Fields.major_decodeVConf _ _ rfl]
  simp [decodeVConf, Fields.fn7, Fields.mask, Instr.canon]

theorem Fields.vmovw (w : Bool) (d a k : BitVec 5) : Fields.Statement (.vmovw w d a k) := by
  intro _ f h; cases h
  rw [Fields.major_decodeVConf _ _ rfl]
  simp [decodeVConf, Fields.fn7, Fields.mask, Instr.canon]

theorem Fields.vtag (w : Bool) (d a : BitVec 5) : Fields.Statement (.vtag w d a) := by
  intro _ f h; cases h
  rw [Fields.major_decodeVConf _ _ rfl]
  simp [decodeVConf, Fields.fn7, Fields.mask, Instr.canon]

theorem Fields.vadd (w : Bool) (d a b : BitVec 5) (m : BitVec 3) : Fields.Statement (.vadd w d a b m) := by
  intro _ f h; cases h
  rw [Fields.major_decodeVInt _ _ rfl]
  simp [-BitVec.extractLsb'_toNat, decodeVInt, Fields.fn7, Fields.mask, Instr.canon]

theorem Fields.vsub (w : Bool) (d a b : BitVec 5) (m : BitVec 3) : Fields.Statement (.vsub w d a b m) := by
  intro _ f h; cases h
  rw [Fields.major_decodeVInt _ _ rfl]
  simp [-BitVec.extractLsb'_toNat, decodeVInt, Fields.fn7, Fields.mask, Instr.canon]

theorem Fields.vmul (w : Bool) (d a b : BitVec 5) (m : BitVec 3) : Fields.Statement (.vmul w d a b m) := by
  intro _ f h; cases h
  rw [Fields.major_decodeVInt _ _ rfl]
  simp [-BitVec.extractLsb'_toNat, decodeVInt, Fields.fn7, Fields.mask, Instr.canon]

theorem Fields.vmulh (w : Bool) (d a b : BitVec 5) (m : BitVec 3) : Fields.Statement (.vmulh w d a b m) := by
  intro _ f h; cases h
  rw [Fields.major_decodeVInt _ _ rfl]
  simp [-BitVec.extractLsb'_toNat, decodeVInt, Fields.fn7, Fields.mask, Instr.canon]

theorem Fields.vmulhn (w : Bool) (d a b : BitVec 5) (m : BitVec 3) : Fields.Statement (.vmulhn w d a b m) := by
  intro _ f h; cases h
  rw [Fields.major_decodeVInt _ _ rfl]
  simp [-BitVec.extractLsb'_toNat, decodeVInt, Fields.fn7, Fields.mask, Instr.canon]

theorem Fields.vmadd (w : Bool) (d a b : BitVec 5) (m : BitVec 3) : Fields.Statement (.vmadd w d a b m) := by
  intro _ f h; cases h
  rw [Fields.major_decodeVInt _ _ rfl]
  simp [-BitVec.extractLsb'_toNat, decodeVInt, Fields.fn7, Fields.mask, Instr.canon]

theorem Fields.vdiv (w : Bool) (d a b : BitVec 5) (m : BitVec 3) : Fields.Statement (.vdiv w d a b m) := by
  intro _ f h; cases h
  rw [Fields.major_decodeVInt _ _ rfl]
  simp [-BitVec.extractLsb'_toNat, decodeVInt, Fields.fn7, Fields.mask, Instr.canon]

theorem Fields.vdivn (w : Bool) (d a b : BitVec 5) (m : BitVec 3) : Fields.Statement (.vdivn w d a b m) := by
  intro _ f h; cases h
  rw [Fields.major_decodeVInt _ _ rfl]
  simp [-BitVec.extractLsb'_toNat, decodeVInt, Fields.fn7, Fields.mask, Instr.canon]

theorem Fields.vrem (w : Bool) (d a b : BitVec 5) (m : BitVec 3) : Fields.Statement (.vrem w d a b m) := by
  intro _ f h; cases h
  rw [Fields.major_decodeVInt _ _ rfl]
  simp [-BitVec.extractLsb'_toNat, decodeVInt, Fields.fn7, Fields.mask, Instr.canon]

theorem Fields.vremn (w : Bool) (d a b : BitVec 5) (m : BitVec 3) : Fields.Statement (.vremn w d a b m) := by
  intro _ f h; cases h
  rw [Fields.major_decodeVInt _ _ rfl]
  simp [-BitVec.extractLsb'_toNat, decodeVInt, Fields.fn7, Fields.mask, Instr.canon]

theorem Fields.vand (w : Bool) (d a b : BitVec 5) (m : BitVec 3) : Fields.Statement (.vand w d a b m) := by
  intro _ f h; cases h
  rw [Fields.major_decodeVInt _ _ rfl]
  simp [-BitVec.extractLsb'_toNat, decodeVInt, Fields.fn7, Fields.mask, Instr.canon]

theorem Fields.vor (w : Bool) (d a b : BitVec 5) (m : BitVec 3) : Fields.Statement (.vor w d a b m) := by
  intro _ f h; cases h
  rw [Fields.major_decodeVInt _ _ rfl]
  simp [-BitVec.extractLsb'_toNat, decodeVInt, Fields.fn7, Fields.mask, Instr.canon]

theorem Fields.vxor (w : Bool) (d a b : BitVec 5) (m : BitVec 3) : Fields.Statement (.vxor w d a b m) := by
  intro _ f h; cases h
  rw [Fields.major_decodeVInt _ _ rfl]
  simp [-BitVec.extractLsb'_toNat, decodeVInt, Fields.fn7, Fields.mask, Instr.canon]

theorem Fields.vsll (w : Bool) (d a b : BitVec 5) (m : BitVec 3) : Fields.Statement (.vsll w d a b m) := by
  intro _ f h; cases h
  rw [Fields.major_decodeVInt _ _ rfl]
  simp [-BitVec.extractLsb'_toNat, decodeVInt, Fields.fn7, Fields.mask, Instr.canon]

theorem Fields.vsrl (w : Bool) (d a b : BitVec 5) (m : BitVec 3) : Fields.Statement (.vsrl w d a b m) := by
  intro _ f h; cases h
  rw [Fields.major_decodeVInt _ _ rfl]
  simp [-BitVec.extractLsb'_toNat, decodeVInt, Fields.fn7, Fields.mask, Instr.canon]

theorem Fields.vsra (w : Bool) (d a b : BitVec 5) (m : BitVec 3) : Fields.Statement (.vsra w d a b m) := by
  intro _ f h; cases h
  rw [Fields.major_decodeVInt _ _ rfl]
  simp [-BitVec.extractLsb'_toNat, decodeVInt, Fields.fn7, Fields.mask, Instr.canon]

theorem Fields.vmin (w : Bool) (d a b : BitVec 5) (m : BitVec 3) : Fields.Statement (.vmin w d a b m) := by
  intro _ f h; cases h
  rw [Fields.major_decodeVInt _ _ rfl]
  simp [-BitVec.extractLsb'_toNat, decodeVInt, Fields.fn7, Fields.mask, Instr.canon]

theorem Fields.vmax (w : Bool) (d a b : BitVec 5) (m : BitVec 3) : Fields.Statement (.vmax w d a b m) := by
  intro _ f h; cases h
  rw [Fields.major_decodeVInt _ _ rfl]
  simp [-BitVec.extractLsb'_toNat, decodeVInt, Fields.fn7, Fields.mask, Instr.canon]

theorem Fields.vminn (w : Bool) (d a b : BitVec 5) (m : BitVec 3) : Fields.Statement (.vminn w d a b m) := by
  intro _ f h; cases h
  rw [Fields.major_decodeVInt _ _ rfl]
  simp [-BitVec.extractLsb'_toNat, decodeVInt, Fields.fn7, Fields.mask, Instr.canon]

theorem Fields.vmaxn (w : Bool) (d a b : BitVec 5) (m : BitVec 3) : Fields.Statement (.vmaxn w d a b m) := by
  intro _ f h; cases h
  rw [Fields.major_decodeVInt _ _ rfl]
  simp [-BitVec.extractLsb'_toNat, decodeVInt, Fields.fn7, Fields.mask, Instr.canon]

theorem Fields.vsadd (w : Bool) (d a b : BitVec 5) (m : BitVec 3) : Fields.Statement (.vsadd w d a b m) := by
  intro _ f h; cases h
  rw [Fields.major_decodeVInt _ _ rfl]
  simp [-BitVec.extractLsb'_toNat, decodeVInt, Fields.fn7, Fields.mask, Instr.canon]

theorem Fields.vsaddn (w : Bool) (d a b : BitVec 5) (m : BitVec 3) : Fields.Statement (.vsaddn w d a b m) := by
  intro _ f h; cases h
  rw [Fields.major_decodeVInt _ _ rfl]
  simp [-BitVec.extractLsb'_toNat, decodeVInt, Fields.fn7, Fields.mask, Instr.canon]

theorem Fields.vssub (w : Bool) (d a b : BitVec 5) (m : BitVec 3) : Fields.Statement (.vssub w d a b m) := by
  intro _ f h; cases h
  rw [Fields.major_decodeVInt _ _ rfl]
  simp [-BitVec.extractLsb'_toNat, decodeVInt, Fields.fn7, Fields.mask, Instr.canon]

theorem Fields.vssubn (w : Bool) (d a b : BitVec 5) (m : BitVec 3) : Fields.Statement (.vssubn w d a b m) := by
  intro _ f h; cases h
  rw [Fields.major_decodeVInt _ _ rfl]
  simp [-BitVec.extractLsb'_toNat, decodeVInt, Fields.fn7, Fields.mask, Instr.canon]

theorem Fields.vabs (w : Bool) (d a : BitVec 5) (m : BitVec 3) : Fields.Statement (.vabs w d a m) := by
  intro _ f h; cases h
  rw [Fields.major_decodeVInt _ _ rfl]
  simp [-BitVec.extractLsb'_toNat, decodeVInt, Fields.fn7, Fields.mask, Instr.canon]

theorem Fields.vcmpeq (w : Bool) (d : BitVec 3) (a b : BitVec 5) (m : BitVec 3) : Fields.Statement (.vcmpeq w d a b m) := by
  intro hw f h; cases h
  rw [Fields.major_decodeVInt _ _ rfl]
  simp [-BitVec.extractLsb'_toNat, decodeVInt, Fields.fn7, Fields.mask, Instr.canon]

theorem Fields.vcmpne (w : Bool) (d : BitVec 3) (a b : BitVec 5) (m : BitVec 3) : Fields.Statement (.vcmpne w d a b m) := by
  intro hw f h; cases h
  rw [Fields.major_decodeVInt _ _ rfl]
  simp [-BitVec.extractLsb'_toNat, decodeVInt, Fields.fn7, Fields.mask, Instr.canon]

theorem Fields.vcmplt (w : Bool) (d : BitVec 3) (a b : BitVec 5) (m : BitVec 3) : Fields.Statement (.vcmplt w d a b m) := by
  intro hw f h; cases h
  rw [Fields.major_decodeVInt _ _ rfl]
  simp [-BitVec.extractLsb'_toNat, decodeVInt, Fields.fn7, Fields.mask, Instr.canon]

theorem Fields.vcmpge (w : Bool) (d : BitVec 3) (a b : BitVec 5) (m : BitVec 3) : Fields.Statement (.vcmpge w d a b m) := by
  intro hw f h; cases h
  rw [Fields.major_decodeVInt _ _ rfl]
  simp [-BitVec.extractLsb'_toNat, decodeVInt, Fields.fn7, Fields.mask, Instr.canon]

theorem Fields.vcmpltn (w : Bool) (d : BitVec 3) (a b : BitVec 5) (m : BitVec 3) : Fields.Statement (.vcmpltn w d a b m) := by
  intro hw f h; cases h
  rw [Fields.major_decodeVInt _ _ rfl]
  simp [-BitVec.extractLsb'_toNat, decodeVInt, Fields.fn7, Fields.mask, Instr.canon]

theorem Fields.vcmpgen (w : Bool) (d : BitVec 3) (a b : BitVec 5) (m : BitVec 3) : Fields.Statement (.vcmpgen w d a b m) := by
  intro hw f h; cases h
  rw [Fields.major_decodeVInt _ _ rfl]
  simp [-BitVec.extractLsb'_toNat, decodeVInt, Fields.fn7, Fields.mask, Instr.canon]

theorem Fields.vwadd (w : Bool) (d a b : BitVec 5) (m : BitVec 3) : Fields.Statement (.vwadd w d a b m) := by
  intro _ f h; cases h
  rw [Fields.major_decodeVInt _ _ rfl]
  simp [-BitVec.extractLsb'_toNat, decodeVInt, Fields.fn7, Fields.mask, Instr.canon]

theorem Fields.vwmul (w : Bool) (d a b : BitVec 5) (m : BitVec 3) : Fields.Statement (.vwmul w d a b m) := by
  intro _ f h; cases h
  rw [Fields.major_decodeVInt _ _ rfl]
  simp [-BitVec.extractLsb'_toNat, decodeVInt, Fields.fn7, Fields.mask, Instr.canon]

theorem Fields.vfadd (w : Bool) (d a b : BitVec 5) (m : BitVec 3) : Fields.Statement (.vfadd w d a b m) := by
  intro _ f h; cases h
  rw [Fields.major_decodeVFloat _ _ rfl]
  simp [-BitVec.extractLsb'_toNat, decodeVFloat, Fields.fn7, Fields.mask, Instr.canon]

theorem Fields.vfsub (w : Bool) (d a b : BitVec 5) (m : BitVec 3) : Fields.Statement (.vfsub w d a b m) := by
  intro _ f h; cases h
  rw [Fields.major_decodeVFloat _ _ rfl]
  simp [-BitVec.extractLsb'_toNat, decodeVFloat, Fields.fn7, Fields.mask, Instr.canon]

theorem Fields.vfmul (w : Bool) (d a b : BitVec 5) (m : BitVec 3) : Fields.Statement (.vfmul w d a b m) := by
  intro _ f h; cases h
  rw [Fields.major_decodeVFloat _ _ rfl]
  simp [-BitVec.extractLsb'_toNat, decodeVFloat, Fields.fn7, Fields.mask, Instr.canon]

theorem Fields.vfdiv (w : Bool) (d a b : BitVec 5) (m : BitVec 3) : Fields.Statement (.vfdiv w d a b m) := by
  intro _ f h; cases h
  rw [Fields.major_decodeVFloat _ _ rfl]
  simp [-BitVec.extractLsb'_toNat, decodeVFloat, Fields.fn7, Fields.mask, Instr.canon]

theorem Fields.vfma (w : Bool) (d a b : BitVec 5) (m : BitVec 3) : Fields.Statement (.vfma w d a b m) := by
  intro _ f h; cases h
  rw [Fields.major_decodeVFloat _ _ rfl]
  simp [-BitVec.extractLsb'_toNat, decodeVFloat, Fields.fn7, Fields.mask, Instr.canon]

theorem Fields.vfms (w : Bool) (d a b : BitVec 5) (m : BitVec 3) : Fields.Statement (.vfms w d a b m) := by
  intro _ f h; cases h
  rw [Fields.major_decodeVFloat _ _ rfl]
  simp [-BitVec.extractLsb'_toNat, decodeVFloat, Fields.fn7, Fields.mask, Instr.canon]

theorem Fields.vfnma (w : Bool) (d a b : BitVec 5) (m : BitVec 3) : Fields.Statement (.vfnma w d a b m) := by
  intro _ f h; cases h
  rw [Fields.major_decodeVFloat _ _ rfl]
  simp [-BitVec.extractLsb'_toNat, decodeVFloat, Fields.fn7, Fields.mask, Instr.canon]

theorem Fields.vfmin (w : Bool) (d a b : BitVec 5) (m : BitVec 3) : Fields.Statement (.vfmin w d a b m) := by
  intro _ f h; cases h
  rw [Fields.major_decodeVFloat _ _ rfl]
  simp [-BitVec.extractLsb'_toNat, decodeVFloat, Fields.fn7, Fields.mask, Instr.canon]

theorem Fields.vfmax (w : Bool) (d a b : BitVec 5) (m : BitVec 3) : Fields.Statement (.vfmax w d a b m) := by
  intro _ f h; cases h
  rw [Fields.major_decodeVFloat _ _ rfl]
  simp [-BitVec.extractLsb'_toNat, decodeVFloat, Fields.fn7, Fields.mask, Instr.canon]

theorem Fields.vfsgnj (w : Bool) (d a b : BitVec 5) (m : BitVec 3) : Fields.Statement (.vfsgnj w d a b m) := by
  intro _ f h; cases h
  rw [Fields.major_decodeVFloat _ _ rfl]
  simp [-BitVec.extractLsb'_toNat, decodeVFloat, Fields.fn7, Fields.mask, Instr.canon]

theorem Fields.vfsgnjn (w : Bool) (d a b : BitVec 5) (m : BitVec 3) : Fields.Statement (.vfsgnjn w d a b m) := by
  intro _ f h; cases h
  rw [Fields.major_decodeVFloat _ _ rfl]
  simp [-BitVec.extractLsb'_toNat, decodeVFloat, Fields.fn7, Fields.mask, Instr.canon]

theorem Fields.vfsqrt (w : Bool) (d a : BitVec 5) (m : BitVec 3) : Fields.Statement (.vfsqrt w d a m) := by
  intro _ f h; cases h
  rw [Fields.major_decodeVFloat _ _ rfl]
  simp [-BitVec.extractLsb'_toNat, decodeVFloat, Fields.fn7, Fields.mask, Instr.canon]

theorem Fields.vfrcp (w : Bool) (d a : BitVec 5) (m : BitVec 3) : Fields.Statement (.vfrcp w d a m) := by
  intro _ f h; cases h
  rw [Fields.major_decodeVFloat _ _ rfl]
  simp [-BitVec.extractLsb'_toNat, decodeVFloat, Fields.fn7, Fields.mask, Instr.canon]

theorem Fields.vfrsqrt (w : Bool) (d a : BitVec 5) (m : BitVec 3) : Fields.Statement (.vfrsqrt w d a m) := by
  intro _ f h; cases h
  rw [Fields.major_decodeVFloat _ _ rfl]
  simp [-BitVec.extractLsb'_toNat, decodeVFloat, Fields.fn7, Fields.mask, Instr.canon]

theorem Fields.vfexp2 (w : Bool) (d a : BitVec 5) (m : BitVec 3) : Fields.Statement (.vfexp2 w d a m) := by
  intro _ f h; cases h
  rw [Fields.major_decodeVFloat _ _ rfl]
  simp [-BitVec.extractLsb'_toNat, decodeVFloat, Fields.fn7, Fields.mask, Instr.canon]

theorem Fields.vflog2 (w : Bool) (d a : BitVec 5) (m : BitVec 3) : Fields.Statement (.vflog2 w d a m) := by
  intro _ f h; cases h
  rw [Fields.major_decodeVFloat _ _ rfl]
  simp [-BitVec.extractLsb'_toNat, decodeVFloat, Fields.fn7, Fields.mask, Instr.canon]

theorem Fields.vfabs (w : Bool) (d a : BitVec 5) (m : BitVec 3) : Fields.Statement (.vfabs w d a m) := by
  intro _ f h; cases h
  rw [Fields.major_decodeVFloat _ _ rfl]
  simp [-BitVec.extractLsb'_toNat, decodeVFloat, Fields.fn7, Fields.mask, Instr.canon]

theorem Fields.vfneg (w : Bool) (d a : BitVec 5) (m : BitVec 3) : Fields.Statement (.vfneg w d a m) := by
  intro _ f h; cases h
  rw [Fields.major_decodeVFloat _ _ rfl]
  simp [-BitVec.extractLsb'_toNat, decodeVFloat, Fields.fn7, Fields.mask, Instr.canon]

theorem Fields.vfclass (w : Bool) (d a : BitVec 5) (m : BitVec 3) : Fields.Statement (.vfclass w d a m) := by
  intro _ f h; cases h
  rw [Fields.major_decodeVFloat _ _ rfl]
  simp [-BitVec.extractLsb'_toNat, decodeVFloat, Fields.fn7, Fields.mask, Instr.canon]

theorem Fields.vfcmpeq (w : Bool) (d : BitVec 3) (a b : BitVec 5) (m : BitVec 3) : Fields.Statement (.vfcmpeq w d a b m) := by
  intro hw f h; cases h
  rw [Fields.major_decodeVFloat _ _ rfl]
  simp [-BitVec.extractLsb'_toNat, decodeVFloat, Fields.fn7, Fields.mask, Instr.canon]

theorem Fields.vfcmplt (w : Bool) (d : BitVec 3) (a b : BitVec 5) (m : BitVec 3) : Fields.Statement (.vfcmplt w d a b m) := by
  intro hw f h; cases h
  rw [Fields.major_decodeVFloat _ _ rfl]
  simp [-BitVec.extractLsb'_toNat, decodeVFloat, Fields.fn7, Fields.mask, Instr.canon]

theorem Fields.vfcmple (w : Bool) (d : BitVec 3) (a b : BitVec 5) (m : BitVec 3) : Fields.Statement (.vfcmple w d a b m) := by
  intro hw f h; cases h
  rw [Fields.major_decodeVFloat _ _ rfl]
  simp [-BitVec.extractLsb'_toNat, decodeVFloat, Fields.fn7, Fields.mask, Instr.canon]

theorem Fields.vfcmpun (w : Bool) (d : BitVec 3) (a b : BitVec 5) (m : BitVec 3) : Fields.Statement (.vfcmpun w d a b m) := by
  intro hw f h; cases h
  rw [Fields.major_decodeVFloat _ _ rfl]
  simp [-BitVec.extractLsb'_toNat, decodeVFloat, Fields.fn7, Fields.mask, Instr.canon]

theorem Fields.vintG (w : Bool) (d a b : BitVec 5) (m : BitVec 3) (p : BitVec 6) : Fields.Statement (.vintG w d a b m p) := by
  intro hw f h; cases h
  rw [Fields.major_decodeVScalar _ _ rfl]
  simp [-BitVec.extractLsb'_toNat, decodeVScalar, Fields.mask, Instr.canon]

theorem Fields.vfloatG (w : Bool) (d a b : BitVec 5) (m : BitVec 3) (p : BitVec 6) : Fields.Statement (.vfloatG w d a b m p) := by
  intro hw f h; cases h
  rw [Fields.major_decodeVScalar _ _ rfl]
  simp [-BitVec.extractLsb'_toNat, decodeVScalar, Fields.mask, Instr.canon]

theorem Fields.vcvt (w : Bool) (d a : BitVec 5) (m r : BitVec 3) : Fields.Statement (.vcvt w d a m r) := by
  intro hw f h; cases h
  rw [Fields.major_decodeVCvt _ _ rfl]
  simp [-BitVec.extractLsb'_toNat, decodeVCvt, Fields.mask, Instr.canon]

theorem Fields.vcvtSat (w : Bool) (d a : BitVec 5) (m r : BitVec 3) : Fields.Statement (.vcvtSat w d a m r) := by
  intro hw f h; cases h
  rw [Fields.major_decodeVCvt _ _ rfl]
  simp [-BitVec.extractLsb'_toNat, decodeVCvt, Fields.mask, Instr.canon]

theorem Fields.vcvtSc (w : Bool) (d a b : BitVec 5) (m r : BitVec 3) : Fields.Statement (.vcvtSc w d a b m r) := by
  intro hw f h; cases h
  rw [Fields.major_decodeVCvt _ _ rfl]
  simp [-BitVec.extractLsb'_toNat, decodeVCvt, Fields.mask, Instr.canon]

theorem Fields.vcvtDs (w : Bool) (d a b : BitVec 5) (r : BitVec 3) : Fields.Statement (.vcvtDs w d a b r) := by
  intro hw f h; cases h
  rw [Fields.major_decodeVCvt _ _ rfl]
  simp [-BitVec.extractLsb'_toNat, decodeVCvt, Fields.mask, Instr.canon]

theorem Fields.vshift (w : Bool) (d a b : BitVec 5) (m : BitVec 3) : Fields.Statement (.vshift w d a b m) := by
  intro _ f h; cases h
  rw [Fields.major_decodeVPerm _ _ rfl]
  simp [-BitVec.extractLsb'_toNat, decodeVPerm, Fields.fn7, Fields.mask, Instr.canon]

theorem Fields.vrot (w : Bool) (d a b : BitVec 5) (m : BitVec 3) : Fields.Statement (.vrot w d a b m) := by
  intro _ f h; cases h
  rw [Fields.major_decodeVPerm _ _ rfl]
  simp [-BitVec.extractLsb'_toNat, decodeVPerm, Fields.fn7, Fields.mask, Instr.canon]

theorem Fields.vfeedlo (w : Bool) (d a b : BitVec 5) (m : BitVec 3) : Fields.Statement (.vfeedlo w d a b m) := by
  intro _ f h; cases h
  rw [Fields.major_decodeVPerm _ _ rfl]
  simp [-BitVec.extractLsb'_toNat, decodeVPerm, Fields.fn7, Fields.mask, Instr.canon]

theorem Fields.vfeedhi (w : Bool) (d a b : BitVec 5) (m : BitVec 3) : Fields.Statement (.vfeedhi w d a b m) := by
  intro _ f h; cases h
  rw [Fields.major_decodeVPerm _ _ rfl]
  simp [-BitVec.extractLsb'_toNat, decodeVPerm, Fields.fn7, Fields.mask, Instr.canon]

theorem Fields.vpick (w : Bool) (d a b : BitVec 5) (m : BitVec 3) : Fields.Statement (.vpick w d a b m) := by
  intro _ f h; cases h
  rw [Fields.major_decodeVPerm _ _ rfl]
  simp [-BitVec.extractLsb'_toNat, decodeVPerm, Fields.fn7, Fields.mask, Instr.canon]

theorem Fields.vpack (w : Bool) (d a : BitVec 5) (m : BitVec 3) : Fields.Statement (.vpack w d a m) := by
  intro _ f h; cases h
  rw [Fields.major_decodeVPerm _ _ rfl]
  simp [-BitVec.extractLsb'_toNat, decodeVPerm, Fields.fn7, Fields.mask, Instr.canon]

theorem Fields.vspread (w : Bool) (d a : BitVec 5) (m : BitVec 3) : Fields.Statement (.vspread w d a m) := by
  intro _ f h; cases h
  rw [Fields.major_decodeVPerm _ _ rfl]
  simp [-BitVec.extractLsb'_toNat, decodeVPerm, Fields.fn7, Fields.mask, Instr.canon]

theorem Fields.vscanadd (w : Bool) (d a b : BitVec 5) (m : BitVec 3) : Fields.Statement (.vscanadd w d a b m) := by
  intro _ f h; cases h
  rw [Fields.major_decodeVPerm _ _ rfl]
  simp [-BitVec.extractLsb'_toNat, decodeVPerm, Fields.fn7, Fields.mask, Instr.canon]

theorem Fields.vscanmin (w : Bool) (d a b : BitVec 5) (m : BitVec 3) : Fields.Statement (.vscanmin w d a b m) := by
  intro _ f h; cases h
  rw [Fields.major_decodeVPerm _ _ rfl]
  simp [-BitVec.extractLsb'_toNat, decodeVPerm, Fields.fn7, Fields.mask, Instr.canon]

theorem Fields.vscanmax (w : Bool) (d a b : BitVec 5) (m : BitVec 3) : Fields.Statement (.vscanmax w d a b m) := by
  intro _ f h; cases h
  rw [Fields.major_decodeVPerm _ _ rfl]
  simp [-BitVec.extractLsb'_toNat, decodeVPerm, Fields.fn7, Fields.mask, Instr.canon]

theorem Fields.vfscanadd (w : Bool) (d a b : BitVec 5) (m : BitVec 3) : Fields.Statement (.vfscanadd w d a b m) := by
  intro _ f h; cases h
  rw [Fields.major_decodeVPerm _ _ rfl]
  simp [-BitVec.extractLsb'_toNat, decodeVPerm, Fields.fn7, Fields.mask, Instr.canon]

theorem Fields.vredsum (w : Bool) (d a b : BitVec 5) (m : BitVec 3) : Fields.Statement (.vredsum w d a b m) := by
  intro _ f h; cases h
  rw [Fields.major_decodeVPerm _ _ rfl]
  simp [-BitVec.extractLsb'_toNat, decodeVPerm, Fields.fn7, Fields.mask, Instr.canon]

theorem Fields.vredmin (w : Bool) (d a b : BitVec 5) (m : BitVec 3) : Fields.Statement (.vredmin w d a b m) := by
  intro _ f h; cases h
  rw [Fields.major_decodeVPerm _ _ rfl]
  simp [-BitVec.extractLsb'_toNat, decodeVPerm, Fields.fn7, Fields.mask, Instr.canon]

theorem Fields.vredmax (w : Bool) (d a b : BitVec 5) (m : BitVec 3) : Fields.Statement (.vredmax w d a b m) := by
  intro _ f h; cases h
  rw [Fields.major_decodeVPerm _ _ rfl]
  simp [-BitVec.extractLsb'_toNat, decodeVPerm, Fields.fn7, Fields.mask, Instr.canon]

theorem Fields.vredminn (w : Bool) (d a b : BitVec 5) (m : BitVec 3) : Fields.Statement (.vredminn w d a b m) := by
  intro _ f h; cases h
  rw [Fields.major_decodeVPerm _ _ rfl]
  simp [-BitVec.extractLsb'_toNat, decodeVPerm, Fields.fn7, Fields.mask, Instr.canon]

theorem Fields.vredmaxn (w : Bool) (d a b : BitVec 5) (m : BitVec 3) : Fields.Statement (.vredmaxn w d a b m) := by
  intro _ f h; cases h
  rw [Fields.major_decodeVPerm _ _ rfl]
  simp [-BitVec.extractLsb'_toNat, decodeVPerm, Fields.fn7, Fields.mask, Instr.canon]

theorem Fields.vredand (w : Bool) (d a b : BitVec 5) (m : BitVec 3) : Fields.Statement (.vredand w d a b m) := by
  intro _ f h; cases h
  rw [Fields.major_decodeVPerm _ _ rfl]
  simp [-BitVec.extractLsb'_toNat, decodeVPerm, Fields.fn7, Fields.mask, Instr.canon]

theorem Fields.vredor (w : Bool) (d a b : BitVec 5) (m : BitVec 3) : Fields.Statement (.vredor w d a b m) := by
  intro _ f h; cases h
  rw [Fields.major_decodeVPerm _ _ rfl]
  simp [-BitVec.extractLsb'_toNat, decodeVPerm, Fields.fn7, Fields.mask, Instr.canon]

theorem Fields.vredxor (w : Bool) (d a b : BitVec 5) (m : BitVec 3) : Fields.Statement (.vredxor w d a b m) := by
  intro _ f h; cases h
  rw [Fields.major_decodeVPerm _ _ rfl]
  simp [-BitVec.extractLsb'_toNat, decodeVPerm, Fields.fn7, Fields.mask, Instr.canon]

theorem Fields.vfredsum (w : Bool) (d a b : BitVec 5) (m : BitVec 3) : Fields.Statement (.vfredsum w d a b m) := by
  intro _ f h; cases h
  rw [Fields.major_decodeVPerm _ _ rfl]
  simp [-BitVec.extractLsb'_toNat, decodeVPerm, Fields.fn7, Fields.mask, Instr.canon]

theorem Fields.vfredmin (w : Bool) (d a b : BitVec 5) (m : BitVec 3) : Fields.Statement (.vfredmin w d a b m) := by
  intro _ f h; cases h
  rw [Fields.major_decodeVPerm _ _ rfl]
  simp [-BitVec.extractLsb'_toNat, decodeVPerm, Fields.fn7, Fields.mask, Instr.canon]

theorem Fields.vfredmax (w : Bool) (d a b : BitVec 5) (m : BitVec 3) : Fields.Statement (.vfredmax w d a b m) := by
  intro _ f h; cases h
  rw [Fields.major_decodeVPerm _ _ rfl]
  simp [-BitVec.extractLsb'_toNat, decodeVPerm, Fields.fn7, Fields.mask, Instr.canon]

theorem Fields.mbound (w : Bool) (d : BitVec 3) (a b : BitVec 5) : Fields.Statement (.mbound w d a b) := by
  intro hw f h; cases h
  rw [Fields.major_decodeVMask _ _ rfl]
  simp [-BitVec.extractLsb'_toNat, decodeVMask, Fields.fn7, Fields.mask, Instr.canon]

theorem Fields.mand (w : Bool) (d a b : BitVec 3) : Fields.Statement (.mand w d a b) := by
  intro hw f h; cases h
  rw [Fields.major_decodeVMask _ _ rfl]
  simp [-BitVec.extractLsb'_toNat, decodeVMask, Fields.fn7, Fields.mask, Instr.canon]

theorem Fields.mor (w : Bool) (d a b : BitVec 3) : Fields.Statement (.mor w d a b) := by
  intro hw f h; cases h
  rw [Fields.major_decodeVMask _ _ rfl]
  simp [-BitVec.extractLsb'_toNat, decodeVMask, Fields.fn7, Fields.mask, Instr.canon]

theorem Fields.mxor (w : Bool) (d a b : BitVec 3) : Fields.Statement (.mxor w d a b) := by
  intro hw f h; cases h
  rw [Fields.major_decodeVMask _ _ rfl]
  simp [-BitVec.extractLsb'_toNat, decodeVMask, Fields.fn7, Fields.mask, Instr.canon]

theorem Fields.mandn (w : Bool) (d a b : BitVec 3) : Fields.Statement (.mandn w d a b) := by
  intro hw f h; cases h
  rw [Fields.major_decodeVMask _ _ rfl]
  simp [-BitVec.extractLsb'_toNat, decodeVMask, Fields.fn7, Fields.mask, Instr.canon]

theorem Fields.mnot (w : Bool) (d a : BitVec 3) : Fields.Statement (.mnot w d a) := by
  intro hw f h; cases h
  rw [Fields.major_decodeVMask _ _ rfl]
  simp [-BitVec.extractLsb'_toNat, decodeVMask, Fields.fn7, Fields.mask, Instr.canon]

theorem Fields.mmv (w : Bool) (d a : BitVec 3) : Fields.Statement (.mmv w d a) := by
  intro hw f h; cases h
  rw [Fields.major_decodeVMask _ _ rfl]
  simp [-BitVec.extractLsb'_toNat, decodeVMask, Fields.fn7, Fields.mask, Instr.canon]

theorem Fields.mcnt (w : Bool) (d : BitVec 5) (a : BitVec 3) : Fields.Statement (.mcnt w d a) := by
  intro _ f h; cases h
  rw [Fields.major_decodeVMask _ _ rfl]
  simp [-BitVec.extractLsb'_toNat, decodeVMask, Fields.fn7, Fields.mask, Instr.canon]

theorem Fields.mfirst (w : Bool) (d : BitVec 5) (a : BitVec 3) : Fields.Statement (.mfirst w d a) := by
  intro _ f h; cases h
  rw [Fields.major_decodeVMask _ _ rfl]
  simp [-BitVec.extractLsb'_toNat, decodeVMask, Fields.fn7, Fields.mask, Instr.canon]

theorem Fields.mfromv (w : Bool) (d : BitVec 3) (a : BitVec 5) : Fields.Statement (.mfromv w d a) := by
  intro hw f h; cases h
  rw [Fields.major_decodeVMask _ _ rfl]
  simp [-BitVec.extractLsb'_toNat, decodeVMask, Fields.fn7, Fields.mask, Instr.canon]

theorem Fields.mtov (w : Bool) (d : BitVec 5) (a : BitVec 3) : Fields.Statement (.mtov w d a) := by
  intro _ f h; cases h
  rw [Fields.major_decodeVMask _ _ rfl]
  simp [-BitVec.extractLsb'_toNat, decodeVMask, Fields.fn7, Fields.mask, Instr.canon]

theorem Fields.mpush (w : Bool) (a : BitVec 3) : Fields.Statement (.mpush w a) := by
  intro _ f h; cases h
  rw [Fields.major_decodeVMask _ _ rfl]
  simp [-BitVec.extractLsb'_toNat, decodeVMask, Fields.fn7, Fields.mask, Instr.canon]

theorem Fields.melse (w : Bool) : Fields.Statement (.melse w) := by
  intro _ f h; cases h
  rw [Fields.major_decodeVMask _ _ rfl]
  simp [decodeVMask, Fields.fn7, Fields.mask, Instr.canon]

theorem Fields.mpop (w : Bool) : Fields.Statement (.mpop w) := by
  intro _ f h; cases h
  rw [Fields.major_decodeVMask _ _ rfl]
  simp [decodeVMask, Fields.fn7, Fields.mask, Instr.canon]

theorem Fields.vld (w : Bool) (d a : BitVec 5) (m : BitVec 3) : Fields.Statement (.vld w d a m) := by
  intro _ f h; cases h
  rw [Fields.major_decodeVLoad _ _ rfl]
  simp [-BitVec.extractLsb'_toNat, decodeVLoad, Fields.fn7, Fields.mask, Instr.canon]

theorem Fields.vlds (w : Bool) (d a b : BitVec 5) (m : BitVec 3) : Fields.Statement (.vlds w d a b m) := by
  intro _ f h; cases h
  rw [Fields.major_decodeVLoad _ _ rfl]
  simp [-BitVec.extractLsb'_toNat, decodeVLoad, Fields.fn7, Fields.mask, Instr.canon]

theorem Fields.vldx (w : Bool) (d a b : BitVec 5) (m : BitVec 3) : Fields.Statement (.vldx w d a b m) := by
  intro _ f h; cases h
  rw [Fields.major_decodeVLoad _ _ rfl]
  simp [-BitVec.extractLsb'_toNat, decodeVLoad, Fields.fn7, Fields.mask, Instr.canon]

theorem Fields.vst (w : Bool) (d a : BitVec 5) (m : BitVec 3) : Fields.Statement (.vst w d a m) := by
  intro _ f h; cases h
  rw [Fields.major_decodeVStore _ _ rfl]
  simp [-BitVec.extractLsb'_toNat, decodeVStore, Fields.fn7, Fields.mask, Instr.canon]

theorem Fields.vsts (w : Bool) (d a b : BitVec 5) (m : BitVec 3) : Fields.Statement (.vsts w d a b m) := by
  intro _ f h; cases h
  rw [Fields.major_decodeVStore _ _ rfl]
  simp [-BitVec.extractLsb'_toNat, decodeVStore, Fields.fn7, Fields.mask, Instr.canon]

theorem Fields.vstx (w : Bool) (d a b : BitVec 5) (m : BitVec 3) : Fields.Statement (.vstx w d a b m) := by
  intro _ f h; cases h
  rw [Fields.major_decodeVStore _ _ rfl]
  simp [-BitVec.extractLsb'_toNat, decodeVStore, Fields.fn7, Fields.mask, Instr.canon]

theorem Fields.gld (w : Bool) (d a b : BitVec 5) (m : BitVec 3) : Fields.Statement (.gld w d a b m) := by
  intro _ f h; cases h
  rw [Fields.major_decodeVLink _ _ rfl]
  simp [-BitVec.extractLsb'_toNat, decodeVLink, Fields.fn7, Fields.mask, Instr.canon]

theorem Fields.scs (w : Bool) (d a b : BitVec 5) (m : BitVec 3) : Fields.Statement (.scs w d a b m) := by
  intro hw f h; cases h
  rw [Fields.major_decodeVLink _ _ rfl]
  simp [-BitVec.extractLsb'_toNat, decodeVLink, Fields.fn7, Fields.mask, Instr.canon]

theorem Fields.vamoadd (w : Bool) (d a b : BitVec 5) (m : BitVec 3) : Fields.Statement (.vamoadd w d a b m) := by
  intro _ f h; cases h
  rw [Fields.major_decodeVLink _ _ rfl]
  simp [-BitVec.extractLsb'_toNat, decodeVLink, Fields.fn7, Fields.mask, Instr.canon]

theorem Fields.vamoand (w : Bool) (d a b : BitVec 5) (m : BitVec 3) : Fields.Statement (.vamoand w d a b m) := by
  intro _ f h; cases h
  rw [Fields.major_decodeVLink _ _ rfl]
  simp [-BitVec.extractLsb'_toNat, decodeVLink, Fields.fn7, Fields.mask, Instr.canon]

theorem Fields.vamoor (w : Bool) (d a b : BitVec 5) (m : BitVec 3) : Fields.Statement (.vamoor w d a b m) := by
  intro _ f h; cases h
  rw [Fields.major_decodeVLink _ _ rfl]
  simp [-BitVec.extractLsb'_toNat, decodeVLink, Fields.fn7, Fields.mask, Instr.canon]

theorem Fields.vamoxor (w : Bool) (d a b : BitVec 5) (m : BitVec 3) : Fields.Statement (.vamoxor w d a b m) := by
  intro _ f h; cases h
  rw [Fields.major_decodeVLink _ _ rfl]
  simp [-BitVec.extractLsb'_toNat, decodeVLink, Fields.fn7, Fields.mask, Instr.canon]

theorem Fields.vamomin (w : Bool) (d a b : BitVec 5) (m : BitVec 3) : Fields.Statement (.vamomin w d a b m) := by
  intro _ f h; cases h
  rw [Fields.major_decodeVLink _ _ rfl]
  simp [-BitVec.extractLsb'_toNat, decodeVLink, Fields.fn7, Fields.mask, Instr.canon]

theorem Fields.vamomax (w : Bool) (d a b : BitVec 5) (m : BitVec 3) : Fields.Statement (.vamomax w d a b m) := by
  intro _ f h; cases h
  rw [Fields.major_decodeVLink _ _ rfl]
  simp [-BitVec.extractLsb'_toNat, decodeVLink, Fields.fn7, Fields.mask, Instr.canon]

theorem Fields.vamominn (w : Bool) (d a b : BitVec 5) (m : BitVec 3) : Fields.Statement (.vamominn w d a b m) := by
  intro _ f h; cases h
  rw [Fields.major_decodeVLink _ _ rfl]
  simp [-BitVec.extractLsb'_toNat, decodeVLink, Fields.fn7, Fields.mask, Instr.canon]

theorem Fields.vamomaxn (w : Bool) (d a b : BitVec 5) (m : BitVec 3) : Fields.Statement (.vamomaxn w d a b m) := by
  intro _ f h; cases h
  rw [Fields.major_decodeVLink _ _ rfl]
  simp [-BitVec.extractLsb'_toNat, decodeVLink, Fields.fn7, Fields.mask, Instr.canon]

theorem Fields.vamofadd (w : Bool) (d a b : BitVec 5) (m : BitVec 3) : Fields.Statement (.vamofadd w d a b m) := by
  intro _ f h; cases h
  rw [Fields.major_decodeVLink _ _ rfl]
  simp [-BitVec.extractLsb'_toNat, decodeVLink, Fields.fn7, Fields.mask, Instr.canon]

theorem Fields.mgang (w : Bool) : Fields.Statement (.mgang w) := by
  intro _ f h; cases h
  rw [Fields.major_decodeMatrix _ _ rfl]
  simp [decodeMatrix, Instr.canon]

theorem Fields.mmaVreg (w : Bool) (s : BitVec 1) (a b : BitVec 5) (k : BitVec 4) : Fields.Statement (.mmaVreg w s a b k) := by
  intro _ f h; cases h
  rw [Fields.major_decodeMatrix _ _ rfl]
  simp [-BitVec.extractLsb'_toNat, decodeMatrix, Instr.canon]

theorem Fields.mmaScratch (w : Bool) (s : BitVec 1) (a b : BitVec 5) (k : BitVec 4) : Fields.Statement (.mmaScratch w s a b k) := by
  intro _ f h; cases h
  rw [Fields.major_decodeMatrix _ _ rfl]
  simp [-BitVec.extractLsb'_toNat, decodeMatrix, Instr.canon]

theorem Fields.mmaDownconv (w : Bool) (s t : BitVec 1) (b : BitVec 5) (k : BitVec 3) : Fields.Statement (.mmaDownconv w s t b k) := by
  intro hw f h; cases h
  rw [Fields.major_decodeMatrix _ _ rfl]
  simp [-BitVec.extractLsb'_toNat, decodeMatrix, Instr.canon]

theorem Fields.mmaSlideVreg (w : Bool) (s : BitVec 1) (a b : BitVec 5) (k : BitVec 4) : Fields.Statement (.mmaSlideVreg w s a b k) := by
  intro _ f h; cases h
  rw [Fields.major_decodeMatrix _ _ rfl]
  simp [-BitVec.extractLsb'_toNat, decodeMatrix, Instr.canon]

theorem Fields.mmaSlideScratch (w : Bool) (s : BitVec 1) (a b : BitVec 5) (k : BitVec 4) : Fields.Statement (.mmaSlideScratch w s a b k) := by
  intro _ f h; cases h
  rw [Fields.major_decodeMatrix _ _ rfl]
  simp [-BitVec.extractLsb'_toNat, decodeMatrix, Instr.canon]

theorem Fields.mst (w : Bool) (s : BitVec 1) (a b : BitVec 5) : Fields.Statement (.mst w s a b) := by
  intro _ f h; cases h
  rw [Fields.major_decodeMatrix _ _ rfl]
  simp [-BitVec.extractLsb'_toNat, decodeMatrix, Instr.canon]

theorem Fields.mwait (w : Bool) : Fields.Statement (.mwait w) := by
  intro _ f h; cases h
  rw [Fields.major_decodeMatrix _ _ rfl]
  simp [decodeMatrix, Instr.canon]

theorem Fields.mzero (w : Bool) (s : BitVec 1) : Fields.Statement (.mzero w s) := by
  intro _ f h; cases h
  rw [Fields.major_decodeAcc _ _ rfl]
  simp [-BitVec.extractLsb'_toNat, decodeAcc, Instr.canon]

theorem Fields.mrd (w : Bool) (d : BitVec 5) (s : BitVec 1) (b : BitVec 5) : Fields.Statement (.mrd w d s b) := by
  intro _ f h; cases h
  rw [Fields.major_decodeAcc _ _ rfl]
  simp [-BitVec.extractLsb'_toNat, decodeAcc, Instr.canon]

theorem Fields.mwr (w : Bool) (s : BitVec 1) (a b : BitVec 5) : Fields.Statement (.mwr w s a b) := by
  intro _ f h; cases h
  rw [Fields.major_decodeAcc _ _ rfl]
  simp [-BitVec.extractLsb'_toNat, decodeAcc, Instr.canon]

theorem Fields.mcvt (w : Bool) (d : BitVec 5) (s : BitVec 1) (b : BitVec 5) : Fields.Statement (.mcvt w d s b) := by
  intro _ f h; cases h
  rw [Fields.major_decodeAcc _ _ rfl]
  simp [-BitVec.extractLsb'_toNat, decodeAcc, Instr.canon]

theorem Fields.sampleNear (w : Bool) (d a b : BitVec 5) (m : BitVec 3) : Fields.Statement (.sampleNear w d a b m) := by
  intro _ f h; cases h
  rw [Fields.major_decodeSample _ _ rfl]
  simp [-BitVec.extractLsb'_toNat, decodeSample, Fields.fn7, Fields.mask, Instr.canon]

theorem Fields.sampleBil (w : Bool) (d a b : BitVec 5) (m : BitVec 3) : Fields.Statement (.sampleBil w d a b m) := by
  intro _ f h; cases h
  rw [Fields.major_decodeSample _ _ rfl]
  simp [-BitVec.extractLsb'_toNat, decodeSample, Fields.fn7, Fields.mask, Instr.canon]

theorem Fields.sampleTri (w : Bool) (d a b : BitVec 5) (m : BitVec 3) : Fields.Statement (.sampleTri w d a b m) := by
  intro _ f h; cases h
  rw [Fields.major_decodeSample _ _ rfl]
  simp [-BitVec.extractLsb'_toNat, decodeSample, Fields.fn7, Fields.mask, Instr.canon]

theorem Fields.boxtest (w : Bool) (d : BitVec 5) (a : BitVec 4) (b : BitVec 5) (m : BitVec 3) : Fields.Statement (.boxtest w d a b m) := by
  intro hw f h; cases h
  rw [Fields.major_decodeBvh _ _ rfl]
  simp [-BitVec.extractLsb'_toNat, decodeBvh, Fields.fn7, Fields.mask, Instr.canon]

theorem Fields.tritest (w : Bool) (d : BitVec 5) (a : BitVec 4) (b : BitVec 5) (m : BitVec 3) : Fields.Statement (.tritest w d a b m) := by
  intro hw f h; cases h
  rw [Fields.major_decodeBvh _ _ rfl]
  simp [-BitVec.extractLsb'_toNat, decodeBvh, Fields.fn7, Fields.mask, Instr.canon]

theorem Fields.partition (w : Bool) (d : BitVec 5) (a : BitVec 4) (b : BitVec 5) (m : BitVec 3) : Fields.Statement (.partition w d a b m) := by
  intro hw f h; cases h
  rw [Fields.major_decodeBvh _ _ rfl]
  simp [-BitVec.extractLsb'_toNat, decodeBvh, Fields.fn7, Fields.mask, Instr.canon]

theorem Fields.marchRecord (w : Bool) (d a b : BitVec 5) (m : BitVec 3) : Fields.Statement (.marchRecord w d a b m) := by
  intro hw f h; cases h
  rw [Fields.major_decodeXl _ _ rfl]
  simp [-BitVec.extractLsb'_toNat, decodeXl, Instr.canon, Instr.payload]

theorem Fields.marchAcc (w : Bool) (d a b : BitVec 5) (m : BitVec 3) : Fields.Statement (.marchAcc w d a b m) := by
  intro hw f h; cases h
  rw [Fields.major_decodeXl _ _ rfl]
  simp [-BitVec.extractLsb'_toNat, decodeXl, Instr.canon, Instr.payload]

theorem Fields.marchLocate (w : Bool) (d a b : BitVec 5) (m : BitVec 3) : Fields.Statement (.marchLocate w d a b m) := by
  intro hw f h; cases h
  rw [Fields.major_decodeXl _ _ rfl]
  simp [-BitVec.extractLsb'_toNat, decodeXl, Instr.canon, Instr.payload]

theorem Fields.qpushTile (w : Bool) (a b : BitVec 5) (n : BitVec 1) : Fields.Statement (.qpushTile w a b n) := by
  intro _ f h; cases h
  rw [Fields.major_decodeQPush _ _ rfl]
  simp [-BitVec.extractLsb'_toNat, decodeQPush, Instr.canon]

theorem Fields.qpushBlend (w : Bool) (a b : BitVec 5) (n : BitVec 1) : Fields.Statement (.qpushBlend w a b n) := by
  intro _ f h; cases h
  rw [Fields.major_decodeQPush _ _ rfl]
  simp [-BitVec.extractLsb'_toNat, decodeQPush, Instr.canon]

theorem Fields.qpushMesh (w : Bool) (a b : BitVec 5) (n : BitVec 1) : Fields.Statement (.qpushMesh w a b n) := by
  intro _ f h; cases h
  rw [Fields.major_decodeQPush _ _ rfl]
  simp [-BitVec.extractLsb'_toNat, decodeQPush, Instr.canon]

theorem Fields.copy (w : Bool) (a : BitVec 5) : Fields.Statement (.copy w a) := by
  intro _ f h; cases h
  rw [Fields.major_decodeEngine _ _ rfl]
  simp [decodeEngine, Instr.canon]

theorem Fields.fill (w : Bool) (a : BitVec 5) : Fields.Statement (.fill w a) := by
  intro _ f h; cases h
  rw [Fields.major_decodeEngine _ _ rfl]
  simp [decodeEngine, Instr.canon]

theorem Fields.coll (w : Bool) (a : BitVec 5) : Fields.Statement (.coll w a) := by
  intro _ f h; cases h
  rw [Fields.major_decodeEngine _ _ rfl]
  simp [decodeEngine, Instr.canon]

theorem Fields.qfence (w : Bool) (s : BitVec 5) : Fields.Statement (.qfence w s) := by
  intro hw f h; cases h
  rw [Fields.major_decodeEngine _ _ rfl]
  simp [-BitVec.extractLsb'_toNat, decodeEngine, Instr.canon]

theorem Fields.qwait (w : Bool) (d : BitVec 5) (q : BitVec 3) : Fields.Statement (.qwait w d q) := by
  intro hw f h; cases h
  rw [Fields.major_decodeEngine _ _ rfl]
  simp [-BitVec.extractLsb'_toNat, decodeEngine, Instr.canon]

theorem Fields.qstat (w : Bool) (d : BitVec 5) (q : BitVec 3) : Fields.Statement (.qstat w d q) := by
  intro hw f h; cases h
  rw [Fields.major_decodeEngine _ _ rfl]
  simp [-BitVec.extractLsb'_toNat, decodeEngine, Instr.canon]

theorem Fields.mfs (w : Bool) (d : BitVec 5) (c : BitVec 12) : Fields.Statement (.mfs w d c) := by
  intro _ f h; cases h
  rw [Fields.major_decodeCtl _ _ rfl]
  simp [-BitVec.extractLsb'_toNat, decodeCtl, Instr.canon, decodeSys]

theorem Fields.mts (w : Bool) (a : BitVec 5) (c : BitVec 12) : Fields.Statement (.mts w a c) := by
  intro _ f h; cases h
  rw [Fields.major_decodeCtl _ _ rfl]
  simp [-BitVec.extractLsb'_toNat, decodeCtl, Instr.canon, decodeSys]

theorem Fields.svc (w : Bool) (a : BitVec 5) : Fields.Statement (.svc w a) := by
  intro _ f h; cases h
  rw [Fields.major_decodeCtl _ _ rfl]
  simp [decodeCtl, Instr.canon, decodeSys]

theorem Fields.trap (w : Bool) (a : BitVec 5) : Fields.Statement (.trap w a) := by
  intro _ f h; cases h
  rw [Fields.major_decodeCtl _ _ rfl]
  simp [decodeCtl, Instr.canon, decodeSys]

theorem Fields.brk (w : Bool) : Fields.Statement (.brk w) := by
  intro _ f h; cases h
  rw [Fields.major_decodeCtl _ _ rfl]
  simp [decodeCtl, Instr.canon, decodeSys]

theorem Fields.yield (w : Bool) : Fields.Statement (.yield w) := by
  intro _ f h; cases h
  rw [Fields.major_decodeCtl _ _ rfl]
  simp [decodeCtl, Instr.canon, decodeSys]

theorem Fields.halt (w : Bool) : Fields.Statement (.halt w) := by
  intro _ f h; cases h
  rw [Fields.major_decodeCtl _ _ rfl]
  simp [decodeCtl, Instr.canon, decodeSys]

theorem Fields.timewait (w : Bool) (a : BitVec 5) : Fields.Statement (.timewait w a) := by
  intro _ f h; cases h
  rw [Fields.major_decodeCtl _ _ rfl]
  simp [decodeCtl, Instr.canon, decodeSys]

theorem Fields.tres (w : Bool) (d a b : BitVec 5) : Fields.Statement (.tres w d a b) := by
  intro _ f h; cases h
  rw [Fields.major_decodeSup _ _ rfl]
  simp [decodeSup, Instr.canon]

theorem Fields.ctxsave (w : Bool) (d a b : BitVec 5) : Fields.Statement (.ctxsave w d a b) := by
  intro _ f h; cases h
  rw [Fields.major_decodeSup _ _ rfl]
  simp [decodeSup, Instr.canon]

theorem Fields.ctxload (w : Bool) (d a b : BitVec 5) : Fields.Statement (.ctxload w d a b) := by
  intro _ f h; cases h
  rw [Fields.major_decodeSup _ _ rfl]
  simp [decodeSup, Instr.canon]

theorem Fields.tlbinvPage (w : Bool) (a b : BitVec 5) : Fields.Statement (.tlbinvPage w a b) := by
  intro _ f h; cases h
  rw [Fields.major_decodeSup _ _ rfl]
  simp [decodeSup, Instr.canon]

theorem Fields.tlbinvPartition (w : Bool) (a b : BitVec 5) : Fields.Statement (.tlbinvPartition w a b) := by
  intro _ f h; cases h
  rw [Fields.major_decodeSup _ _ rfl]
  simp [decodeSup, Instr.canon]

theorem Fields.slotctlHold (w : Bool) (a b : BitVec 5) : Fields.Statement (.slotctlHold w a b) := by
  intro _ f h; cases h
  rw [Fields.major_decodeSup _ _ rfl]
  simp [decodeSup, Instr.canon]

theorem Fields.slotctlRelease (w : Bool) (a b : BitVec 5) : Fields.Statement (.slotctlRelease w a b) := by
  intro _ f h; cases h
  rw [Fields.major_decodeSup _ _ rfl]
  simp [decodeSup, Instr.canon]

theorem Fields.slotctlKill (w : Bool) (a b : BitVec 5) : Fields.Statement (.slotctlKill w a b) := by
  intro _ f h; cases h
  rw [Fields.major_decodeSup _ _ rfl]
  simp [decodeSup, Instr.canon]

theorem Fields.slotctlDebug (w : Bool) (a b : BitVec 5) : Fields.Statement (.slotctlDebug w a b) := by
  intro _ f h; cases h
  rw [Fields.major_decodeSup _ _ rfl]
  simp [decodeSup, Instr.canon]

theorem Fields.slotctlPool (w : Bool) (a b : BitVec 5) : Fields.Statement (.slotctlPool w a b) := by
  intro _ f h; cases h
  rw [Fields.major_decodeSup _ _ rfl]
  simp [decodeSup, Instr.canon]

theorem Fields.wakepThread (w : Bool) (a : BitVec 5) : Fields.Statement (.wakepThread w a) := by
  intro _ f h; cases h
  rw [Fields.major_decodeSup _ _ rfl]
  simp [decodeSup, Instr.canon]

theorem Fields.wakepAgent (w : Bool) (a : BitVec 5) : Fields.Statement (.wakepAgent w a) := by
  intro _ f h; cases h
  rw [Fields.major_decodeSup _ _ rfl]
  simp [decodeSup, Instr.canon]

theorem Fields.vectorSequencerStart (core : Nat) : Fields.Statement (.vectorSequencerStart core) := by
  intro _ f h; cases h

theorem Fields.longLatencyResultLand (slot n : Nat) : Fields.Statement (.longLatencyResultLand slot n) := by
  intro _ f h; cases h

theorem Fields.trapRecordDeferredWrite (cluster : Nat) : Fields.Statement (.trapRecordDeferredWrite cluster) := by
  intro _ f h; cases h

theorem Fields.springDispatch (cluster : Nat) : Fields.Statement (.springDispatch cluster) := by
  intro _ f h; cases h

theorem Fields.gangJoinRelease (quad slot : Nat) : Fields.Statement (.gangJoinRelease quad slot) := by
  intro _ f h; cases h

theorem Fields.gangOpStart (quad : Nat) : Fields.Statement (.gangOpStart quad) := by
  intro _ f h; cases h

theorem Fields.gangKstepEnd (quad : Nat) : Fields.Statement (.gangKstepEnd quad) := by
  intro _ f h; cases h

theorem Fields.gangOpComplete (quad : Nat) : Fields.Statement (.gangOpComplete quad) := by
  intro _ f h; cases h

theorem Fields.mstDrainStart (core : Nat) : Fields.Statement (.mstDrainStart core) := by
  intro _ f h; cases h

theorem Fields.mstComplete (core : Nat) : Fields.Statement (.mstComplete core) := by
  intro _ f h; cases h

theorem Fields.leaseHomeRecord (line : Nat) : Fields.Statement (.leaseHomeRecord line) := by
  intro _ f h; cases h

theorem Fields.leaseExpire (slot : Nat) : Fields.Statement (.leaseExpire slot) := by
  intro _ f h; cases h

theorem Fields.vwaitPass (slot : Nat) : Fields.Statement (.vwaitPass slot) := by
  intro _ f h; cases h

theorem Fields.vwaitTimeout (slot : Nat) : Fields.Statement (.vwaitTimeout slot) := by
  intro _ f h; cases h

theorem Fields.barrierRelease (bkey : Nat) : Fields.Statement (.barrierRelease bkey) := by
  intro _ f h; cases h

theorem Fields.timewaitEnd (slot : Nat) : Fields.Statement (.timewaitEnd slot) := by
  intro _ f h; cases h

theorem Fields.scPerform : Fields.Statement (.scPerform) := by
  intro _ f h; cases h

theorem Fields.copyEngineEntry (unit : Nat) : Fields.Statement (.copyEngineEntry unit) := by
  intro _ f h; cases h

theorem Fields.engineEntryComplete (id : Nat) : Fields.Statement (.engineEntryComplete id) := by
  intro _ f h; cases h

theorem Fields.collMatch (key : BitVec 64) : Fields.Statement (.collMatch key) := by
  intro _ f h; cases h

theorem Fields.marchEntryTake (cluster : Nat) : Fields.Statement (.marchEntryTake cluster) := by
  intro _ f h; cases h

theorem Fields.marchStep (cluster id ray : Nat) : Fields.Statement (.marchStep cluster id ray) := by
  intro _ f h; cases h

theorem Fields.marchEntryComplete (cluster id : Nat) : Fields.Statement (.marchEntryComplete cluster id) := by
  intro _ f h; cases h

theorem Fields.meshTri (die q : Nat) : Fields.Statement (.meshTri die q) := by
  intro _ f h; cases h

theorem Fields.meshEnd (die q : Nat) : Fields.Statement (.meshEnd die q) := by
  intro _ f h; cases h

theorem Fields.tileJob (cluster q : Nat) : Fields.Statement (.tileJob cluster q) := by
  intro _ f h; cases h

theorem Fields.tileMark (cluster q : Nat) : Fields.Statement (.tileMark cluster q) := by
  intro _ f h; cases h

theorem Fields.binRender (cluster : Nat) : Fields.Statement (.binRender cluster) := by
  intro _ f h; cases h

theorem Fields.tileSpill (cluster : Nat) : Fields.Statement (.tileSpill cluster) := by
  intro _ f h; cases h

theorem Fields.fragmentWrite (cluster : Nat) : Fields.Statement (.fragmentWrite cluster) := by
  intro _ f h; cases h

theorem Fields.tileWriteback (cluster tile : Nat) : Fields.Statement (.tileWriteback cluster tile) := by
  intro _ f h; cases h

theorem Fields.blendOrdered (cluster q : Nat) : Fields.Statement (.blendOrdered cluster q) := by
  intro _ f h; cases h

theorem Fields.blendApply (cluster n : Nat) : Fields.Statement (.blendApply cluster n) := by
  intro _ f h; cases h

theorem Fields.blendDirect (cluster q : Nat) : Fields.Statement (.blendDirect cluster q) := by
  intro _ f h; cases h

theorem Fields.frameDone (frame : Nat) : Fields.Statement (.frameDone frame) := by
  intro _ f h; cases h

theorem Fields.frameUnbind (frame : Nat) : Fields.Statement (.frameUnbind frame) := by
  intro _ f h; cases h

theorem Fields.doorbell (part q : Nat) (value : BitVec 64) : Fields.Statement (.doorbell part q value) := by
  intro _ f h; cases h

theorem Fields.packetNop (part q : Nat) : Fields.Statement (.packetNop part q) := by
  intro _ f h; cases h

theorem Fields.packetLaunch (part q : Nat) : Fields.Statement (.packetLaunch part q) := by
  intro _ f h; cases h

theorem Fields.packetBarrier (part q : Nat) : Fields.Statement (.packetBarrier part q) := by
  intro _ f h; cases h

theorem Fields.packetCopy (part q : Nat) : Fields.Statement (.packetCopy part q) := by
  intro _ f h; cases h

theorem Fields.packetSignal (part q : Nat) : Fields.Statement (.packetSignal part q) := by
  intro _ f h; cases h

theorem Fields.packetFrame (part q : Nat) : Fields.Statement (.packetFrame part q) := by
  intro _ f h; cases h

theorem Fields.barrierEvaluate (part q : Nat) : Fields.Statement (.barrierEvaluate part q) := by
  intro _ f h; cases h

theorem Fields.launchDispatch (part : Nat) : Fields.Statement (.launchDispatch part) := by
  intro _ f h; cases h

theorem Fields.launchComplete (launch : Nat) : Fields.Statement (.launchComplete launch) := by
  intro _ f h; cases h

theorem Fields.preemption (part : Nat) : Fields.Statement (.preemption part) := by
  intro _ f h; cases h

theorem Fields.queueReset (part q : Nat) : Fields.Statement (.queueReset part q) := by
  intro _ f h; cases h

theorem Fields.engineReset (part kind unit : Nat) : Fields.Statement (.engineReset part kind unit) := by
  intro _ f h; cases h

theorem Fields.resetPartition (part : Nat) : Fields.Statement (.resetPartition part) := by
  intro _ f h; cases h

theorem Fields.resetDie (die : Nat) : Fields.Statement (.resetDie die) := by
  intro _ f h; cases h

theorem Fields.dieResetReturn (die : Nat) : Fields.Statement (.dieResetReturn die) := by
  intro _ f h; cases h

theorem Fields.resetFunction (wipe : Bool) : Fields.Statement (.resetFunction wipe) := by
  intro _ f h; cases h

theorem Fields.resetDevice : Fields.Statement (.resetDevice) := by
  intro _ f h; cases h

theorem Fields.powerUp : Fields.Statement (.powerUp) := by
  intro _ f h; cases h

theorem Fields.seal : Fields.Statement (.seal) := by
  intro _ f h; cases h

theorem Fields.sealComplete : Fields.Statement (.sealComplete) := by
  intro _ f h; cases h

theorem Fields.restore : Fields.Statement (.restore) := by
  intro _ f h; cases h

theorem Fields.thermalTrip : Fields.Statement (.thermalTrip) := by
  intro _ f h; cases h

theorem Fields.powerLimitThrottle : Fields.Statement (.powerLimitThrottle) := by
  intro _ f h; cases h

theorem Fields.mboxReport : Fields.Statement (.mboxReport) := by
  intro _ f h; cases h

theorem Fields.mboxCert : Fields.Statement (.mboxCert) := by
  intro _ f h; cases h

theorem Fields.mboxLifecycle : Fields.Statement (.mboxLifecycle) := by
  intro _ f h; cases h

theorem Fields.mboxLoadspring : Fields.Statement (.mboxLoadspring) := by
  intro _ f h; cases h

theorem Fields.mboxKeyxfer : Fields.Statement (.mboxKeyxfer) := by
  intro _ f h; cases h

theorem Fields.mboxKeyrecv : Fields.Statement (.mboxKeyrecv) := by
  intro _ f h; cases h

theorem Fields.codeLoad (part handle : Nat) : Fields.Statement (.codeLoad part handle) := by
  intro _ f h; cases h

theorem Fields.codeUnload (part handle : Nat) : Fields.Statement (.codeUnload part handle) := by
  intro _ f h; cases h

theorem Fields.codeUnloadForce (part handle : Nat) : Fields.Statement (.codeUnloadForce part handle) := by
  intro _ f h; cases h

theorem Fields.registerWrite (off n : Nat) (value : BitVec 64) : Fields.Statement (.registerWrite off n value) := by
  intro _ f h; cases h

theorem Fields.hostBar2Access (fn off n : Nat) (data : Option (BitVec 64)) : Fields.Statement (.hostBar2Access fn off n data) := by
  intro _ f h; cases h

theorem Fields.tarnLaneFail (link : Nat) : Fields.Statement (.tarnLaneFail link) := by
  intro _ f h; cases h

theorem Fields.podTimeSync (time : BitVec 64) : Fields.Statement (.podTimeSync time) := by
  intro _ f h; cases h

theorem Fields.hotnessEpochEnd : Fields.Statement (.hotnessEpochEnd) := by
  intro _ f h; cases h

theorem Fields.patrolScrub (addr : Nat) : Fields.Statement (.patrolScrub addr) := by
  intro _ f h; cases h

theorem Fields.illegalInstructionWord (word : BitVec 32) : Fields.Statement (.illegalInstructionWord word) := by
  intro _ f h; cases h

theorem Fields.instructionFetchFault : Fields.Statement (.instructionFetchFault) := by
  intro _ f h; cases h

theorem Fields.accessPerformed (core : Nat) : Fields.Statement (.accessPerformed core) := by
  intro _ f h; cases h

theorem Fields.strmLineEviction (core line : Nat) : Fields.Statement (.strmLineEviction core line) := by
  intro _ f h; cases h

theorem Fields.mixtrapRecordDrop (line : Nat) : Fields.Statement (.mixtrapRecordDrop line) := by
  intro _ f h; cases h

theorem Fields.softError (kind loc : Nat) (fatal : Bool) : Fields.Statement (.softError kind loc fatal) := by
  intro _ f h; cases h

theorem Fields.accessFromAnotherPackage (addr n : Nat) (data : Option (BitVec 64)) : Fields.Statement (.accessFromAnotherPackage addr n data) := by
  intro _ f h; cases h

theorem Fields.tarnLinkLoss (link : Nat) : Fields.Statement (.tarnLinkLoss link) := by
  intro _ f h; cases h

theorem Fields.tarnLinkTraining (link farPkg : Nat) : Fields.Statement (.tarnLinkTraining link farPkg) := by
  intro _ f h; cases h

end Sys2Proof.Laws
end

