-- ==== Sys2Proof/Laws/State.lean ====
section
/-! SUPPORT. What each update of the state leaves as it was: one lemma for a field and an update, true by definition, so that no proof
unfolds an update; and what is read back after each of them. -/
namespace Sys2Proof.Machine

/-! ### `State.setThread` -/

@[simp] theorem State.setThread_clk (s : State) (k : Nat) (t : Thread) : (s.setThread k t).clk = s.clk := rfl
@[simp] theorem State.setThread_gtime (s : State) (k : Nat) (t : Thread) : (s.setThread k t).gtime = s.gtime := rfl
@[simp] theorem State.setThread_gclk (s : State) (k : Nat) (t : Thread) : (s.setThread k t).gclk = s.gclk := rfl
@[simp] theorem State.setThread_gadj (s : State) (k : Nat) (t : Thread) : (s.setThread k t).gadj = s.gadj := rfl
@[simp] theorem State.setThread_mem (s : State) (k : Nat) (t : Thread) : (s.setThread k t).mem = s.mem := rfl
@[simp] theorem State.setThread_poison (s : State) (k : Nat) (t : Thread) : (s.setThread k t).poison = s.poison := rfl
@[simp] theorem State.setThread_latent (s : State) (k : Nat) (t : Thread) : (s.setThread k t).latent = s.latent := rfl
@[simp] theorem State.setThread_tierErrs (s : State) (k : Nat) (t : Thread) : (s.setThread k t).tierErrs = s.tierErrs := rfl
@[simp] theorem State.setThread_image (s : State) (k : Nat) (t : Thread) : (s.setThread k t).image = s.image := rfl
@[simp] theorem State.setThread_threads (s : State) (k : Nat) (t : Thread) : (s.setThread k t).threads = s.threads.set k t := rfl
@[simp] theorem State.setThread_cur (s : State) (k : Nat) (t : Thread) : (s.setThread k t).cur = s.cur := rfl
@[simp] theorem State.setThread_agenda (s : State) (k : Nat) (t : Thread) : (s.setThread k t).agenda = s.agenda := rfl
@[simp] theorem State.setThread_fresh (s : State) (k : Nat) (t : Thread) : (s.setThread k t).fresh = s.fresh := rfl
@[simp] theorem State.setThread_uid (s : State) (k : Nat) (t : Thread) : (s.setThread k t).uid = s.uid := rfl
@[simp] theorem State.setThread_cores (s : State) (k : Nat) (t : Thread) : (s.setThread k t).cores = s.cores := rfl
@[simp] theorem State.setThread_quads (s : State) (k : Nat) (t : Thread) : (s.setThread k t).quads = s.quads := rfl
@[simp] theorem State.setThread_clusters (s : State) (k : Nat) (t : Thread) : (s.setThread k t).clusters = s.clusters := rfl
@[simp] theorem State.setThread_dies (s : State) (k : Nat) (t : Thread) : (s.setThread k t).dies = s.dies := rfl
@[simp] theorem State.setThread_parts (s : State) (k : Nat) (t : Thread) : (s.setThread k t).parts = s.parts := rfl
@[simp] theorem State.setThread_launches (s : State) (k : Nat) (t : Thread) : (s.setThread k t).launches = s.launches := rfl
@[simp] theorem State.setThread_barriers (s : State) (k : Nat) (t : Thread) : (s.setThread k t).barriers = s.barriers := rfl
@[simp] theorem State.setThread_homes (s : State) (k : Nat) (t : Thread) : (s.setThread k t).homes = s.homes := rfl
@[simp] theorem State.setThread_scq (s : State) (k : Nat) (t : Thread) : (s.setThread k t).scq = s.scq := rfl
@[simp] theorem State.setThread_amoq (s : State) (k : Nat) (t : Thread) : (s.setThread k t).amoq = s.amoq := rfl
@[simp] theorem State.setThread_entries (s : State) (k : Nat) (t : Thread) : (s.setThread k t).entries = s.entries := rfl
@[simp] theorem State.setThread_fences (s : State) (k : Nat) (t : Thread) : (s.setThread k t).fences = s.fences := rfl
@[simp] theorem State.setThread_remote (s : State) (k : Nat) (t : Thread) : (s.setThread k t).remote = s.remote := rfl
@[simp] theorem State.setThread_aqueues (s : State) (k : Nat) (t : Thread) : (s.setThread k t).aqueues = s.aqueues := rfl
@[simp] theorem State.setThread_frames (s : State) (k : Nat) (t : Thread) : (s.setThread k t).frames = s.frames := rfl
@[simp] theorem State.setThread_tiles (s : State) (k : Nat) (t : Thread) : (s.setThread k t).tiles = s.tiles := rfl
@[simp] theorem State.setThread_marchLast (s : State) (k : Nat) (t : Thread) : (s.setThread k t).marchLast = s.marchLast := rfl
@[simp] theorem State.setThread_holds (s : State) (k : Nat) (t : Thread) : (s.setThread k t).holds = s.holds := rfl
@[simp] theorem State.setThread_woken (s : State) (k : Nat) (t : Thread) : (s.setThread k t).woken = s.woken := rfl
@[simp] theorem State.setThread_reqs (s : State) (k : Nat) (t : Thread) : (s.setThread k t).reqs = s.reqs := rfl
@[simp] theorem State.setThread_strong (s : State) (k : Nat) (t : Thread) : (s.setThread k t).strong = s.strong := rfl
@[simp] theorem State.setThread_hotness (s : State) (k : Nat) (t : Thread) : (s.setThread k t).hotness = s.hotness := rfl
@[simp] theorem State.setThread_hotOut (s : State) (k : Nat) (t : Thread) : (s.setThread k t).hotOut = s.hotOut := rfl
@[simp] theorem State.setThread_dev (s : State) (k : Nat) (t : Thread) : (s.setThread k t).dev = s.dev := rfl

/-! ### `State.putThr` -/

@[simp] theorem State.putThr_clk (s : State) (t : Thread) : (s.putThr t).clk = s.clk := rfl
@[simp] theorem State.putThr_gtime (s : State) (t : Thread) : (s.putThr t).gtime = s.gtime := rfl
@[simp] theorem State.putThr_gclk (s : State) (t : Thread) : (s.putThr t).gclk = s.gclk := rfl
@[simp] theorem State.putThr_gadj (s : State) (t : Thread) : (s.putThr t).gadj = s.gadj := rfl
@[simp] theorem State.putThr_mem (s : State) (t : Thread) : (s.putThr t).mem = s.mem := rfl
@[simp] theorem State.putThr_poison (s : State) (t : Thread) : (s.putThr t).poison = s.poison := rfl
@[simp] theorem State.putThr_latent (s : State) (t : Thread) : (s.putThr t).latent = s.latent := rfl
@[simp] theorem State.putThr_tierErrs (s : State) (t : Thread) : (s.putThr t).tierErrs = s.tierErrs := rfl
@[simp] theorem State.putThr_image (s : State) (t : Thread) : (s.putThr t).image = s.image := rfl
@[simp] theorem State.putThr_threads (s : State) (t : Thread) : (s.putThr t).threads = s.threads.set s.cur t := rfl
@[simp] theorem State.putThr_cur (s : State) (t : Thread) : (s.putThr t).cur = s.cur := rfl
@[simp] theorem State.putThr_agenda (s : State) (t : Thread) : (s.putThr t).agenda = s.agenda := rfl
@[simp] theorem State.putThr_fresh (s : State) (t : Thread) : (s.putThr t).fresh = s.fresh := rfl
@[simp] theorem State.putThr_uid (s : State) (t : Thread) : (s.putThr t).uid = s.uid := rfl
@[simp] theorem State.putThr_cores (s : State) (t : Thread) : (s.putThr t).cores = s.cores := rfl
@[simp] theorem State.putThr_quads (s : State) (t : Thread) : (s.putThr t).quads = s.quads := rfl
@[simp] theorem State.putThr_clusters (s : State) (t : Thread) : (s.putThr t).clusters = s.clusters := rfl
@[simp] theorem State.putThr_dies (s : State) (t : Thread) : (s.putThr t).dies = s.dies := rfl
@[simp] theorem State.putThr_parts (s : State) (t : Thread) : (s.putThr t).parts = s.parts := rfl
@[simp] theorem State.putThr_launches (s : State) (t : Thread) : (s.putThr t).launches = s.launches := rfl
@[simp] theorem State.putThr_barriers (s : State) (t : Thread) : (s.putThr t).barriers = s.barriers := rfl
@[simp] theorem State.putThr_homes (s : State) (t : Thread) : (s.putThr t).homes = s.homes := rfl
@[simp] theorem State.putThr_scq (s : State) (t : Thread) : (s.putThr t).scq = s.scq := rfl
@[simp] theorem State.putThr_amoq (s : State) (t : Thread) : (s.putThr t).amoq = s.amoq := rfl
@[simp] theorem State.putThr_entries (s : State) (t : Thread) : (s.putThr t).entries = s.entries := rfl
@[simp] theorem State.putThr_fences (s : State) (t : Thread) : (s.putThr t).fences = s.fences := rfl
@[simp] theorem State.putThr_remote (s : State) (t : Thread) : (s.putThr t).remote = s.remote := rfl
@[simp] theorem State.putThr_aqueues (s : State) (t : Thread) : (s.putThr t).aqueues = s.aqueues := rfl
@[simp] theorem State.putThr_frames (s : State) (t : Thread) : (s.putThr t).frames = s.frames := rfl
@[simp] theorem State.putThr_tiles (s : State) (t : Thread) : (s.putThr t).tiles = s.tiles := rfl
@[simp] theorem State.putThr_marchLast (s : State) (t : Thread) : (s.putThr t).marchLast = s.marchLast := rfl
@[simp] theorem State.putThr_holds (s : State) (t : Thread) : (s.putThr t).holds = s.holds := rfl
@[simp] theorem State.putThr_woken (s : State) (t : Thread) : (s.putThr t).woken = s.woken := rfl
@[simp] theorem State.putThr_reqs (s : State) (t : Thread) : (s.putThr t).reqs = s.reqs := rfl
@[simp] theorem State.putThr_strong (s : State) (t : Thread) : (s.putThr t).strong = s.strong := rfl
@[simp] theorem State.putThr_hotness (s : State) (t : Thread) : (s.putThr t).hotness = s.hotness := rfl
@[simp] theorem State.putThr_hotOut (s : State) (t : Thread) : (s.putThr t).hotOut = s.hotOut := rfl
@[simp] theorem State.putThr_dev (s : State) (t : Thread) : (s.putThr t).dev = s.dev := rfl

/-! ### `State.setCore` -/

@[simp] theorem State.setCore_clk (s : State) (c : Nat) (x : Core) : (s.setCore c x).clk = s.clk := rfl
@[simp] theorem State.setCore_gtime (s : State) (c : Nat) (x : Core) : (s.setCore c x).gtime = s.gtime := rfl
@[simp] theorem State.setCore_gclk (s : State) (c : Nat) (x : Core) : (s.setCore c x).gclk = s.gclk := rfl
@[simp] theorem State.setCore_gadj (s : State) (c : Nat) (x : Core) : (s.setCore c x).gadj = s.gadj := rfl
@[simp] theorem State.setCore_mem (s : State) (c : Nat) (x : Core) : (s.setCore c x).mem = s.mem := rfl
@[simp] theorem State.setCore_poison (s : State) (c : Nat) (x : Core) : (s.setCore c x).poison = s.poison := rfl
@[simp] theorem State.setCore_latent (s : State) (c : Nat) (x : Core) : (s.setCore c x).latent = s.latent := rfl
@[simp] theorem State.setCore_tierErrs (s : State) (c : Nat) (x : Core) : (s.setCore c x).tierErrs = s.tierErrs := rfl
@[simp] theorem State.setCore_image (s : State) (c : Nat) (x : Core) : (s.setCore c x).image = s.image := rfl
@[simp] theorem State.setCore_threads (s : State) (c : Nat) (x : Core) : (s.setCore c x).threads = s.threads := rfl
@[simp] theorem State.setCore_cur (s : State) (c : Nat) (x : Core) : (s.setCore c x).cur = s.cur := rfl
@[simp] theorem State.setCore_agenda (s : State) (c : Nat) (x : Core) : (s.setCore c x).agenda = s.agenda := rfl
@[simp] theorem State.setCore_fresh (s : State) (c : Nat) (x : Core) : (s.setCore c x).fresh = s.fresh := rfl
@[simp] theorem State.setCore_uid (s : State) (c : Nat) (x : Core) : (s.setCore c x).uid = s.uid := rfl
@[simp] theorem State.setCore_cores (s : State) (c : Nat) (x : Core) : (s.setCore c x).cores = s.cores.set c x := rfl
@[simp] theorem State.setCore_quads (s : State) (c : Nat) (x : Core) : (s.setCore c x).quads = s.quads := rfl
@[simp] theorem State.setCore_clusters (s : State) (c : Nat) (x : Core) : (s.setCore c x).clusters = s.clusters := rfl
@[simp] theorem State.setCore_dies (s : State) (c : Nat) (x : Core) : (s.setCore c x).dies = s.dies := rfl
@[simp] theorem State.setCore_parts (s : State) (c : Nat) (x : Core) : (s.setCore c x).parts = s.parts := rfl
@[simp] theorem State.setCore_launches (s : State) (c : Nat) (x : Core) : (s.setCore c x).launches = s.launches := rfl
@[simp] theorem State.setCore_barriers (s : State) (c : Nat) (x : Core) : (s.setCore c x).barriers = s.barriers := rfl
@[simp] theorem State.setCore_homes (s : State) (c : Nat) (x : Core) : (s.setCore c x).homes = s.homes := rfl
@[simp] theorem State.setCore_scq (s : State) (c : Nat) (x : Core) : (s.setCore c x).scq = s.scq := rfl
@[simp] theorem State.setCore_amoq (s : State) (c : Nat) (x : Core) : (s.setCore c x).amoq = s.amoq := rfl
@[simp] theorem State.setCore_entries (s : State) (c : Nat) (x : Core) : (s.setCore c x).entries = s.entries := rfl
@[simp] theorem State.setCore_fences (s : State) (c : Nat) (x : Core) : (s.setCore c x).fences = s.fences := rfl
@[simp] theorem State.setCore_remote (s : State) (c : Nat) (x : Core) : (s.setCore c x).remote = s.remote := rfl
@[simp] theorem State.setCore_aqueues (s : State) (c : Nat) (x : Core) : (s.setCore c x).aqueues = s.aqueues := rfl
@[simp] theorem State.setCore_frames (s : State) (c : Nat) (x : Core) : (s.setCore c x).frames = s.frames := rfl
@[simp] theorem State.setCore_tiles (s : State) (c : Nat) (x : Core) : (s.setCore c x).tiles = s.tiles := rfl
@[simp] theorem State.setCore_marchLast (s : State) (c : Nat) (x : Core) : (s.setCore c x).marchLast = s.marchLast := rfl
@[simp] theorem State.setCore_holds (s : State) (c : Nat) (x : Core) : (s.setCore c x).holds = s.holds := rfl
@[simp] theorem State.setCore_woken (s : State) (c : Nat) (x : Core) : (s.setCore c x).woken = s.woken := rfl
@[simp] theorem State.setCore_reqs (s : State) (c : Nat) (x : Core) : (s.setCore c x).reqs = s.reqs := rfl
@[simp] theorem State.setCore_strong (s : State) (c : Nat) (x : Core) : (s.setCore c x).strong = s.strong := rfl
@[simp] theorem State.setCore_hotness (s : State) (c : Nat) (x : Core) : (s.setCore c x).hotness = s.hotness := rfl
@[simp] theorem State.setCore_hotOut (s : State) (c : Nat) (x : Core) : (s.setCore c x).hotOut = s.hotOut := rfl
@[simp] theorem State.setCore_dev (s : State) (c : Nat) (x : Core) : (s.setCore c x).dev = s.dev := rfl

/-! ### `State.setCluster` -/

@[simp] theorem State.setCluster_clk (s : State) (c : Nat) (x : Cluster) : (s.setCluster c x).clk = s.clk := rfl
@[simp] theorem State.setCluster_gtime (s : State) (c : Nat) (x : Cluster) : (s.setCluster c x).gtime = s.gtime := rfl
@[simp] theorem State.setCluster_gclk (s : State) (c : Nat) (x : Cluster) : (s.setCluster c x).gclk = s.gclk := rfl
@[simp] theorem State.setCluster_gadj (s : State) (c : Nat) (x : Cluster) : (s.setCluster c x).gadj = s.gadj := rfl
@[simp] theorem State.setCluster_mem (s : State) (c : Nat) (x : Cluster) : (s.setCluster c x).mem = s.mem := rfl
@[simp] theorem State.setCluster_poison (s : State) (c : Nat) (x : Cluster) : (s.setCluster c x).poison = s.poison := rfl
@[simp] theorem State.setCluster_latent (s : State) (c : Nat) (x : Cluster) : (s.setCluster c x).latent = s.latent := rfl
@[simp] theorem State.setCluster_tierErrs (s : State) (c : Nat) (x : Cluster) : (s.setCluster c x).tierErrs = s.tierErrs := rfl
@[simp] theorem State.setCluster_image (s : State) (c : Nat) (x : Cluster) : (s.setCluster c x).image = s.image := rfl
@[simp] theorem State.setCluster_threads (s : State) (c : Nat) (x : Cluster) : (s.setCluster c x).threads = s.threads := rfl
@[simp] theorem State.setCluster_cur (s : State) (c : Nat) (x : Cluster) : (s.setCluster c x).cur = s.cur := rfl
@[simp] theorem State.setCluster_agenda (s : State) (c : Nat) (x : Cluster) : (s.setCluster c x).agenda = s.agenda := rfl
@[simp] theorem State.setCluster_fresh (s : State) (c : Nat) (x : Cluster) : (s.setCluster c x).fresh = s.fresh := rfl
@[simp] theorem State.setCluster_uid (s : State) (c : Nat) (x : Cluster) : (s.setCluster c x).uid = s.uid := rfl
@[simp] theorem State.setCluster_cores (s : State) (c : Nat) (x : Cluster) : (s.setCluster c x).cores = s.cores := rfl
@[simp] theorem State.setCluster_quads (s : State) (c : Nat) (x : Cluster) : (s.setCluster c x).quads = s.quads := rfl
@[simp] theorem State.setCluster_clusters (s : State) (c : Nat) (x : Cluster) : (s.setCluster c x).clusters = s.clusters.set c x := rfl
@[simp] theorem State.setCluster_dies (s : State) (c : Nat) (x : Cluster) : (s.setCluster c x).dies = s.dies := rfl
@[simp] theorem State.setCluster_parts (s : State) (c : Nat) (x : Cluster) : (s.setCluster c x).parts = s.parts := rfl
@[simp] theorem State.setCluster_launches (s : State) (c : Nat) (x : Cluster) : (s.setCluster c x).launches = s.launches := rfl
@[simp] theorem State.setCluster_barriers (s : State) (c : Nat) (x : Cluster) : (s.setCluster c x).barriers = s.barriers := rfl
@[simp] theorem State.setCluster_homes (s : State) (c : Nat) (x : Cluster) : (s.setCluster c x).homes = s.homes := rfl
@[simp] theorem State.setCluster_scq (s : State) (c : Nat) (x : Cluster) : (s.setCluster c x).scq = s.scq := rfl
@[simp] theorem State.setCluster_amoq (s : State) (c : Nat) (x : Cluster) : (s.setCluster c x).amoq = s.amoq := rfl
@[simp] theorem State.setCluster_entries (s : State) (c : Nat) (x : Cluster) : (s.setCluster c x).entries = s.entries := rfl
@[simp] theorem State.setCluster_fences (s : State) (c : Nat) (x : Cluster) : (s.setCluster c x).fences = s.fences := rfl
@[simp] theorem State.setCluster_remote (s : State) (c : Nat) (x : Cluster) : (s.setCluster c x).remote = s.remote := rfl
@[simp] theorem State.setCluster_aqueues (s : State) (c : Nat) (x : Cluster) : (s.setCluster c x).aqueues = s.aqueues := rfl
@[simp] theorem State.setCluster_frames (s : State) (c : Nat) (x : Cluster) : (s.setCluster c x).frames = s.frames := rfl
@[simp] theorem State.setCluster_tiles (s : State) (c : Nat) (x : Cluster) : (s.setCluster c x).tiles = s.tiles := rfl
@[simp] theorem State.setCluster_marchLast (s : State) (c : Nat) (x : Cluster) : (s.setCluster c x).marchLast = s.marchLast := rfl
@[simp] theorem State.setCluster_holds (s : State) (c : Nat) (x : Cluster) : (s.setCluster c x).holds = s.holds := rfl
@[simp] theorem State.setCluster_woken (s : State) (c : Nat) (x : Cluster) : (s.setCluster c x).woken = s.woken := rfl
@[simp] theorem State.setCluster_reqs (s : State) (c : Nat) (x : Cluster) : (s.setCluster c x).reqs = s.reqs := rfl
@[simp] theorem State.setCluster_strong (s : State) (c : Nat) (x : Cluster) : (s.setCluster c x).strong = s.strong := rfl
@[simp] theorem State.setCluster_hotness (s : State) (c : Nat) (x : Cluster) : (s.setCluster c x).hotness = s.hotness := rfl
@[simp] theorem State.setCluster_hotOut (s : State) (c : Nat) (x : Cluster) : (s.setCluster c x).hotOut = s.hotOut := rfl
@[simp] theorem State.setCluster_dev (s : State) (c : Nat) (x : Cluster) : (s.setCluster c x).dev = s.dev := rfl

/-! ### `State.setDie` -/

@[simp] theorem State.setDie_clk (s : State) (d : Nat) (x : Die) : (s.setDie d x).clk = s.clk := rfl
@[simp] theorem State.setDie_gtime (s : State) (d : Nat) (x : Die) : (s.setDie d x).gtime = s.gtime := rfl
@[simp] theorem State.setDie_gclk (s : State) (d : Nat) (x : Die) : (s.setDie d x).gclk = s.gclk := rfl
@[simp] theorem State.setDie_gadj (s : State) (d : Nat) (x : Die) : (s.setDie d x).gadj = s.gadj := rfl
@[simp] theorem State.setDie_mem (s : State) (d : Nat) (x : Die) : (s.setDie d x).mem = s.mem := rfl
@[simp] theorem State.setDie_poison (s : State) (d : Nat) (x : Die) : (s.setDie d x).poison = s.poison := rfl
@[simp] theorem State.setDie_latent (s : State) (d : Nat) (x : Die) : (s.setDie d x).latent = s.latent := rfl
@[simp] theorem State.setDie_tierErrs (s : State) (d : Nat) (x : Die) : (s.setDie d x).tierErrs = s.tierErrs := rfl
@[simp] theorem State.setDie_image (s : State) (d : Nat) (x : Die) : (s.setDie d x).image = s.image := rfl
@[simp] theorem State.setDie_threads (s : State) (d : Nat) (x : Die) : (s.setDie d x).threads = s.threads := rfl
@[simp] theorem State.setDie_cur (s : State) (d : Nat) (x : Die) : (s.setDie d x).cur = s.cur := rfl
@[simp] theorem State.setDie_agenda (s : State) (d : Nat) (x : Die) : (s.setDie d x).agenda = s.agenda := rfl
@[simp] theorem State.setDie_fresh (s : State) (d : Nat) (x : Die) : (s.setDie d x).fresh = s.fresh := rfl
@[simp] theorem State.setDie_uid (s : State) (d : Nat) (x : Die) : (s.setDie d x).uid = s.uid := rfl
@[simp] theorem State.setDie_cores (s : State) (d : Nat) (x : Die) : (s.setDie d x).cores = s.cores := rfl
@[simp] theorem State.setDie_quads (s : State) (d : Nat) (x : Die) : (s.setDie d x).quads = s.quads := rfl
@[simp] theorem State.setDie_clusters (s : State) (d : Nat) (x : Die) : (s.setDie d x).clusters = s.clusters := rfl
@[simp] theorem State.setDie_dies (s : State) (d : Nat) (x : Die) : (s.setDie d x).dies = s.dies.set d x := rfl
@[simp] theorem State.setDie_parts (s : State) (d : Nat) (x : Die) : (s.setDie d x).parts = s.parts := rfl
@[simp] theorem State.setDie_launches (s : State) (d : Nat) (x : Die) : (s.setDie d x).launches = s.launches := rfl
@[simp] theorem State.setDie_barriers (s : State) (d : Nat) (x : Die) : (s.setDie d x).barriers = s.barriers := rfl
@[simp] theorem State.setDie_homes (s : State) (d : Nat) (x : Die) : (s.setDie d x).homes = s.homes := rfl
@[simp] theorem State.setDie_scq (s : State) (d : Nat) (x : Die) : (s.setDie d x).scq = s.scq := rfl
@[simp] theorem State.setDie_amoq (s : State) (d : Nat) (x : Die) : (s.setDie d x).amoq = s.amoq := rfl
@[simp] theorem State.setDie_entries (s : State) (d : Nat) (x : Die) : (s.setDie d x).entries = s.entries := rfl
@[simp] theorem State.setDie_fences (s : State) (d : Nat) (x : Die) : (s.setDie d x).fences = s.fences := rfl
@[simp] theorem State.setDie_remote (s : State) (d : Nat) (x : Die) : (s.setDie d x).remote = s.remote := rfl
@[simp] theorem State.setDie_aqueues (s : State) (d : Nat) (x : Die) : (s.setDie d x).aqueues = s.aqueues := rfl
@[simp] theorem State.setDie_frames (s : State) (d : Nat) (x : Die) : (s.setDie d x).frames = s.frames := rfl
@[simp] theorem State.setDie_tiles (s : State) (d : Nat) (x : Die) : (s.setDie d x).tiles = s.tiles := rfl
@[simp] theorem State.setDie_marchLast (s : State) (d : Nat) (x : Die) : (s.setDie d x).marchLast = s.marchLast := rfl
@[simp] theorem State.setDie_holds (s : State) (d : Nat) (x : Die) : (s.setDie d x).holds = s.holds := rfl
@[simp] theorem State.setDie_woken (s : State) (d : Nat) (x : Die) : (s.setDie d x).woken = s.woken := rfl
@[simp] theorem State.setDie_reqs (s : State) (d : Nat) (x : Die) : (s.setDie d x).reqs = s.reqs := rfl
@[simp] theorem State.setDie_strong (s : State) (d : Nat) (x : Die) : (s.setDie d x).strong = s.strong := rfl
@[simp] theorem State.setDie_hotness (s : State) (d : Nat) (x : Die) : (s.setDie d x).hotness = s.hotness := rfl
@[simp] theorem State.setDie_hotOut (s : State) (d : Nat) (x : Die) : (s.setDie d x).hotOut = s.hotOut := rfl
@[simp] theorem State.setDie_dev (s : State) (d : Nat) (x : Die) : (s.setDie d x).dev = s.dev := rfl

/-! ### `State.setQuad` -/

@[simp] theorem State.setQuad_clk (s : State) (q : Nat) (x : Gang) : (s.setQuad q x).clk = s.clk := rfl
@[simp] theorem State.setQuad_gtime (s : State) (q : Nat) (x : Gang) : (s.setQuad q x).gtime = s.gtime := rfl
@[simp] theorem State.setQuad_gclk (s : State) (q : Nat) (x : Gang) : (s.setQuad q x).gclk = s.gclk := rfl
@[simp] theorem State.setQuad_gadj (s : State) (q : Nat) (x : Gang) : (s.setQuad q x).gadj = s.gadj := rfl
@[simp] theorem State.setQuad_mem (s : State) (q : Nat) (x : Gang) : (s.setQuad q x).mem = s.mem := rfl
@[simp] theorem State.setQuad_poison (s : State) (q : Nat) (x : Gang) : (s.setQuad q x).poison = s.poison := rfl
@[simp] theorem State.setQuad_latent (s : State) (q : Nat) (x : Gang) : (s.setQuad q x).latent = s.latent := rfl
@[simp] theorem State.setQuad_tierErrs (s : State) (q : Nat) (x : Gang) : (s.setQuad q x).tierErrs = s.tierErrs := rfl
@[simp] theorem State.setQuad_image (s : State) (q : Nat) (x : Gang) : (s.setQuad q x).image = s.image := rfl
@[simp] theorem State.setQuad_threads (s : State) (q : Nat) (x : Gang) : (s.setQuad q x).threads = s.threads := rfl
@[simp] theorem State.setQuad_cur (s : State) (q : Nat) (x : Gang) : (s.setQuad q x).cur = s.cur := rfl
@[simp] theorem State.setQuad_agenda (s : State) (q : Nat) (x : Gang) : (s.setQuad q x).agenda = s.agenda := rfl
@[simp] theorem State.setQuad_fresh (s : State) (q : Nat) (x : Gang) : (s.setQuad q x).fresh = s.fresh := rfl
@[simp] theorem State.setQuad_uid (s : State) (q : Nat) (x : Gang) : (s.setQuad q x).uid = s.uid := rfl
@[simp] theorem State.setQuad_cores (s : State) (q : Nat) (x : Gang) : (s.setQuad q x).cores = s.cores := rfl
@[simp] theorem State.setQuad_quads (s : State) (q : Nat) (x : Gang) : (s.setQuad q x).quads = s.quads.set q x := rfl
@[simp] theorem State.setQuad_clusters (s : State) (q : Nat) (x : Gang) : (s.setQuad q x).clusters = s.clusters := rfl
@[simp] theorem State.setQuad_dies (s : State) (q : Nat) (x : Gang) : (s.setQuad q x).dies = s.dies := rfl
@[simp] theorem State.setQuad_parts (s : State) (q : Nat) (x : Gang) : (s.setQuad q x).parts = s.parts := rfl
@[simp] theorem State.setQuad_launches (s : State) (q : Nat) (x : Gang) : (s.setQuad q x).launches = s.launches := rfl
@[simp] theorem State.setQuad_barriers (s : State) (q : Nat) (x : Gang) : (s.setQuad q x).barriers = s.barriers := rfl
@[simp] theorem State.setQuad_homes (s : State) (q : Nat) (x : Gang) : (s.setQuad q x).homes = s.homes := rfl
@[simp] theorem State.setQuad_scq (s : State) (q : Nat) (x : Gang) : (s.setQuad q x).scq = s.scq := rfl
@[simp] theorem State.setQuad_amoq (s : State) (q : Nat) (x : Gang) : (s.setQuad q x).amoq = s.amoq := rfl
@[simp] theorem State.setQuad_entries (s : State) (q : Nat) (x : Gang) : (s.setQuad q x).entries = s.entries := rfl
@[simp] theorem State.setQuad_fences (s : State) (q : Nat) (x : Gang) : (s.setQuad q x).fences = s.fences := rfl
@[simp] theorem State.setQuad_remote (s : State) (q : Nat) (x : Gang) : (s.setQuad q x).remote = s.remote := rfl
@[simp] theorem State.setQuad_aqueues (s : State) (q : Nat) (x : Gang) : (s.setQuad q x).aqueues = s.aqueues := rfl
@[simp] theorem State.setQuad_frames (s : State) (q : Nat) (x : Gang) : (s.setQuad q x).frames = s.frames := rfl
@[simp] theorem State.setQuad_tiles (s : State) (q : Nat) (x : Gang) : (s.setQuad q x).tiles = s.tiles := rfl
@[simp] theorem State.setQuad_marchLast (s : State) (q : Nat) (x : Gang) : (s.setQuad q x).marchLast = s.marchLast := rfl
@[simp] theorem State.setQuad_holds (s : State) (q : Nat) (x : Gang) : (s.setQuad q x).holds = s.holds := rfl
@[simp] theorem State.setQuad_woken (s : State) (q : Nat) (x : Gang) : (s.setQuad q x).woken = s.woken := rfl
@[simp] theorem State.setQuad_reqs (s : State) (q : Nat) (x : Gang) : (s.setQuad q x).reqs = s.reqs := rfl
@[simp] theorem State.setQuad_strong (s : State) (q : Nat) (x : Gang) : (s.setQuad q x).strong = s.strong := rfl
@[simp] theorem State.setQuad_hotness (s : State) (q : Nat) (x : Gang) : (s.setQuad q x).hotness = s.hotness := rfl
@[simp] theorem State.setQuad_hotOut (s : State) (q : Nat) (x : Gang) : (s.setQuad q x).hotOut = s.hotOut := rfl
@[simp] theorem State.setQuad_dev (s : State) (q : Nat) (x : Gang) : (s.setQuad q x).dev = s.dev := rfl

/-! ### `State.setPart` -/

@[simp] theorem State.setPart_clk (s : State) (p : Nat) (x : Partition) : (s.setPart p x).clk = s.clk := rfl
@[simp] theorem State.setPart_gtime (s : State) (p : Nat) (x : Partition) : (s.setPart p x).gtime = s.gtime := rfl
@[simp] theorem State.setPart_gclk (s : State) (p : Nat) (x : Partition) : (s.setPart p x).gclk = s.gclk := rfl
@[simp] theorem State.setPart_gadj (s : State) (p : Nat) (x : Partition) : (s.setPart p x).gadj = s.gadj := rfl
@[simp] theorem State.setPart_mem (s : State) (p : Nat) (x : Partition) : (s.setPart p x).mem = s.mem := rfl
@[simp] theorem State.setPart_poison (s : State) (p : Nat) (x : Partition) : (s.setPart p x).poison = s.poison := rfl
@[simp] theorem State.setPart_latent (s : State) (p : Nat) (x : Partition) : (s.setPart p x).latent = s.latent := rfl
@[simp] theorem State.setPart_tierErrs (s : State) (p : Nat) (x : Partition) : (s.setPart p x).tierErrs = s.tierErrs := rfl
@[simp] theorem State.setPart_image (s : State) (p : Nat) (x : Partition) : (s.setPart p x).image = s.image := rfl
@[simp] theorem State.setPart_threads (s : State) (p : Nat) (x : Partition) : (s.setPart p x).threads = s.threads := rfl
@[simp] theorem State.setPart_cur (s : State) (p : Nat) (x : Partition) : (s.setPart p x).cur = s.cur := rfl
@[simp] theorem State.setPart_agenda (s : State) (p : Nat) (x : Partition) : (s.setPart p x).agenda = s.agenda := rfl
@[simp] theorem State.setPart_fresh (s : State) (p : Nat) (x : Partition) : (s.setPart p x).fresh = s.fresh := rfl
@[simp] theorem State.setPart_uid (s : State) (p : Nat) (x : Partition) : (s.setPart p x).uid = s.uid := rfl
@[simp] theorem State.setPart_cores (s : State) (p : Nat) (x : Partition) : (s.setPart p x).cores = s.cores := rfl
@[simp] theorem State.setPart_quads (s : State) (p : Nat) (x : Partition) : (s.setPart p x).quads = s.quads := rfl
@[simp] theorem State.setPart_clusters (s : State) (p : Nat) (x : Partition) : (s.setPart p x).clusters = s.clusters := rfl
@[simp] theorem State.setPart_dies (s : State) (p : Nat) (x : Partition) : (s.setPart p x).dies = s.dies := rfl
@[simp] theorem State.setPart_parts (s : State) (p : Nat) (x : Partition) : (s.setPart p x).parts = s.parts.set p x := rfl
@[simp] theorem State.setPart_launches (s : State) (p : Nat) (x : Partition) : (s.setPart p x).launches = s.launches := rfl
@[simp] theorem State.setPart_barriers (s : State) (p : Nat) (x : Partition) : (s.setPart p x).barriers = s.barriers := rfl
@[simp] theorem State.setPart_homes (s : State) (p : Nat) (x : Partition) : (s.setPart p x).homes = s.homes := rfl
@[simp] theorem State.setPart_scq (s : State) (p : Nat) (x : Partition) : (s.setPart p x).scq = s.scq := rfl
@[simp] theorem State.setPart_amoq (s : State) (p : Nat) (x : Partition) : (s.setPart p x).amoq = s.amoq := rfl
@[simp] theorem State.setPart_entries (s : State) (p : Nat) (x : Partition) : (s.setPart p x).entries = s.entries := rfl
@[simp] theorem State.setPart_fences (s : State) (p : Nat) (x : Partition) : (s.setPart p x).fences = s.fences := rfl
@[simp] theorem State.setPart_remote (s : State) (p : Nat) (x : Partition) : (s.setPart p x).remote = s.remote := rfl
@[simp] theorem State.setPart_aqueues (s : State) (p : Nat) (x : Partition) : (s.setPart p x).aqueues = s.aqueues := rfl
@[simp] theorem State.setPart_frames (s : State) (p : Nat) (x : Partition) : (s.setPart p x).frames = s.frames := rfl
@[simp] theorem State.setPart_tiles (s : State) (p : Nat) (x : Partition) : (s.setPart p x).tiles = s.tiles := rfl
@[simp] theorem State.setPart_marchLast (s : State) (p : Nat) (x : Partition) : (s.setPart p x).marchLast = s.marchLast := rfl
@[simp] theorem State.setPart_holds (s : State) (p : Nat) (x : Partition) : (s.setPart p x).holds = s.holds := rfl
@[simp] theorem State.setPart_woken (s : State) (p : Nat) (x : Partition) : (s.setPart p x).woken = s.woken := rfl
@[simp] theorem State.setPart_reqs (s : State) (p : Nat) (x : Partition) : (s.setPart p x).reqs = s.reqs := rfl
@[simp] theorem State.setPart_strong (s : State) (p : Nat) (x : Partition) : (s.setPart p x).strong = s.strong := rfl
@[simp] theorem State.setPart_hotness (s : State) (p : Nat) (x : Partition) : (s.setPart p x).hotness = s.hotness := rfl
@[simp] theorem State.setPart_hotOut (s : State) (p : Nat) (x : Partition) : (s.setPart p x).hotOut = s.hotOut := rfl
@[simp] theorem State.setPart_dev (s : State) (p : Nat) (x : Partition) : (s.setPart p x).dev = s.dev := rfl

/-! ### `State.setAqueue` -/

@[simp] theorem State.setAqueue_clk (s : State) (k : Nat) (a : AgentQueue) : (s.setAqueue k a).clk = s.clk := rfl
@[simp] theorem State.setAqueue_gtime (s : State) (k : Nat) (a : AgentQueue) : (s.setAqueue k a).gtime = s.gtime := rfl
@[simp] theorem State.setAqueue_gclk (s : State) (k : Nat) (a : AgentQueue) : (s.setAqueue k a).gclk = s.gclk := rfl
@[simp] theorem State.setAqueue_gadj (s : State) (k : Nat) (a : AgentQueue) : (s.setAqueue k a).gadj = s.gadj := rfl
@[simp] theorem State.setAqueue_mem (s : State) (k : Nat) (a : AgentQueue) : (s.setAqueue k a).mem = s.mem := rfl
@[simp] theorem State.setAqueue_poison (s : State) (k : Nat) (a : AgentQueue) : (s.setAqueue k a).poison = s.poison := rfl
@[simp] theorem State.setAqueue_latent (s : State) (k : Nat) (a : AgentQueue) : (s.setAqueue k a).latent = s.latent := rfl
@[simp] theorem State.setAqueue_tierErrs (s : State) (k : Nat) (a : AgentQueue) : (s.setAqueue k a).tierErrs = s.tierErrs := rfl
@[simp] theorem State.setAqueue_image (s : State) (k : Nat) (a : AgentQueue) : (s.setAqueue k a).image = s.image := rfl
@[simp] theorem State.setAqueue_threads (s : State) (k : Nat) (a : AgentQueue) : (s.setAqueue k a).threads = s.threads := rfl
@[simp] theorem State.setAqueue_cur (s : State) (k : Nat) (a : AgentQueue) : (s.setAqueue k a).cur = s.cur := rfl
@[simp] theorem State.setAqueue_agenda (s : State) (k : Nat) (a : AgentQueue) : (s.setAqueue k a).agenda = s.agenda := rfl
@[simp] theorem State.setAqueue_fresh (s : State) (k : Nat) (a : AgentQueue) : (s.setAqueue k a).fresh = s.fresh := rfl
@[simp] theorem State.setAqueue_uid (s : State) (k : Nat) (a : AgentQueue) : (s.setAqueue k a).uid = s.uid := rfl
@[simp] theorem State.setAqueue_cores (s : State) (k : Nat) (a : AgentQueue) : (s.setAqueue k a).cores = s.cores := rfl
@[simp] theorem State.setAqueue_quads (s : State) (k : Nat) (a : AgentQueue) : (s.setAqueue k a).quads = s.quads := rfl
@[simp] theorem State.setAqueue_clusters (s : State) (k : Nat) (a : AgentQueue) : (s.setAqueue k a).clusters = s.clusters := rfl
@[simp] theorem State.setAqueue_dies (s : State) (k : Nat) (a : AgentQueue) : (s.setAqueue k a).dies = s.dies := rfl
@[simp] theorem State.setAqueue_parts (s : State) (k : Nat) (a : AgentQueue) : (s.setAqueue k a).parts = s.parts := rfl
@[simp] theorem State.setAqueue_launches (s : State) (k : Nat) (a : AgentQueue) : (s.setAqueue k a).launches = s.launches := rfl
@[simp] theorem State.setAqueue_barriers (s : State) (k : Nat) (a : AgentQueue) : (s.setAqueue k a).barriers = s.barriers := rfl
@[simp] theorem State.setAqueue_homes (s : State) (k : Nat) (a : AgentQueue) : (s.setAqueue k a).homes = s.homes := rfl
@[simp] theorem State.setAqueue_scq (s : State) (k : Nat) (a : AgentQueue) : (s.setAqueue k a).scq = s.scq := rfl
@[simp] theorem State.setAqueue_amoq (s : State) (k : Nat) (a : AgentQueue) : (s.setAqueue k a).amoq = s.amoq := rfl
@[simp] theorem State.setAqueue_entries (s : State) (k : Nat) (a : AgentQueue) : (s.setAqueue k a).entries = s.entries := rfl
@[simp] theorem State.setAqueue_fences (s : State) (k : Nat) (a : AgentQueue) : (s.setAqueue k a).fences = s.fences := rfl
@[simp] theorem State.setAqueue_remote (s : State) (k : Nat) (a : AgentQueue) : (s.setAqueue k a).remote = s.remote := rfl
@[simp] theorem State.setAqueue_aqueues (s : State) (k : Nat) (a : AgentQueue) : (s.setAqueue k a).aqueues = s.aqueues.set k a := rfl
@[simp] theorem State.setAqueue_frames (s : State) (k : Nat) (a : AgentQueue) : (s.setAqueue k a).frames = s.frames := rfl
@[simp] theorem State.setAqueue_tiles (s : State) (k : Nat) (a : AgentQueue) : (s.setAqueue k a).tiles = s.tiles := rfl
@[simp] theorem State.setAqueue_marchLast (s : State) (k : Nat) (a : AgentQueue) : (s.setAqueue k a).marchLast = s.marchLast := rfl
@[simp] theorem State.setAqueue_holds (s : State) (k : Nat) (a : AgentQueue) : (s.setAqueue k a).holds = s.holds := rfl
@[simp] theorem State.setAqueue_woken (s : State) (k : Nat) (a : AgentQueue) : (s.setAqueue k a).woken = s.woken := rfl
@[simp] theorem State.setAqueue_reqs (s : State) (k : Nat) (a : AgentQueue) : (s.setAqueue k a).reqs = s.reqs := rfl
@[simp] theorem State.setAqueue_strong (s : State) (k : Nat) (a : AgentQueue) : (s.setAqueue k a).strong = s.strong := rfl
@[simp] theorem State.setAqueue_hotness (s : State) (k : Nat) (a : AgentQueue) : (s.setAqueue k a).hotness = s.hotness := rfl
@[simp] theorem State.setAqueue_hotOut (s : State) (k : Nat) (a : AgentQueue) : (s.setAqueue k a).hotOut = s.hotOut := rfl
@[simp] theorem State.setAqueue_dev (s : State) (k : Nat) (a : AgentQueue) : (s.setAqueue k a).dev = s.dev := rfl

/-! ### `State.setFrame` -/

@[simp] theorem State.setFrame_clk (s : State) (f : Nat) (x : Frame) : (s.setFrame f x).clk = s.clk := rfl
@[simp] theorem State.setFrame_gtime (s : State) (f : Nat) (x : Frame) : (s.setFrame f x).gtime = s.gtime := rfl
@[simp] theorem State.setFrame_gclk (s : State) (f : Nat) (x : Frame) : (s.setFrame f x).gclk = s.gclk := rfl
@[simp] theorem State.setFrame_gadj (s : State) (f : Nat) (x : Frame) : (s.setFrame f x).gadj = s.gadj := rfl
@[simp] theorem State.setFrame_mem (s : State) (f : Nat) (x : Frame) : (s.setFrame f x).mem = s.mem := rfl
@[simp] theorem State.setFrame_poison (s : State) (f : Nat) (x : Frame) : (s.setFrame f x).poison = s.poison := rfl
@[simp] theorem State.setFrame_latent (s : State) (f : Nat) (x : Frame) : (s.setFrame f x).latent = s.latent := rfl
@[simp] theorem State.setFrame_tierErrs (s : State) (f : Nat) (x : Frame) : (s.setFrame f x).tierErrs = s.tierErrs := rfl
@[simp] theorem State.setFrame_image (s : State) (f : Nat) (x : Frame) : (s.setFrame f x).image = s.image := rfl
@[simp] theorem State.setFrame_threads (s : State) (f : Nat) (x : Frame) : (s.setFrame f x).threads = s.threads := rfl
@[simp] theorem State.setFrame_cur (s : State) (f : Nat) (x : Frame) : (s.setFrame f x).cur = s.cur := rfl
@[simp] theorem State.setFrame_agenda (s : State) (f : Nat) (x : Frame) : (s.setFrame f x).agenda = s.agenda := rfl
@[simp] theorem State.setFrame_fresh (s : State) (f : Nat) (x : Frame) : (s.setFrame f x).fresh = s.fresh := rfl
@[simp] theorem State.setFrame_uid (s : State) (f : Nat) (x : Frame) : (s.setFrame f x).uid = s.uid := rfl
@[simp] theorem State.setFrame_cores (s : State) (f : Nat) (x : Frame) : (s.setFrame f x).cores = s.cores := rfl
@[simp] theorem State.setFrame_quads (s : State) (f : Nat) (x : Frame) : (s.setFrame f x).quads = s.quads := rfl
@[simp] theorem State.setFrame_clusters (s : State) (f : Nat) (x : Frame) : (s.setFrame f x).clusters = s.clusters := rfl
@[simp] theorem State.setFrame_dies (s : State) (f : Nat) (x : Frame) : (s.setFrame f x).dies = s.dies := rfl
@[simp] theorem State.setFrame_parts (s : State) (f : Nat) (x : Frame) : (s.setFrame f x).parts = s.parts := rfl
@[simp] theorem State.setFrame_launches (s : State) (f : Nat) (x : Frame) : (s.setFrame f x).launches = s.launches := rfl
@[simp] theorem State.setFrame_barriers (s : State) (f : Nat) (x : Frame) : (s.setFrame f x).barriers = s.barriers := rfl
@[simp] theorem State.setFrame_homes (s : State) (f : Nat) (x : Frame) : (s.setFrame f x).homes = s.homes := rfl
@[simp] theorem State.setFrame_scq (s : State) (f : Nat) (x : Frame) : (s.setFrame f x).scq = s.scq := rfl
@[simp] theorem State.setFrame_amoq (s : State) (f : Nat) (x : Frame) : (s.setFrame f x).amoq = s.amoq := rfl
@[simp] theorem State.setFrame_entries (s : State) (f : Nat) (x : Frame) : (s.setFrame f x).entries = s.entries := rfl
@[simp] theorem State.setFrame_fences (s : State) (f : Nat) (x : Frame) : (s.setFrame f x).fences = s.fences := rfl
@[simp] theorem State.setFrame_remote (s : State) (f : Nat) (x : Frame) : (s.setFrame f x).remote = s.remote := rfl
@[simp] theorem State.setFrame_aqueues (s : State) (f : Nat) (x : Frame) : (s.setFrame f x).aqueues = s.aqueues := rfl
@[simp] theorem State.setFrame_frames (s : State) (f : Nat) (x : Frame) : (s.setFrame f x).frames = s.frames.set f x := rfl
@[simp] theorem State.setFrame_tiles (s : State) (f : Nat) (x : Frame) : (s.setFrame f x).tiles = s.tiles := rfl
@[simp] theorem State.setFrame_marchLast (s : State) (f : Nat) (x : Frame) : (s.setFrame f x).marchLast = s.marchLast := rfl
@[simp] theorem State.setFrame_holds (s : State) (f : Nat) (x : Frame) : (s.setFrame f x).holds = s.holds := rfl
@[simp] theorem State.setFrame_woken (s : State) (f : Nat) (x : Frame) : (s.setFrame f x).woken = s.woken := rfl
@[simp] theorem State.setFrame_reqs (s : State) (f : Nat) (x : Frame) : (s.setFrame f x).reqs = s.reqs := rfl
@[simp] theorem State.setFrame_strong (s : State) (f : Nat) (x : Frame) : (s.setFrame f x).strong = s.strong := rfl
@[simp] theorem State.setFrame_hotness (s : State) (f : Nat) (x : Frame) : (s.setFrame f x).hotness = s.hotness := rfl
@[simp] theorem State.setFrame_hotOut (s : State) (f : Nat) (x : Frame) : (s.setFrame f x).hotOut = s.hotOut := rfl
@[simp] theorem State.setFrame_dev (s : State) (f : Nat) (x : Frame) : (s.setFrame f x).dev = s.dev := rfl

/-! ### `State.setTile` -/

@[simp] theorem State.setTile_clk (s : State) (c : Nat) (u : TileUnit) : (s.setTile c u).clk = s.clk := rfl
@[simp] theorem State.setTile_gtime (s : State) (c : Nat) (u : TileUnit) : (s.setTile c u).gtime = s.gtime := rfl
@[simp] theorem State.setTile_gclk (s : State) (c : Nat) (u : TileUnit) : (s.setTile c u).gclk = s.gclk := rfl
@[simp] theorem State.setTile_gadj (s : State) (c : Nat) (u : TileUnit) : (s.setTile c u).gadj = s.gadj := rfl
@[simp] theorem State.setTile_mem (s : State) (c : Nat) (u : TileUnit) : (s.setTile c u).mem = s.mem := rfl
@[simp] theorem State.setTile_poison (s : State) (c : Nat) (u : TileUnit) : (s.setTile c u).poison = s.poison := rfl
@[simp] theorem State.setTile_latent (s : State) (c : Nat) (u : TileUnit) : (s.setTile c u).latent = s.latent := rfl
@[simp] theorem State.setTile_tierErrs (s : State) (c : Nat) (u : TileUnit) : (s.setTile c u).tierErrs = s.tierErrs := rfl
@[simp] theorem State.setTile_image (s : State) (c : Nat) (u : TileUnit) : (s.setTile c u).image = s.image := rfl
@[simp] theorem State.setTile_threads (s : State) (c : Nat) (u : TileUnit) : (s.setTile c u).threads = s.threads := rfl
@[simp] theorem State.setTile_cur (s : State) (c : Nat) (u : TileUnit) : (s.setTile c u).cur = s.cur := rfl
@[simp] theorem State.setTile_agenda (s : State) (c : Nat) (u : TileUnit) : (s.setTile c u).agenda = s.agenda := rfl
@[simp] theorem State.setTile_fresh (s : State) (c : Nat) (u : TileUnit) : (s.setTile c u).fresh = s.fresh := rfl
@[simp] theorem State.setTile_uid (s : State) (c : Nat) (u : TileUnit) : (s.setTile c u).uid = s.uid := rfl
@[simp] theorem State.setTile_cores (s : State) (c : Nat) (u : TileUnit) : (s.setTile c u).cores = s.cores := rfl
@[simp] theorem State.setTile_quads (s : State) (c : Nat) (u : TileUnit) : (s.setTile c u).quads = s.quads := rfl
@[simp] theorem State.setTile_clusters (s : State) (c : Nat) (u : TileUnit) : (s.setTile c u).clusters = s.clusters := rfl
@[simp] theorem State.setTile_dies (s : State) (c : Nat) (u : TileUnit) : (s.setTile c u).dies = s.dies := rfl
@[simp] theorem State.setTile_parts (s : State) (c : Nat) (u : TileUnit) : (s.setTile c u).parts = s.parts := rfl
@[simp] theorem State.setTile_launches (s : State) (c : Nat) (u : TileUnit) : (s.setTile c u).launches = s.launches := rfl
@[simp] theorem State.setTile_barriers (s : State) (c : Nat) (u : TileUnit) : (s.setTile c u).barriers = s.barriers := rfl
@[simp] theorem State.setTile_homes (s : State) (c : Nat) (u : TileUnit) : (s.setTile c u).homes = s.homes := rfl
@[simp] theorem State.setTile_scq (s : State) (c : Nat) (u : TileUnit) : (s.setTile c u).scq = s.scq := rfl
@[simp] theorem State.setTile_amoq (s : State) (c : Nat) (u : TileUnit) : (s.setTile c u).amoq = s.amoq := rfl
@[simp] theorem State.setTile_entries (s : State) (c : Nat) (u : TileUnit) : (s.setTile c u).entries = s.entries := rfl
@[simp] theorem State.setTile_fences (s : State) (c : Nat) (u : TileUnit) : (s.setTile c u).fences = s.fences := rfl
@[simp] theorem State.setTile_remote (s : State) (c : Nat) (u : TileUnit) : (s.setTile c u).remote = s.remote := rfl
@[simp] theorem State.setTile_aqueues (s : State) (c : Nat) (u : TileUnit) : (s.setTile c u).aqueues = s.aqueues := rfl
@[simp] theorem State.setTile_frames (s : State) (c : Nat) (u : TileUnit) : (s.setTile c u).frames = s.frames := rfl
@[simp] theorem State.setTile_tiles (s : State) (c : Nat) (u : TileUnit) : (s.setTile c u).tiles = s.tiles.set c u := rfl
@[simp] theorem State.setTile_marchLast (s : State) (c : Nat) (u : TileUnit) : (s.setTile c u).marchLast = s.marchLast := rfl
@[simp] theorem State.setTile_holds (s : State) (c : Nat) (u : TileUnit) : (s.setTile c u).holds = s.holds := rfl
@[simp] theorem State.setTile_woken (s : State) (c : Nat) (u : TileUnit) : (s.setTile c u).woken = s.woken := rfl
@[simp] theorem State.setTile_reqs (s : State) (c : Nat) (u : TileUnit) : (s.setTile c u).reqs = s.reqs := rfl
@[simp] theorem State.setTile_strong (s : State) (c : Nat) (u : TileUnit) : (s.setTile c u).strong = s.strong := rfl
@[simp] theorem State.setTile_hotness (s : State) (c : Nat) (u : TileUnit) : (s.setTile c u).hotness = s.hotness := rfl
@[simp] theorem State.setTile_hotOut (s : State) (c : Nat) (u : TileUnit) : (s.setTile c u).hotOut = s.hotOut := rfl
@[simp] theorem State.setTile_dev (s : State) (c : Nat) (u : TileUnit) : (s.setTile c u).dev = s.dev := rfl

/-! ### `State.setG` -/

@[simp] theorem State.setG_clk (s : State) (d : Nat) (v : Word) : (s.setG d v).clk = s.clk := rfl
@[simp] theorem State.setG_gtime (s : State) (d : Nat) (v : Word) : (s.setG d v).gtime = s.gtime := rfl
@[simp] theorem State.setG_gclk (s : State) (d : Nat) (v : Word) : (s.setG d v).gclk = s.gclk := rfl
@[simp] theorem State.setG_gadj (s : State) (d : Nat) (v : Word) : (s.setG d v).gadj = s.gadj := rfl
@[simp] theorem State.setG_mem (s : State) (d : Nat) (v : Word) : (s.setG d v).mem = s.mem := rfl
@[simp] theorem State.setG_poison (s : State) (d : Nat) (v : Word) : (s.setG d v).poison = s.poison := rfl
@[simp] theorem State.setG_latent (s : State) (d : Nat) (v : Word) : (s.setG d v).latent = s.latent := rfl
@[simp] theorem State.setG_tierErrs (s : State) (d : Nat) (v : Word) : (s.setG d v).tierErrs = s.tierErrs := rfl
@[simp] theorem State.setG_image (s : State) (d : Nat) (v : Word) : (s.setG d v).image = s.image := rfl
@[simp] theorem State.setG_cur (s : State) (d : Nat) (v : Word) : (s.setG d v).cur = s.cur := rfl
@[simp] theorem State.setG_agenda (s : State) (d : Nat) (v : Word) : (s.setG d v).agenda = s.agenda := rfl
@[simp] theorem State.setG_fresh (s : State) (d : Nat) (v : Word) : (s.setG d v).fresh = s.fresh := rfl
@[simp] theorem State.setG_uid (s : State) (d : Nat) (v : Word) : (s.setG d v).uid = s.uid := rfl
@[simp] theorem State.setG_cores (s : State) (d : Nat) (v : Word) : (s.setG d v).cores = s.cores := rfl
@[simp] theorem State.setG_quads (s : State) (d : Nat) (v : Word) : (s.setG d v).quads = s.quads := rfl
@[simp] theorem State.setG_clusters (s : State) (d : Nat) (v : Word) : (s.setG d v).clusters = s.clusters := rfl
@[simp] theorem State.setG_dies (s : State) (d : Nat) (v : Word) : (s.setG d v).dies = s.dies := rfl
@[simp] theorem State.setG_parts (s : State) (d : Nat) (v : Word) : (s.setG d v).parts = s.parts := rfl
@[simp] theorem State.setG_launches (s : State) (d : Nat) (v : Word) : (s.setG d v).launches = s.launches := rfl
@[simp] theorem State.setG_barriers (s : State) (d : Nat) (v : Word) : (s.setG d v).barriers = s.barriers := rfl
@[simp] theorem State.setG_homes (s : State) (d : Nat) (v : Word) : (s.setG d v).homes = s.homes := rfl
@[simp] theorem State.setG_scq (s : State) (d : Nat) (v : Word) : (s.setG d v).scq = s.scq := rfl
@[simp] theorem State.setG_amoq (s : State) (d : Nat) (v : Word) : (s.setG d v).amoq = s.amoq := rfl
@[simp] theorem State.setG_entries (s : State) (d : Nat) (v : Word) : (s.setG d v).entries = s.entries := rfl
@[simp] theorem State.setG_fences (s : State) (d : Nat) (v : Word) : (s.setG d v).fences = s.fences := rfl
@[simp] theorem State.setG_remote (s : State) (d : Nat) (v : Word) : (s.setG d v).remote = s.remote := rfl
@[simp] theorem State.setG_aqueues (s : State) (d : Nat) (v : Word) : (s.setG d v).aqueues = s.aqueues := rfl
@[simp] theorem State.setG_frames (s : State) (d : Nat) (v : Word) : (s.setG d v).frames = s.frames := rfl
@[simp] theorem State.setG_tiles (s : State) (d : Nat) (v : Word) : (s.setG d v).tiles = s.tiles := rfl
@[simp] theorem State.setG_marchLast (s : State) (d : Nat) (v : Word) : (s.setG d v).marchLast = s.marchLast := rfl
@[simp] theorem State.setG_holds (s : State) (d : Nat) (v : Word) : (s.setG d v).holds = s.holds := rfl
@[simp] theorem State.setG_woken (s : State) (d : Nat) (v : Word) : (s.setG d v).woken = s.woken := rfl
@[simp] theorem State.setG_reqs (s : State) (d : Nat) (v : Word) : (s.setG d v).reqs = s.reqs := rfl
@[simp] theorem State.setG_strong (s : State) (d : Nat) (v : Word) : (s.setG d v).strong = s.strong := rfl
@[simp] theorem State.setG_hotness (s : State) (d : Nat) (v : Word) : (s.setG d v).hotness = s.hotness := rfl
@[simp] theorem State.setG_hotOut (s : State) (d : Nat) (v : Word) : (s.setG d v).hotOut = s.hotOut := rfl
@[simp] theorem State.setG_dev (s : State) (d : Nat) (v : Word) : (s.setG d v).dev = s.dev := rfl

/-! ### `State.advance` -/

@[simp] theorem State.advance_clk (s : State) (n : Nat) : (s.advance n).clk = s.clk := rfl
@[simp] theorem State.advance_gtime (s : State) (n : Nat) : (s.advance n).gtime = s.gtime := rfl
@[simp] theorem State.advance_gclk (s : State) (n : Nat) : (s.advance n).gclk = s.gclk := rfl
@[simp] theorem State.advance_gadj (s : State) (n : Nat) : (s.advance n).gadj = s.gadj := rfl
@[simp] theorem State.advance_mem (s : State) (n : Nat) : (s.advance n).mem = s.mem := rfl
@[simp] theorem State.advance_poison (s : State) (n : Nat) : (s.advance n).poison = s.poison := rfl
@[simp] theorem State.advance_latent (s : State) (n : Nat) : (s.advance n).latent = s.latent := rfl
@[simp] theorem State.advance_tierErrs (s : State) (n : Nat) : (s.advance n).tierErrs = s.tierErrs := rfl
@[simp] theorem State.advance_image (s : State) (n : Nat) : (s.advance n).image = s.image := rfl
@[simp] theorem State.advance_cur (s : State) (n : Nat) : (s.advance n).cur = s.cur := rfl
@[simp] theorem State.advance_agenda (s : State) (n : Nat) : (s.advance n).agenda = s.agenda := rfl
@[simp] theorem State.advance_fresh (s : State) (n : Nat) : (s.advance n).fresh = s.fresh := rfl
@[simp] theorem State.advance_uid (s : State) (n : Nat) : (s.advance n).uid = s.uid := rfl
@[simp] theorem State.advance_cores (s : State) (n : Nat) : (s.advance n).cores = s.cores := rfl
@[simp] theorem State.advance_quads (s : State) (n : Nat) : (s.advance n).quads = s.quads := rfl
@[simp] theorem State.advance_clusters (s : State) (n : Nat) : (s.advance n).clusters = s.clusters := rfl
@[simp] theorem State.advance_dies (s : State) (n : Nat) : (s.advance n).dies = s.dies := rfl
@[simp] theorem State.advance_parts (s : State) (n : Nat) : (s.advance n).parts = s.parts := rfl
@[simp] theorem State.advance_launches (s : State) (n : Nat) : (s.advance n).launches = s.launches := rfl
@[simp] theorem State.advance_barriers (s : State) (n : Nat) : (s.advance n).barriers = s.barriers := rfl
@[simp] theorem State.advance_homes (s : State) (n : Nat) : (s.advance n).homes = s.homes := rfl
@[simp] theorem State.advance_scq (s : State) (n : Nat) : (s.advance n).scq = s.scq := rfl
@[simp] theorem State.advance_amoq (s : State) (n : Nat) : (s.advance n).amoq = s.amoq := rfl
@[simp] theorem State.advance_entries (s : State) (n : Nat) : (s.advance n).entries = s.entries := rfl
@[simp] theorem State.advance_fences (s : State) (n : Nat) : (s.advance n).fences = s.fences := rfl
@[simp] theorem State.advance_remote (s : State) (n : Nat) : (s.advance n).remote = s.remote := rfl
@[simp] theorem State.advance_aqueues (s : State) (n : Nat) : (s.advance n).aqueues = s.aqueues := rfl
@[simp] theorem State.advance_frames (s : State) (n : Nat) : (s.advance n).frames = s.frames := rfl
@[simp] theorem State.advance_tiles (s : State) (n : Nat) : (s.advance n).tiles = s.tiles := rfl
@[simp] theorem State.advance_marchLast (s : State) (n : Nat) : (s.advance n).marchLast = s.marchLast := rfl
@[simp] theorem State.advance_holds (s : State) (n : Nat) : (s.advance n).holds = s.holds := rfl
@[simp] theorem State.advance_woken (s : State) (n : Nat) : (s.advance n).woken = s.woken := rfl
@[simp] theorem State.advance_reqs (s : State) (n : Nat) : (s.advance n).reqs = s.reqs := rfl
@[simp] theorem State.advance_strong (s : State) (n : Nat) : (s.advance n).strong = s.strong := rfl
@[simp] theorem State.advance_hotness (s : State) (n : Nat) : (s.advance n).hotness = s.hotness := rfl
@[simp] theorem State.advance_hotOut (s : State) (n : Nat) : (s.advance n).hotOut = s.hotOut := rfl
@[simp] theorem State.advance_dev (s : State) (n : Nat) : (s.advance n).dev = s.dev := rfl

/-! ### `State.addPend` -/

@[simp] theorem State.addPend_clk (s : State) (rs : List (Nat × Word)) : (s.addPend rs).clk = s.clk := rfl
@[simp] theorem State.addPend_gtime (s : State) (rs : List (Nat × Word)) : (s.addPend rs).gtime = s.gtime := rfl
@[simp] theorem State.addPend_gclk (s : State) (rs : List (Nat × Word)) : (s.addPend rs).gclk = s.gclk := rfl
@[simp] theorem State.addPend_gadj (s : State) (rs : List (Nat × Word)) : (s.addPend rs).gadj = s.gadj := rfl
@[simp] theorem State.addPend_mem (s : State) (rs : List (Nat × Word)) : (s.addPend rs).mem = s.mem := rfl
@[simp] theorem State.addPend_poison (s : State) (rs : List (Nat × Word)) : (s.addPend rs).poison = s.poison := rfl
@[simp] theorem State.addPend_latent (s : State) (rs : List (Nat × Word)) : (s.addPend rs).latent = s.latent := rfl
@[simp] theorem State.addPend_tierErrs (s : State) (rs : List (Nat × Word)) : (s.addPend rs).tierErrs = s.tierErrs := rfl
@[simp] theorem State.addPend_image (s : State) (rs : List (Nat × Word)) : (s.addPend rs).image = s.image := rfl
@[simp] theorem State.addPend_cur (s : State) (rs : List (Nat × Word)) : (s.addPend rs).cur = s.cur := rfl
@[simp] theorem State.addPend_agenda (s : State) (rs : List (Nat × Word)) : (s.addPend rs).agenda = s.agenda := rfl
@[simp] theorem State.addPend_fresh (s : State) (rs : List (Nat × Word)) : (s.addPend rs).fresh = s.fresh := rfl
@[simp] theorem State.addPend_uid (s : State) (rs : List (Nat × Word)) : (s.addPend rs).uid = s.uid := rfl
@[simp] theorem State.addPend_cores (s : State) (rs : List (Nat × Word)) : (s.addPend rs).cores = s.cores := rfl
@[simp] theorem State.addPend_quads (s : State) (rs : List (Nat × Word)) : (s.addPend rs).quads = s.quads := rfl
@[simp] theorem State.addPend_clusters (s : State) (rs : List (Nat × Word)) : (s.addPend rs).clusters = s.clusters := rfl
@[simp] theorem State.addPend_dies (s : State) (rs : List (Nat × Word)) : (s.addPend rs).dies = s.dies := rfl
@[simp] theorem State.addPend_parts (s : State) (rs : List (Nat × Word)) : (s.addPend rs).parts = s.parts := rfl
@[simp] theorem State.addPend_launches (s : State) (rs : List (Nat × Word)) : (s.addPend rs).launches = s.launches := rfl
@[simp] theorem State.addPend_barriers (s : State) (rs : List (Nat × Word)) : (s.addPend rs).barriers = s.barriers := rfl
@[simp] theorem State.addPend_homes (s : State) (rs : List (Nat × Word)) : (s.addPend rs).homes = s.homes := rfl
@[simp] theorem State.addPend_scq (s : State) (rs : List (Nat × Word)) : (s.addPend rs).scq = s.scq := rfl
@[simp] theorem State.addPend_amoq (s : State) (rs : List (Nat × Word)) : (s.addPend rs).amoq = s.amoq := rfl
@[simp] theorem State.addPend_entries (s : State) (rs : List (Nat × Word)) : (s.addPend rs).entries = s.entries := rfl
@[simp] theorem State.addPend_fences (s : State) (rs : List (Nat × Word)) : (s.addPend rs).fences = s.fences := rfl
@[simp] theorem State.addPend_remote (s : State) (rs : List (Nat × Word)) : (s.addPend rs).remote = s.remote := rfl
@[simp] theorem State.addPend_aqueues (s : State) (rs : List (Nat × Word)) : (s.addPend rs).aqueues = s.aqueues := rfl
@[simp] theorem State.addPend_frames (s : State) (rs : List (Nat × Word)) : (s.addPend rs).frames = s.frames := rfl
@[simp] theorem State.addPend_tiles (s : State) (rs : List (Nat × Word)) : (s.addPend rs).tiles = s.tiles := rfl
@[simp] theorem State.addPend_marchLast (s : State) (rs : List (Nat × Word)) : (s.addPend rs).marchLast = s.marchLast := rfl
@[simp] theorem State.addPend_holds (s : State) (rs : List (Nat × Word)) : (s.addPend rs).holds = s.holds := rfl
@[simp] theorem State.addPend_woken (s : State) (rs : List (Nat × Word)) : (s.addPend rs).woken = s.woken := rfl
@[simp] theorem State.addPend_reqs (s : State) (rs : List (Nat × Word)) : (s.addPend rs).reqs = s.reqs := rfl
@[simp] theorem State.addPend_strong (s : State) (rs : List (Nat × Word)) : (s.addPend rs).strong = s.strong := rfl
@[simp] theorem State.addPend_hotness (s : State) (rs : List (Nat × Word)) : (s.addPend rs).hotness = s.hotness := rfl
@[simp] theorem State.addPend_hotOut (s : State) (rs : List (Nat × Word)) : (s.addPend rs).hotOut = s.hotOut := rfl
@[simp] theorem State.addPend_dev (s : State) (rs : List (Nat × Word)) : (s.addPend rs).dev = s.dev := rfl

/-! ### `State.bump` -/

@[simp] theorem State.bump_clk (s : State)  : (s.bump).clk = s.clk := rfl
@[simp] theorem State.bump_gtime (s : State)  : (s.bump).gtime = s.gtime := rfl
@[simp] theorem State.bump_gclk (s : State)  : (s.bump).gclk = s.gclk := rfl
@[simp] theorem State.bump_gadj (s : State)  : (s.bump).gadj = s.gadj := rfl
@[simp] theorem State.bump_mem (s : State)  : (s.bump).mem = s.mem := rfl
@[simp] theorem State.bump_poison (s : State)  : (s.bump).poison = s.poison := rfl
@[simp] theorem State.bump_latent (s : State)  : (s.bump).latent = s.latent := rfl
@[simp] theorem State.bump_tierErrs (s : State)  : (s.bump).tierErrs = s.tierErrs := rfl
@[simp] theorem State.bump_image (s : State)  : (s.bump).image = s.image := rfl
@[simp] theorem State.bump_threads (s : State)  : (s.bump).threads = s.threads := rfl
@[simp] theorem State.bump_cur (s : State)  : (s.bump).cur = s.cur := rfl
@[simp] theorem State.bump_agenda (s : State)  : (s.bump).agenda = s.agenda := rfl
@[simp] theorem State.bump_fresh (s : State)  : (s.bump).fresh = s.fresh + 1 := rfl
@[simp] theorem State.bump_uid (s : State)  : (s.bump).uid = s.uid := rfl
@[simp] theorem State.bump_cores (s : State)  : (s.bump).cores = s.cores := rfl
@[simp] theorem State.bump_quads (s : State)  : (s.bump).quads = s.quads := rfl
@[simp] theorem State.bump_clusters (s : State)  : (s.bump).clusters = s.clusters := rfl
@[simp] theorem State.bump_dies (s : State)  : (s.bump).dies = s.dies := rfl
@[simp] theorem State.bump_parts (s : State)  : (s.bump).parts = s.parts := rfl
@[simp] theorem State.bump_launches (s : State)  : (s.bump).launches = s.launches := rfl
@[simp] theorem State.bump_barriers (s : State)  : (s.bump).barriers = s.barriers := rfl
@[simp] theorem State.bump_homes (s : State)  : (s.bump).homes = s.homes := rfl
@[simp] theorem State.bump_scq (s : State)  : (s.bump).scq = s.scq := rfl
@[simp] theorem State.bump_amoq (s : State)  : (s.bump).amoq = s.amoq := rfl
@[simp] theorem State.bump_entries (s : State)  : (s.bump).entries = s.entries := rfl
@[simp] theorem State.bump_fences (s : State)  : (s.bump).fences = s.fences := rfl
@[simp] theorem State.bump_remote (s : State)  : (s.bump).remote = s.remote := rfl
@[simp] theorem State.bump_aqueues (s : State)  : (s.bump).aqueues = s.aqueues := rfl
@[simp] theorem State.bump_frames (s : State)  : (s.bump).frames = s.frames := rfl
@[simp] theorem State.bump_tiles (s : State)  : (s.bump).tiles = s.tiles := rfl
@[simp] theorem State.bump_marchLast (s : State)  : (s.bump).marchLast = s.marchLast := rfl
@[simp] theorem State.bump_holds (s : State)  : (s.bump).holds = s.holds := rfl
@[simp] theorem State.bump_woken (s : State)  : (s.bump).woken = s.woken := rfl
@[simp] theorem State.bump_reqs (s : State)  : (s.bump).reqs = s.reqs := rfl
@[simp] theorem State.bump_strong (s : State)  : (s.bump).strong = s.strong := rfl
@[simp] theorem State.bump_hotness (s : State)  : (s.bump).hotness = s.hotness := rfl
@[simp] theorem State.bump_hotOut (s : State)  : (s.bump).hotOut = s.hotOut := rfl
@[simp] theorem State.bump_dev (s : State)  : (s.bump).dev = s.dev := rfl

/-! ### `State.zeroRange` -/

@[simp] theorem State.zeroRange_clk (s : State) (a n : Nat) : (s.zeroRange a n).clk = s.clk := rfl
@[simp] theorem State.zeroRange_gtime (s : State) (a n : Nat) : (s.zeroRange a n).gtime = s.gtime := rfl
@[simp] theorem State.zeroRange_gclk (s : State) (a n : Nat) : (s.zeroRange a n).gclk = s.gclk := rfl
@[simp] theorem State.zeroRange_gadj (s : State) (a n : Nat) : (s.zeroRange a n).gadj = s.gadj := rfl
@[simp] theorem State.zeroRange_latent (s : State) (a n : Nat) : (s.zeroRange a n).latent = s.latent := rfl
@[simp] theorem State.zeroRange_tierErrs (s : State) (a n : Nat) : (s.zeroRange a n).tierErrs = s.tierErrs := rfl
@[simp] theorem State.zeroRange_image (s : State) (a n : Nat) : (s.zeroRange a n).image = s.image := rfl
@[simp] theorem State.zeroRange_threads (s : State) (a n : Nat) : (s.zeroRange a n).threads = s.threads := rfl
@[simp] theorem State.zeroRange_cur (s : State) (a n : Nat) : (s.zeroRange a n).cur = s.cur := rfl
@[simp] theorem State.zeroRange_agenda (s : State) (a n : Nat) : (s.zeroRange a n).agenda = s.agenda := rfl
@[simp] theorem State.zeroRange_fresh (s : State) (a n : Nat) : (s.zeroRange a n).fresh = s.fresh := rfl
@[simp] theorem State.zeroRange_uid (s : State) (a n : Nat) : (s.zeroRange a n).uid = s.uid := rfl
@[simp] theorem State.zeroRange_cores (s : State) (a n : Nat) : (s.zeroRange a n).cores = s.cores := rfl
@[simp] theorem State.zeroRange_quads (s : State) (a n : Nat) : (s.zeroRange a n).quads = s.quads := rfl
@[simp] theorem State.zeroRange_clusters (s : State) (a n : Nat) : (s.zeroRange a n).clusters = s.clusters := rfl
@[simp] theorem State.zeroRange_dies (s : State) (a n : Nat) : (s.zeroRange a n).dies = s.dies := rfl
@[simp] theorem State.zeroRange_parts (s : State) (a n : Nat) : (s.zeroRange a n).parts = s.parts := rfl
@[simp] theorem State.zeroRange_launches (s : State) (a n : Nat) : (s.zeroRange a n).launches = s.launches := rfl
@[simp] theorem State.zeroRange_barriers (s : State) (a n : Nat) : (s.zeroRange a n).barriers = s.barriers := rfl
@[simp] theorem State.zeroRange_homes (s : State) (a n : Nat) : (s.zeroRange a n).homes = s.homes := rfl
@[simp] theorem State.zeroRange_scq (s : State) (a n : Nat) : (s.zeroRange a n).scq = s.scq := rfl
@[simp] theorem State.zeroRange_amoq (s : State) (a n : Nat) : (s.zeroRange a n).amoq = s.amoq := rfl
@[simp] theorem State.zeroRange_entries (s : State) (a n : Nat) : (s.zeroRange a n).entries = s.entries := rfl
@[simp] theorem State.zeroRange_fences (s : State) (a n : Nat) : (s.zeroRange a n).fences = s.fences := rfl
@[simp] theorem State.zeroRange_remote (s : State) (a n : Nat) : (s.zeroRange a n).remote = s.remote := rfl
@[simp] theorem State.zeroRange_aqueues (s : State) (a n : Nat) : (s.zeroRange a n).aqueues = s.aqueues := rfl
@[simp] theorem State.zeroRange_frames (s : State) (a n : Nat) : (s.zeroRange a n).frames = s.frames := rfl
@[simp] theorem State.zeroRange_tiles (s : State) (a n : Nat) : (s.zeroRange a n).tiles = s.tiles := rfl
@[simp] theorem State.zeroRange_marchLast (s : State) (a n : Nat) : (s.zeroRange a n).marchLast = s.marchLast := rfl
@[simp] theorem State.zeroRange_holds (s : State) (a n : Nat) : (s.zeroRange a n).holds = s.holds := rfl
@[simp] theorem State.zeroRange_woken (s : State) (a n : Nat) : (s.zeroRange a n).woken = s.woken := rfl
@[simp] theorem State.zeroRange_reqs (s : State) (a n : Nat) : (s.zeroRange a n).reqs = s.reqs := rfl
@[simp] theorem State.zeroRange_strong (s : State) (a n : Nat) : (s.zeroRange a n).strong = s.strong := rfl
@[simp] theorem State.zeroRange_hotness (s : State) (a n : Nat) : (s.zeroRange a n).hotness = s.hotness := rfl
@[simp] theorem State.zeroRange_hotOut (s : State) (a n : Nat) : (s.zeroRange a n).hotOut = s.hotOut := rfl
@[simp] theorem State.zeroRange_dev (s : State) (a n : Nat) : (s.zeroRange a n).dev = s.dev := rfl

/-! ### What is read back -/

theorem State.thread_setThread (s : State) (k j : Nat) (t : Thread) : (s.setThread k t).thread j = if j = k then t else s.thread j :=
  Tab.getD_set s.threads k j t Thread.empty
@[simp] theorem State.thread_setThread_same (s : State) (k : Nat) (t : Thread) : (s.setThread k t).thread k = t := by
  simp [State.thread_setThread]
theorem State.thread_setThread_other (s : State) {k j : Nat} (t : Thread) (h : j ≠ k) : (s.setThread k t).thread j = s.thread j := by
  simp [State.thread_setThread, h]
@[simp] theorem State.thr_putThr_same (s : State) (t : Thread) : (s.putThr t).thr = t := s.thread_setThread_same s.cur t
theorem State.core_setCore (s : State) (k j : Nat) (x : Core) : (s.setCore k x).core j = if j = k then x else s.core j :=
  Tab.getD_set s.cores k j x Core.fresh
theorem State.cluster_setCluster (s : State) (k j : Nat) (x : Cluster) :
    (s.setCluster k x).cluster j = if j = k then x else s.cluster j := Tab.getD_set s.clusters k j x Cluster.fresh
theorem State.die_setDie (s : State) (k j : Nat) (x : Die) : (s.setDie k x).die j = if j = k then x else s.die j :=
  Tab.getD_set s.dies k j x Die.fresh
theorem State.quad_setQuad (s : State) (k j : Nat) (x : Gang) : (s.setQuad k x).quad j = if j = k then x else s.quad j :=
  Tab.getD_set s.quads k j x Gang.idle
theorem State.part_setPart (s : State) (k j : Nat) (x : Partition) : (s.setPart k x).part j = if j = k then x else s.part j :=
  Tab.getD_set s.parts k j x Partition.off
theorem State.tile_setTile (s : State) (k j : Nat) (x : TileUnit) : (s.setTile k x).tile j = if j = k then x else s.tile j :=
  Tab.getD_set s.tiles k j x TileUnit.idle

theorem Thread.getG_setG (t : Thread) (d r : Nat) (v : Word) :
    (t.setG d v).getG r = if r = 0 then 0 else if r = d then v else t.getG r := by
  unfold Thread.setG Thread.getG
  by_cases h : d = 0
  · subst h; by_cases hr : r = 0 <;> simp [hr]
  · by_cases hr : r = 0
    · simp [hr]
    · simp only [h, hr, if_false, Tab.getD_set]

/-! ### `Thread.clearVstart` -/

@[simp] theorem Thread.clearVstart_st (t : Thread)  : (t.clearVstart).st = t.st := rfl
@[simp] theorem Thread.clearVstart_held (t : Thread)  : (t.clearVstart).held = t.held := rfl
@[simp] theorem Thread.clearVstart_saving (t : Thread)  : (t.clearVstart).saving = t.saving := rfl
@[simp] theorem Thread.clearVstart_launch (t : Thread)  : (t.clearVstart).launch = t.launch := rfl
@[simp] theorem Thread.clearVstart_ident (t : Thread)  : (t.clearVstart).ident = t.ident := rfl
@[simp] theorem Thread.clearVstart_part (t : Thread)  : (t.clearVstart).part = t.part := rfl
@[simp] theorem Thread.clearVstart_ringPos (t : Thread)  : (t.clearVstart).ringPos = t.ringPos := rfl
@[simp] theorem Thread.clearVstart_pc (t : Thread)  : (t.clearVstart).pc = t.pc := rfl
@[simp] theorem Thread.clearVstart_ready (t : Thread)  : (t.clearVstart).ready = t.ready := rfl
@[simp] theorem Thread.clearVstart_budget (t : Thread)  : (t.clearVstart).budget = t.budget := rfl
@[simp] theorem Thread.clearVstart_g (t : Thread)  : (t.clearVstart).g = t.g := rfl
@[simp] theorem Thread.clearVstart_v (t : Thread)  : (t.clearVstart).v = t.v := rfl
@[simp] theorem Thread.clearVstart_m (t : Thread)  : (t.clearVstart).m = t.m := rfl
@[simp] theorem Thread.clearVstart_stack (t : Thread)  : (t.clearVstart).stack = t.stack := rfl
@[simp] theorem Thread.clearVstart_vl (t : Thread)  : (t.clearVstart).vl = t.vl := rfl
@[simp] theorem Thread.clearVstart_mstart (t : Thread)  : (t.clearVstart).mstart = t.mstart := rfl
@[simp] theorem Thread.clearVstart_mdepth (t : Thread)  : (t.clearVstart).mdepth = t.mdepth := rfl
@[simp] theorem Thread.clearVstart_fmtA (t : Thread)  : (t.clearVstart).fmtA = t.fmtA := rfl
@[simp] theorem Thread.clearVstart_fmtB (t : Thread)  : (t.clearVstart).fmtB = t.fmtB := rfl
@[simp] theorem Thread.clearVstart_fmtC (t : Thread)  : (t.clearVstart).fmtC = t.fmtC := rfl
@[simp] theorem Thread.clearVstart_scaleA (t : Thread)  : (t.clearVstart).scaleA = t.scaleA := rfl
@[simp] theorem Thread.clearVstart_scaleB (t : Thread)  : (t.clearVstart).scaleB = t.scaleB := rfl
@[simp] theorem Thread.clearVstart_frm (t : Thread)  : (t.clearVstart).frm = t.frm := rfl
@[simp] theorem Thread.clearVstart_fflags (t : Thread)  : (t.clearVstart).fflags = t.fflags := rfl
@[simp] theorem Thread.clearVstart_srseed (t : Thread)  : (t.clearVstart).srseed = t.srseed := rfl
@[simp] theorem Thread.clearVstart_leasemax (t : Thread)  : (t.clearVstart).leasemax = t.leasemax := rfl
@[simp] theorem Thread.clearVstart_marchLimit (t : Thread)  : (t.clearVstart).marchLimit = t.marchLimit := rfl
@[simp] theorem Thread.clearVstart_dbg (t : Thread)  : (t.clearVstart).dbg = t.dbg := rfl
@[simp] theorem Thread.clearVstart_tid (t : Thread)  : (t.clearVstart).tid = t.tid := rfl
@[simp] theorem Thread.clearVstart_cause (t : Thread)  : (t.clearVstart).cause = t.cause := rfl
@[simp] theorem Thread.clearVstart_tval (t : Thread)  : (t.clearVstart).tval = t.tval := rfl
@[simp] theorem Thread.clearVstart_epc (t : Thread)  : (t.clearVstart).epc = t.epc := rfl
@[simp] theorem Thread.clearVstart_lfsr (t : Thread)  : (t.clearVstart).lfsr = t.lfsr := rfl
@[simp] theorem Thread.clearVstart_vq (t : Thread)  : (t.clearVstart).vq = t.vq := rfl
@[simp] theorem Thread.clearVstart_replay (t : Thread)  : (t.clearVstart).replay = t.replay := rfl
@[simp] theorem Thread.clearVstart_vready (t : Thread)  : (t.clearVstart).vready = t.vready := rfl
@[simp] theorem Thread.clearVstart_latch (t : Thread)  : (t.clearVstart).latch = t.latch := rfl
@[simp] theorem Thread.clearVstart_links (t : Thread)  : (t.clearVstart).links = t.links := rfl
@[simp] theorem Thread.clearVstart_lease (t : Thread)  : (t.clearVstart).lease = t.lease := rfl
@[simp] theorem Thread.clearVstart_arrivals (t : Thread)  : (t.clearVstart).arrivals = t.arrivals := rfl
@[simp] theorem Thread.clearVstart_joined (t : Thread)  : (t.clearVstart).joined = t.joined := rfl
@[simp] theorem Thread.clearVstart_inGang (t : Thread)  : (t.clearVstart).inGang = t.inGang := rfl
@[simp] theorem Thread.clearVstart_err (t : Thread)  : (t.clearVstart).err = t.err := rfl
@[simp] theorem Thread.clearVstart_serial (t : Thread)  : (t.clearVstart).serial = t.serial := rfl
@[simp] theorem Thread.clearVstart_gone (t : Thread)  : (t.clearVstart).gone = t.gone := rfl
@[simp] theorem Thread.clearVstart_timewait (t : Thread)  : (t.clearVstart).timewait = t.timewait := rfl
@[simp] theorem Thread.clearVstart_poison (t : Thread)  : (t.clearVstart).poison = t.poison := rfl

/-! ### `Thread.addFlags` -/

@[simp] theorem Thread.addFlags_st (t : Thread) (f : Flags) : (t.addFlags f).st = t.st := rfl
@[simp] theorem Thread.addFlags_held (t : Thread) (f : Flags) : (t.addFlags f).held = t.held := rfl
@[simp] theorem Thread.addFlags_saving (t : Thread) (f : Flags) : (t.addFlags f).saving = t.saving := rfl
@[simp] theorem Thread.addFlags_launch (t : Thread) (f : Flags) : (t.addFlags f).launch = t.launch := rfl
@[simp] theorem Thread.addFlags_ident (t : Thread) (f : Flags) : (t.addFlags f).ident = t.ident := rfl
@[simp] theorem Thread.addFlags_part (t : Thread) (f : Flags) : (t.addFlags f).part = t.part := rfl
@[simp] theorem Thread.addFlags_ringPos (t : Thread) (f : Flags) : (t.addFlags f).ringPos = t.ringPos := rfl
@[simp] theorem Thread.addFlags_pc (t : Thread) (f : Flags) : (t.addFlags f).pc = t.pc := rfl
@[simp] theorem Thread.addFlags_ready (t : Thread) (f : Flags) : (t.addFlags f).ready = t.ready := rfl
@[simp] theorem Thread.addFlags_budget (t : Thread) (f : Flags) : (t.addFlags f).budget = t.budget := rfl
@[simp] theorem Thread.addFlags_g (t : Thread) (f : Flags) : (t.addFlags f).g = t.g := rfl
@[simp] theorem Thread.addFlags_v (t : Thread) (f : Flags) : (t.addFlags f).v = t.v := rfl
@[simp] theorem Thread.addFlags_m (t : Thread) (f : Flags) : (t.addFlags f).m = t.m := rfl
@[simp] theorem Thread.addFlags_stack (t : Thread) (f : Flags) : (t.addFlags f).stack = t.stack := rfl
@[simp] theorem Thread.addFlags_vl (t : Thread) (f : Flags) : (t.addFlags f).vl = t.vl := rfl
@[simp] theorem Thread.addFlags_vstart (t : Thread) (f : Flags) : (t.addFlags f).vstart = t.vstart := rfl
@[simp] theorem Thread.addFlags_mstart (t : Thread) (f : Flags) : (t.addFlags f).mstart = t.mstart := rfl
@[simp] theorem Thread.addFlags_mdepth (t : Thread) (f : Flags) : (t.addFlags f).mdepth = t.mdepth := rfl
@[simp] theorem Thread.addFlags_fmtA (t : Thread) (f : Flags) : (t.addFlags f).fmtA = t.fmtA := rfl
@[simp] theorem Thread.addFlags_fmtB (t : Thread) (f : Flags) : (t.addFlags f).fmtB = t.fmtB := rfl
@[simp] theorem Thread.addFlags_fmtC (t : Thread) (f : Flags) : (t.addFlags f).fmtC = t.fmtC := rfl
@[simp] theorem Thread.addFlags_scaleA (t : Thread) (f : Flags) : (t.addFlags f).scaleA = t.scaleA := rfl
@[simp] theorem Thread.addFlags_scaleB (t : Thread) (f : Flags) : (t.addFlags f).scaleB = t.scaleB := rfl
@[simp] theorem Thread.addFlags_frm (t : Thread) (f : Flags) : (t.addFlags f).frm = t.frm := rfl
@[simp] theorem Thread.addFlags_srseed (t : Thread) (f : Flags) : (t.addFlags f).srseed = t.srseed := rfl
@[simp] theorem Thread.addFlags_leasemax (t : Thread) (f : Flags) : (t.addFlags f).leasemax = t.leasemax := rfl
@[simp] theorem Thread.addFlags_marchLimit (t : Thread) (f : Flags) : (t.addFlags f).marchLimit = t.marchLimit := rfl
@[simp] theorem Thread.addFlags_dbg (t : Thread) (f : Flags) : (t.addFlags f).dbg = t.dbg := rfl
@[simp] theorem Thread.addFlags_tid (t : Thread) (f : Flags) : (t.addFlags f).tid = t.tid := rfl
@[simp] theorem Thread.addFlags_cause (t : Thread) (f : Flags) : (t.addFlags f).cause = t.cause := rfl
@[simp] theorem Thread.addFlags_tval (t : Thread) (f : Flags) : (t.addFlags f).tval = t.tval := rfl
@[simp] theorem Thread.addFlags_epc (t : Thread) (f : Flags) : (t.addFlags f).epc = t.epc := rfl
@[simp] theorem Thread.addFlags_lfsr (t : Thread) (f : Flags) : (t.addFlags f).lfsr = t.lfsr := rfl
@[simp] theorem Thread.addFlags_pend (t : Thread) (f : Flags) : (t.addFlags f).pend = t.pend := rfl
@[simp] theorem Thread.addFlags_vq (t : Thread) (f : Flags) : (t.addFlags f).vq = t.vq := rfl
@[simp] theorem Thread.addFlags_replay (t : Thread) (f : Flags) : (t.addFlags f).replay = t.replay := rfl
@[simp] theorem Thread.addFlags_vready (t : Thread) (f : Flags) : (t.addFlags f).vready = t.vready := rfl
@[simp] theorem Thread.addFlags_latch (t : Thread) (f : Flags) : (t.addFlags f).latch = t.latch := rfl
@[simp] theorem Thread.addFlags_links (t : Thread) (f : Flags) : (t.addFlags f).links = t.links := rfl
@[simp] theorem Thread.addFlags_lease (t : Thread) (f : Flags) : (t.addFlags f).lease = t.lease := rfl
@[simp] theorem Thread.addFlags_arrivals (t : Thread) (f : Flags) : (t.addFlags f).arrivals = t.arrivals := rfl
@[simp] theorem Thread.addFlags_joined (t : Thread) (f : Flags) : (t.addFlags f).joined = t.joined := rfl
@[simp] theorem Thread.addFlags_inGang (t : Thread) (f : Flags) : (t.addFlags f).inGang = t.inGang := rfl
@[simp] theorem Thread.addFlags_err (t : Thread) (f : Flags) : (t.addFlags f).err = t.err := rfl
@[simp] theorem Thread.addFlags_serial (t : Thread) (f : Flags) : (t.addFlags f).serial = t.serial := rfl
@[simp] theorem Thread.addFlags_gone (t : Thread) (f : Flags) : (t.addFlags f).gone = t.gone := rfl
@[simp] theorem Thread.addFlags_timewait (t : Thread) (f : Flags) : (t.addFlags f).timewait = t.timewait := rfl
@[simp] theorem Thread.addFlags_poison (t : Thread) (f : Flags) : (t.addFlags f).poison = t.poison := rfl

/-! ### `Thread.trim` -/

@[simp] theorem Thread.trim_st (t : Thread) (n : Nat) : (t.trim n).st = t.st := rfl
@[simp] theorem Thread.trim_held (t : Thread) (n : Nat) : (t.trim n).held = t.held := rfl
@[simp] theorem Thread.trim_saving (t : Thread) (n : Nat) : (t.trim n).saving = t.saving := rfl
@[simp] theorem Thread.trim_launch (t : Thread) (n : Nat) : (t.trim n).launch = t.launch := rfl
@[simp] theorem Thread.trim_ident (t : Thread) (n : Nat) : (t.trim n).ident = t.ident := rfl
@[simp] theorem Thread.trim_part (t : Thread) (n : Nat) : (t.trim n).part = t.part := rfl
@[simp] theorem Thread.trim_ringPos (t : Thread) (n : Nat) : (t.trim n).ringPos = t.ringPos := rfl
@[simp] theorem Thread.trim_pc (t : Thread) (n : Nat) : (t.trim n).pc = t.pc := rfl
@[simp] theorem Thread.trim_ready (t : Thread) (n : Nat) : (t.trim n).ready = t.ready := rfl
@[simp] theorem Thread.trim_budget (t : Thread) (n : Nat) : (t.trim n).budget = t.budget := rfl
@[simp] theorem Thread.trim_g (t : Thread) (n : Nat) : (t.trim n).g = t.g := rfl
@[simp] theorem Thread.trim_v (t : Thread) (n : Nat) : (t.trim n).v = t.v := rfl
@[simp] theorem Thread.trim_m (t : Thread) (n : Nat) : (t.trim n).m = t.m := rfl
@[simp] theorem Thread.trim_stack (t : Thread) (n : Nat) : (t.trim n).stack = t.stack := rfl
@[simp] theorem Thread.trim_vstart (t : Thread) (n : Nat) : (t.trim n).vstart = t.vstart := rfl
@[simp] theorem Thread.trim_mstart (t : Thread) (n : Nat) : (t.trim n).mstart = t.mstart := rfl
@[simp] theorem Thread.trim_mdepth (t : Thread) (n : Nat) : (t.trim n).mdepth = t.mdepth := rfl
@[simp] theorem Thread.trim_fmtA (t : Thread) (n : Nat) : (t.trim n).fmtA = t.fmtA := rfl
@[simp] theorem Thread.trim_fmtB (t : Thread) (n : Nat) : (t.trim n).fmtB = t.fmtB := rfl
@[simp] theorem Thread.trim_fmtC (t : Thread) (n : Nat) : (t.trim n).fmtC = t.fmtC := rfl
@[simp] theorem Thread.trim_scaleA (t : Thread) (n : Nat) : (t.trim n).scaleA = t.scaleA := rfl
@[simp] theorem Thread.trim_scaleB (t : Thread) (n : Nat) : (t.trim n).scaleB = t.scaleB := rfl
@[simp] theorem Thread.trim_frm (t : Thread) (n : Nat) : (t.trim n).frm = t.frm := rfl
@[simp] theorem Thread.trim_fflags (t : Thread) (n : Nat) : (t.trim n).fflags = t.fflags := rfl
@[simp] theorem Thread.trim_srseed (t : Thread) (n : Nat) : (t.trim n).srseed = t.srseed := rfl
@[simp] theorem Thread.trim_leasemax (t : Thread) (n : Nat) : (t.trim n).leasemax = t.leasemax := rfl
@[simp] theorem Thread.trim_marchLimit (t : Thread) (n : Nat) : (t.trim n).marchLimit = t.marchLimit := rfl
@[simp] theorem Thread.trim_dbg (t : Thread) (n : Nat) : (t.trim n).dbg = t.dbg := rfl
@[simp] theorem Thread.trim_tid (t : Thread) (n : Nat) : (t.trim n).tid = t.tid := rfl
@[simp] theorem Thread.trim_cause (t : Thread) (n : Nat) : (t.trim n).cause = t.cause := rfl
@[simp] theorem Thread.trim_tval (t : Thread) (n : Nat) : (t.trim n).tval = t.tval := rfl
@[simp] theorem Thread.trim_epc (t : Thread) (n : Nat) : (t.trim n).epc = t.epc := rfl
@[simp] theorem Thread.trim_lfsr (t : Thread) (n : Nat) : (t.trim n).lfsr = t.lfsr := rfl
@[simp] theorem Thread.trim_vq (t : Thread) (n : Nat) : (t.trim n).vq = t.vq := rfl
@[simp] theorem Thread.trim_replay (t : Thread) (n : Nat) : (t.trim n).replay = t.replay := rfl
@[simp] theorem Thread.trim_vready (t : Thread) (n : Nat) : (t.trim n).vready = t.vready := rfl
@[simp] theorem Thread.trim_latch (t : Thread) (n : Nat) : (t.trim n).latch = t.latch := rfl
@[simp] theorem Thread.trim_links (t : Thread) (n : Nat) : (t.trim n).links = t.links := rfl
@[simp] theorem Thread.trim_lease (t : Thread) (n : Nat) : (t.trim n).lease = t.lease := rfl
@[simp] theorem Thread.trim_arrivals (t : Thread) (n : Nat) : (t.trim n).arrivals = t.arrivals := rfl
@[simp] theorem Thread.trim_joined (t : Thread) (n : Nat) : (t.trim n).joined = t.joined := rfl
@[simp] theorem Thread.trim_inGang (t : Thread) (n : Nat) : (t.trim n).inGang = t.inGang := rfl
@[simp] theorem Thread.trim_err (t : Thread) (n : Nat) : (t.trim n).err = t.err := rfl
@[simp] theorem Thread.trim_serial (t : Thread) (n : Nat) : (t.trim n).serial = t.serial := rfl
@[simp] theorem Thread.trim_gone (t : Thread) (n : Nat) : (t.trim n).gone = t.gone := rfl
@[simp] theorem Thread.trim_timewait (t : Thread) (n : Nat) : (t.trim n).timewait = t.timewait := rfl
@[simp] theorem Thread.trim_poison (t : Thread) (n : Nat) : (t.trim n).poison = t.poison := rfl

/-! ### `Thread.stopAt` -/

@[simp] theorem Thread.stopAt_st (t : Thread) (n : Nat) : (t.stopAt n).st = t.st := rfl
@[simp] theorem Thread.stopAt_held (t : Thread) (n : Nat) : (t.stopAt n).held = t.held := rfl
@[simp] theorem Thread.stopAt_saving (t : Thread) (n : Nat) : (t.stopAt n).saving = t.saving := rfl
@[simp] theorem Thread.stopAt_launch (t : Thread) (n : Nat) : (t.stopAt n).launch = t.launch := rfl
@[simp] theorem Thread.stopAt_ident (t : Thread) (n : Nat) : (t.stopAt n).ident = t.ident := rfl
@[simp] theorem Thread.stopAt_part (t : Thread) (n : Nat) : (t.stopAt n).part = t.part := rfl
@[simp] theorem Thread.stopAt_ringPos (t : Thread) (n : Nat) : (t.stopAt n).ringPos = t.ringPos := rfl
@[simp] theorem Thread.stopAt_pc (t : Thread) (n : Nat) : (t.stopAt n).pc = t.pc := rfl
@[simp] theorem Thread.stopAt_ready (t : Thread) (n : Nat) : (t.stopAt n).ready = t.ready := rfl
@[simp] theorem Thread.stopAt_budget (t : Thread) (n : Nat) : (t.stopAt n).budget = t.budget := rfl
@[simp] theorem Thread.stopAt_g (t : Thread) (n : Nat) : (t.stopAt n).g = t.g := rfl
@[simp] theorem Thread.stopAt_v (t : Thread) (n : Nat) : (t.stopAt n).v = t.v := rfl
@[simp] theorem Thread.stopAt_m (t : Thread) (n : Nat) : (t.stopAt n).m = t.m := rfl
@[simp] theorem Thread.stopAt_stack (t : Thread) (n : Nat) : (t.stopAt n).stack = t.stack := rfl
@[simp] theorem Thread.stopAt_vl (t : Thread) (n : Nat) : (t.stopAt n).vl = t.vl := rfl
@[simp] theorem Thread.stopAt_mstart (t : Thread) (n : Nat) : (t.stopAt n).mstart = t.mstart := rfl
@[simp] theorem Thread.stopAt_mdepth (t : Thread) (n : Nat) : (t.stopAt n).mdepth = t.mdepth := rfl
@[simp] theorem Thread.stopAt_fmtA (t : Thread) (n : Nat) : (t.stopAt n).fmtA = t.fmtA := rfl
@[simp] theorem Thread.stopAt_fmtB (t : Thread) (n : Nat) : (t.stopAt n).fmtB = t.fmtB := rfl
@[simp] theorem Thread.stopAt_fmtC (t : Thread) (n : Nat) : (t.stopAt n).fmtC = t.fmtC := rfl
@[simp] theorem Thread.stopAt_scaleA (t : Thread) (n : Nat) : (t.stopAt n).scaleA = t.scaleA := rfl
@[simp] theorem Thread.stopAt_scaleB (t : Thread) (n : Nat) : (t.stopAt n).scaleB = t.scaleB := rfl
@[simp] theorem Thread.stopAt_frm (t : Thread) (n : Nat) : (t.stopAt n).frm = t.frm := rfl
@[simp] theorem Thread.stopAt_fflags (t : Thread) (n : Nat) : (t.stopAt n).fflags = t.fflags := rfl
@[simp] theorem Thread.stopAt_srseed (t : Thread) (n : Nat) : (t.stopAt n).srseed = t.srseed := rfl
@[simp] theorem Thread.stopAt_leasemax (t : Thread) (n : Nat) : (t.stopAt n).leasemax = t.leasemax := rfl
@[simp] theorem Thread.stopAt_marchLimit (t : Thread) (n : Nat) : (t.stopAt n).marchLimit = t.marchLimit := rfl
@[simp] theorem Thread.stopAt_dbg (t : Thread) (n : Nat) : (t.stopAt n).dbg = t.dbg := rfl
@[simp] theorem Thread.stopAt_tid (t : Thread) (n : Nat) : (t.stopAt n).tid = t.tid := rfl
@[simp] theorem Thread.stopAt_cause (t : Thread) (n : Nat) : (t.stopAt n).cause = t.cause := rfl
@[simp] theorem Thread.stopAt_tval (t : Thread) (n : Nat) : (t.stopAt n).tval = t.tval := rfl
@[simp] theorem Thread.stopAt_epc (t : Thread) (n : Nat) : (t.stopAt n).epc = t.epc := rfl
@[simp] theorem Thread.stopAt_lfsr (t : Thread) (n : Nat) : (t.stopAt n).lfsr = t.lfsr := rfl
@[simp] theorem Thread.stopAt_vq (t : Thread) (n : Nat) : (t.stopAt n).vq = t.vq := rfl
@[simp] theorem Thread.stopAt_replay (t : Thread) (n : Nat) : (t.stopAt n).replay = t.replay := rfl
@[simp] theorem Thread.stopAt_vready (t : Thread) (n : Nat) : (t.stopAt n).vready = t.vready := rfl
@[simp] theorem Thread.stopAt_latch (t : Thread) (n : Nat) : (t.stopAt n).latch = t.latch := rfl
@[simp] theorem Thread.stopAt_links (t : Thread) (n : Nat) : (t.stopAt n).links = t.links := rfl
@[simp] theorem Thread.stopAt_lease (t : Thread) (n : Nat) : (t.stopAt n).lease = t.lease := rfl
@[simp] theorem Thread.stopAt_arrivals (t : Thread) (n : Nat) : (t.stopAt n).arrivals = t.arrivals := rfl
@[simp] theorem Thread.stopAt_joined (t : Thread) (n : Nat) : (t.stopAt n).joined = t.joined := rfl
@[simp] theorem Thread.stopAt_inGang (t : Thread) (n : Nat) : (t.stopAt n).inGang = t.inGang := rfl
@[simp] theorem Thread.stopAt_err (t : Thread) (n : Nat) : (t.stopAt n).err = t.err := rfl
@[simp] theorem Thread.stopAt_serial (t : Thread) (n : Nat) : (t.stopAt n).serial = t.serial := rfl
@[simp] theorem Thread.stopAt_gone (t : Thread) (n : Nat) : (t.stopAt n).gone = t.gone := rfl
@[simp] theorem Thread.stopAt_timewait (t : Thread) (n : Nat) : (t.stopAt n).timewait = t.timewait := rfl
@[simp] theorem Thread.stopAt_poison (t : Thread) (n : Nat) : (t.stopAt n).poison = t.poison := rfl

/-! ### `Thread.setV` -/

@[simp] theorem Thread.setV_st (t : Thread) (r : Nat) (x : VReg) : (t.setV r x).st = t.st := rfl
@[simp] theorem Thread.setV_held (t : Thread) (r : Nat) (x : VReg) : (t.setV r x).held = t.held := rfl
@[simp] theorem Thread.setV_saving (t : Thread) (r : Nat) (x : VReg) : (t.setV r x).saving = t.saving := rfl
@[simp] theorem Thread.setV_launch (t : Thread) (r : Nat) (x : VReg) : (t.setV r x).launch = t.launch := rfl
@[simp] theorem Thread.setV_ident (t : Thread) (r : Nat) (x : VReg) : (t.setV r x).ident = t.ident := rfl
@[simp] theorem Thread.setV_part (t : Thread) (r : Nat) (x : VReg) : (t.setV r x).part = t.part := rfl
@[simp] theorem Thread.setV_ringPos (t : Thread) (r : Nat) (x : VReg) : (t.setV r x).ringPos = t.ringPos := rfl
@[simp] theorem Thread.setV_pc (t : Thread) (r : Nat) (x : VReg) : (t.setV r x).pc = t.pc := rfl
@[simp] theorem Thread.setV_ready (t : Thread) (r : Nat) (x : VReg) : (t.setV r x).ready = t.ready := rfl
@[simp] theorem Thread.setV_budget (t : Thread) (r : Nat) (x : VReg) : (t.setV r x).budget = t.budget := rfl
@[simp] theorem Thread.setV_g (t : Thread) (r : Nat) (x : VReg) : (t.setV r x).g = t.g := rfl
@[simp] theorem Thread.setV_m (t : Thread) (r : Nat) (x : VReg) : (t.setV r x).m = t.m := rfl
@[simp] theorem Thread.setV_stack (t : Thread) (r : Nat) (x : VReg) : (t.setV r x).stack = t.stack := rfl
@[simp] theorem Thread.setV_vl (t : Thread) (r : Nat) (x : VReg) : (t.setV r x).vl = t.vl := rfl
@[simp] theorem Thread.setV_vstart (t : Thread) (r : Nat) (x : VReg) : (t.setV r x).vstart = t.vstart := rfl
@[simp] theorem Thread.setV_mstart (t : Thread) (r : Nat) (x : VReg) : (t.setV r x).mstart = t.mstart := rfl
@[simp] theorem Thread.setV_mdepth (t : Thread) (r : Nat) (x : VReg) : (t.setV r x).mdepth = t.mdepth := rfl
@[simp] theorem Thread.setV_fmtA (t : Thread) (r : Nat) (x : VReg) : (t.setV r x).fmtA = t.fmtA := rfl
@[simp] theorem Thread.setV_fmtB (t : Thread) (r : Nat) (x : VReg) : (t.setV r x).fmtB = t.fmtB := rfl
@[simp] theorem Thread.setV_fmtC (t : Thread) (r : Nat) (x : VReg) : (t.setV r x).fmtC = t.fmtC := rfl
@[simp] theorem Thread.setV_scaleA (t : Thread) (r : Nat) (x : VReg) : (t.setV r x).scaleA = t.scaleA := rfl
@[simp] theorem Thread.setV_scaleB (t : Thread) (r : Nat) (x : VReg) : (t.setV r x).scaleB = t.scaleB := rfl
@[simp] theorem Thread.setV_frm (t : Thread) (r : Nat) (x : VReg) : (t.setV r x).frm = t.frm := rfl
@[simp] theorem Thread.setV_fflags (t : Thread) (r : Nat) (x : VReg) : (t.setV r x).fflags = t.fflags := rfl
@[simp] theorem Thread.setV_srseed (t : Thread) (r : Nat) (x : VReg) : (t.setV r x).srseed = t.srseed := rfl
@[simp] theorem Thread.setV_leasemax (t : Thread) (r : Nat) (x : VReg) : (t.setV r x).leasemax = t.leasemax := rfl
@[simp] theorem Thread.setV_marchLimit (t : Thread) (r : Nat) (x : VReg) : (t.setV r x).marchLimit = t.marchLimit := rfl
@[simp] theorem Thread.setV_dbg (t : Thread) (r : Nat) (x : VReg) : (t.setV r x).dbg = t.dbg := rfl
@[simp] theorem Thread.setV_tid (t : Thread) (r : Nat) (x : VReg) : (t.setV r x).tid = t.tid := rfl
@[simp] theorem Thread.setV_cause (t : Thread) (r : Nat) (x : VReg) : (t.setV r x).cause = t.cause := rfl
@[simp] theorem Thread.setV_tval (t : Thread) (r : Nat) (x : VReg) : (t.setV r x).tval = t.tval := rfl
@[simp] theorem Thread.setV_epc (t : Thread) (r : Nat) (x : VReg) : (t.setV r x).epc = t.epc := rfl
@[simp] theorem Thread.setV_lfsr (t : Thread) (r : Nat) (x : VReg) : (t.setV r x).lfsr = t.lfsr := rfl
@[simp] theorem Thread.setV_pend (t : Thread) (r : Nat) (x : VReg) : (t.setV r x).pend = t.pend := rfl
@[simp] theorem Thread.setV_vq (t : Thread) (r : Nat) (x : VReg) : (t.setV r x).vq = t.vq := rfl
@[simp] theorem Thread.setV_replay (t : Thread) (r : Nat) (x : VReg) : (t.setV r x).replay = t.replay := rfl
@[simp] theorem Thread.setV_vready (t : Thread) (r : Nat) (x : VReg) : (t.setV r x).vready = t.vready := rfl
@[simp] theorem Thread.setV_latch (t : Thread) (r : Nat) (x : VReg) : (t.setV r x).latch = t.latch := rfl
@[simp] theorem Thread.setV_links (t : Thread) (r : Nat) (x : VReg) : (t.setV r x).links = t.links := rfl
@[simp] theorem Thread.setV_lease (t : Thread) (r : Nat) (x : VReg) : (t.setV r x).lease = t.lease := rfl
@[simp] theorem Thread.setV_arrivals (t : Thread) (r : Nat) (x : VReg) : (t.setV r x).arrivals = t.arrivals := rfl
@[simp] theorem Thread.setV_joined (t : Thread) (r : Nat) (x : VReg) : (t.setV r x).joined = t.joined := rfl
@[simp] theorem Thread.setV_inGang (t : Thread) (r : Nat) (x : VReg) : (t.setV r x).inGang = t.inGang := rfl
@[simp] theorem Thread.setV_err (t : Thread) (r : Nat) (x : VReg) : (t.setV r x).err = t.err := rfl
@[simp] theorem Thread.setV_serial (t : Thread) (r : Nat) (x : VReg) : (t.setV r x).serial = t.serial := rfl
@[simp] theorem Thread.setV_gone (t : Thread) (r : Nat) (x : VReg) : (t.setV r x).gone = t.gone := rfl
@[simp] theorem Thread.setV_timewait (t : Thread) (r : Nat) (x : VReg) : (t.setV r x).timewait = t.timewait := rfl
@[simp] theorem Thread.setV_poison (t : Thread) (r : Nat) (x : VReg) : (t.setV r x).poison = t.poison := rfl

/-! ### `Thread.setM` -/

@[simp] theorem Thread.setM_st (t : Thread) (r : Nat) (x : Mask) : (t.setM r x).st = t.st := rfl
@[simp] theorem Thread.setM_held (t : Thread) (r : Nat) (x : Mask) : (t.setM r x).held = t.held := rfl
@[simp] theorem Thread.setM_saving (t : Thread) (r : Nat) (x : Mask) : (t.setM r x).saving = t.saving := rfl
@[simp] theorem Thread.setM_launch (t : Thread) (r : Nat) (x : Mask) : (t.setM r x).launch = t.launch := rfl
@[simp] theorem Thread.setM_ident (t : Thread) (r : Nat) (x : Mask) : (t.setM r x).ident = t.ident := rfl
@[simp] theorem Thread.setM_part (t : Thread) (r : Nat) (x : Mask) : (t.setM r x).part = t.part := rfl
@[simp] theorem Thread.setM_ringPos (t : Thread) (r : Nat) (x : Mask) : (t.setM r x).ringPos = t.ringPos := rfl
@[simp] theorem Thread.setM_pc (t : Thread) (r : Nat) (x : Mask) : (t.setM r x).pc = t.pc := rfl
@[simp] theorem Thread.setM_ready (t : Thread) (r : Nat) (x : Mask) : (t.setM r x).ready = t.ready := rfl
@[simp] theorem Thread.setM_budget (t : Thread) (r : Nat) (x : Mask) : (t.setM r x).budget = t.budget := rfl
@[simp] theorem Thread.setM_g (t : Thread) (r : Nat) (x : Mask) : (t.setM r x).g = t.g := rfl
@[simp] theorem Thread.setM_v (t : Thread) (r : Nat) (x : Mask) : (t.setM r x).v = t.v := rfl
@[simp] theorem Thread.setM_stack (t : Thread) (r : Nat) (x : Mask) : (t.setM r x).stack = t.stack := rfl
@[simp] theorem Thread.setM_vl (t : Thread) (r : Nat) (x : Mask) : (t.setM r x).vl = t.vl := rfl
@[simp] theorem Thread.setM_vstart (t : Thread) (r : Nat) (x : Mask) : (t.setM r x).vstart = t.vstart := rfl
@[simp] theorem Thread.setM_mstart (t : Thread) (r : Nat) (x : Mask) : (t.setM r x).mstart = t.mstart := rfl
@[simp] theorem Thread.setM_mdepth (t : Thread) (r : Nat) (x : Mask) : (t.setM r x).mdepth = t.mdepth := rfl
@[simp] theorem Thread.setM_fmtA (t : Thread) (r : Nat) (x : Mask) : (t.setM r x).fmtA = t.fmtA := rfl
@[simp] theorem Thread.setM_fmtB (t : Thread) (r : Nat) (x : Mask) : (t.setM r x).fmtB = t.fmtB := rfl
@[simp] theorem Thread.setM_fmtC (t : Thread) (r : Nat) (x : Mask) : (t.setM r x).fmtC = t.fmtC := rfl
@[simp] theorem Thread.setM_scaleA (t : Thread) (r : Nat) (x : Mask) : (t.setM r x).scaleA = t.scaleA := rfl
@[simp] theorem Thread.setM_scaleB (t : Thread) (r : Nat) (x : Mask) : (t.setM r x).scaleB = t.scaleB := rfl
@[simp] theorem Thread.setM_frm (t : Thread) (r : Nat) (x : Mask) : (t.setM r x).frm = t.frm := rfl
@[simp] theorem Thread.setM_fflags (t : Thread) (r : Nat) (x : Mask) : (t.setM r x).fflags = t.fflags := rfl
@[simp] theorem Thread.setM_srseed (t : Thread) (r : Nat) (x : Mask) : (t.setM r x).srseed = t.srseed := rfl
@[simp] theorem Thread.setM_leasemax (t : Thread) (r : Nat) (x : Mask) : (t.setM r x).leasemax = t.leasemax := rfl
@[simp] theorem Thread.setM_marchLimit (t : Thread) (r : Nat) (x : Mask) : (t.setM r x).marchLimit = t.marchLimit := rfl
@[simp] theorem Thread.setM_dbg (t : Thread) (r : Nat) (x : Mask) : (t.setM r x).dbg = t.dbg := rfl
@[simp] theorem Thread.setM_tid (t : Thread) (r : Nat) (x : Mask) : (t.setM r x).tid = t.tid := rfl
@[simp] theorem Thread.setM_cause (t : Thread) (r : Nat) (x : Mask) : (t.setM r x).cause = t.cause := rfl
@[simp] theorem Thread.setM_tval (t : Thread) (r : Nat) (x : Mask) : (t.setM r x).tval = t.tval := rfl
@[simp] theorem Thread.setM_epc (t : Thread) (r : Nat) (x : Mask) : (t.setM r x).epc = t.epc := rfl
@[simp] theorem Thread.setM_lfsr (t : Thread) (r : Nat) (x : Mask) : (t.setM r x).lfsr = t.lfsr := rfl
@[simp] theorem Thread.setM_pend (t : Thread) (r : Nat) (x : Mask) : (t.setM r x).pend = t.pend := rfl
@[simp] theorem Thread.setM_vq (t : Thread) (r : Nat) (x : Mask) : (t.setM r x).vq = t.vq := rfl
@[simp] theorem Thread.setM_replay (t : Thread) (r : Nat) (x : Mask) : (t.setM r x).replay = t.replay := rfl
@[simp] theorem Thread.setM_vready (t : Thread) (r : Nat) (x : Mask) : (t.setM r x).vready = t.vready := rfl
@[simp] theorem Thread.setM_latch (t : Thread) (r : Nat) (x : Mask) : (t.setM r x).latch = t.latch := rfl
@[simp] theorem Thread.setM_links (t : Thread) (r : Nat) (x : Mask) : (t.setM r x).links = t.links := rfl
@[simp] theorem Thread.setM_lease (t : Thread) (r : Nat) (x : Mask) : (t.setM r x).lease = t.lease := rfl
@[simp] theorem Thread.setM_arrivals (t : Thread) (r : Nat) (x : Mask) : (t.setM r x).arrivals = t.arrivals := rfl
@[simp] theorem Thread.setM_joined (t : Thread) (r : Nat) (x : Mask) : (t.setM r x).joined = t.joined := rfl
@[simp] theorem Thread.setM_inGang (t : Thread) (r : Nat) (x : Mask) : (t.setM r x).inGang = t.inGang := rfl
@[simp] theorem Thread.setM_err (t : Thread) (r : Nat) (x : Mask) : (t.setM r x).err = t.err := rfl
@[simp] theorem Thread.setM_serial (t : Thread) (r : Nat) (x : Mask) : (t.setM r x).serial = t.serial := rfl
@[simp] theorem Thread.setM_gone (t : Thread) (r : Nat) (x : Mask) : (t.setM r x).gone = t.gone := rfl
@[simp] theorem Thread.setM_timewait (t : Thread) (r : Nat) (x : Mask) : (t.setM r x).timewait = t.timewait := rfl

/-! ### `Thread.resumeTrap` -/

@[simp] theorem Thread.resumeTrap_held (t : Thread) (p : Word) : (t.resumeTrap p).held = t.held := rfl
@[simp] theorem Thread.resumeTrap_saving (t : Thread) (p : Word) : (t.resumeTrap p).saving = t.saving := rfl
@[simp] theorem Thread.resumeTrap_launch (t : Thread) (p : Word) : (t.resumeTrap p).launch = t.launch := rfl
@[simp] theorem Thread.resumeTrap_ident (t : Thread) (p : Word) : (t.resumeTrap p).ident = t.ident := rfl
@[simp] theorem Thread.resumeTrap_part (t : Thread) (p : Word) : (t.resumeTrap p).part = t.part := rfl
@[simp] theorem Thread.resumeTrap_ringPos (t : Thread) (p : Word) : (t.resumeTrap p).ringPos = t.ringPos := rfl
@[simp] theorem Thread.resumeTrap_ready (t : Thread) (p : Word) : (t.resumeTrap p).ready = t.ready := rfl
@[simp] theorem Thread.resumeTrap_budget (t : Thread) (p : Word) : (t.resumeTrap p).budget = t.budget := rfl
@[simp] theorem Thread.resumeTrap_g (t : Thread) (p : Word) : (t.resumeTrap p).g = t.g := rfl
@[simp] theorem Thread.resumeTrap_v (t : Thread) (p : Word) : (t.resumeTrap p).v = t.v := rfl
@[simp] theorem Thread.resumeTrap_m (t : Thread) (p : Word) : (t.resumeTrap p).m = t.m := rfl
@[simp] theorem Thread.resumeTrap_stack (t : Thread) (p : Word) : (t.resumeTrap p).stack = t.stack := rfl
@[simp] theorem Thread.resumeTrap_vl (t : Thread) (p : Word) : (t.resumeTrap p).vl = t.vl := rfl
@[simp] theorem Thread.resumeTrap_vstart (t : Thread) (p : Word) : (t.resumeTrap p).vstart = t.vstart := rfl
@[simp] theorem Thread.resumeTrap_mstart (t : Thread) (p : Word) : (t.resumeTrap p).mstart = t.mstart := rfl
@[simp] theorem Thread.resumeTrap_mdepth (t : Thread) (p : Word) : (t.resumeTrap p).mdepth = t.mdepth := rfl
@[simp] theorem Thread.resumeTrap_fmtA (t : Thread) (p : Word) : (t.resumeTrap p).fmtA = t.fmtA := rfl
@[simp] theorem Thread.resumeTrap_fmtB (t : Thread) (p : Word) : (t.resumeTrap p).fmtB = t.fmtB := rfl
@[simp] theorem Thread.resumeTrap_fmtC (t : Thread) (p : Word) : (t.resumeTrap p).fmtC = t.fmtC := rfl
@[simp] theorem Thread.resumeTrap_scaleA (t : Thread) (p : Word) : (t.resumeTrap p).scaleA = t.scaleA := rfl
@[simp] theorem Thread.resumeTrap_scaleB (t : Thread) (p : Word) : (t.resumeTrap p).scaleB = t.scaleB := rfl
@[simp] theorem Thread.resumeTrap_frm (t : Thread) (p : Word) : (t.resumeTrap p).frm = t.frm := rfl
@[simp] theorem Thread.resumeTrap_fflags (t : Thread) (p : Word) : (t.resumeTrap p).fflags = t.fflags := rfl
@[simp] theorem Thread.resumeTrap_srseed (t : Thread) (p : Word) : (t.resumeTrap p).srseed = t.srseed := rfl
@[simp] theorem Thread.resumeTrap_leasemax (t : Thread) (p : Word) : (t.resumeTrap p).leasemax = t.leasemax := rfl
@[simp] theorem Thread.resumeTrap_marchLimit (t : Thread) (p : Word) : (t.resumeTrap p).marchLimit = t.marchLimit := rfl
@[simp] theorem Thread.resumeTrap_dbg (t : Thread) (p : Word) : (t.resumeTrap p).dbg = t.dbg := rfl
@[simp] theorem Thread.resumeTrap_tid (t : Thread) (p : Word) : (t.resumeTrap p).tid = t.tid := rfl
@[simp] theorem Thread.resumeTrap_cause (t : Thread) (p : Word) : (t.resumeTrap p).cause = t.cause := rfl
@[simp] theorem Thread.resumeTrap_tval (t : Thread) (p : Word) : (t.resumeTrap p).tval = t.tval := rfl
@[simp] theorem Thread.resumeTrap_epc (t : Thread) (p : Word) : (t.resumeTrap p).epc = t.epc := rfl
@[simp] theorem Thread.resumeTrap_lfsr (t : Thread) (p : Word) : (t.resumeTrap p).lfsr = t.lfsr := rfl
@[simp] theorem Thread.resumeTrap_pend (t : Thread) (p : Word) : (t.resumeTrap p).pend = t.pend := rfl
@[simp] theorem Thread.resumeTrap_vq (t : Thread) (p : Word) : (t.resumeTrap p).vq = t.vq := rfl
@[simp] theorem Thread.resumeTrap_replay (t : Thread) (p : Word) : (t.resumeTrap p).replay = t.replay := rfl
@[simp] theorem Thread.resumeTrap_vready (t : Thread) (p : Word) : (t.resumeTrap p).vready = t.vready := rfl
@[simp] theorem Thread.resumeTrap_latch (t : Thread) (p : Word) : (t.resumeTrap p).latch = t.latch := rfl
@[simp] theorem Thread.resumeTrap_links (t : Thread) (p : Word) : (t.resumeTrap p).links = t.links := rfl
@[simp] theorem Thread.resumeTrap_lease (t : Thread) (p : Word) : (t.resumeTrap p).lease = t.lease := rfl
@[simp] theorem Thread.resumeTrap_arrivals (t : Thread) (p : Word) : (t.resumeTrap p).arrivals = t.arrivals := rfl
@[simp] theorem Thread.resumeTrap_joined (t : Thread) (p : Word) : (t.resumeTrap p).joined = t.joined := rfl
@[simp] theorem Thread.resumeTrap_inGang (t : Thread) (p : Word) : (t.resumeTrap p).inGang = t.inGang := rfl
@[simp] theorem Thread.resumeTrap_err (t : Thread) (p : Word) : (t.resumeTrap p).err = t.err := rfl
@[simp] theorem Thread.resumeTrap_serial (t : Thread) (p : Word) : (t.resumeTrap p).serial = t.serial := rfl
@[simp] theorem Thread.resumeTrap_gone (t : Thread) (p : Word) : (t.resumeTrap p).gone = t.gone := rfl
@[simp] theorem Thread.resumeTrap_timewait (t : Thread) (p : Word) : (t.resumeTrap p).timewait = t.timewait := rfl
@[simp] theorem Thread.resumeTrap_poison (t : Thread) (p : Word) : (t.resumeTrap p).poison = t.poison := rfl

end Sys2Proof.Machine
end

