-- ==== Sys2Proof/Laws/Storage.lean ====
section
/-! SUPPORT. Every operation of State that changes storage keeps its canonical form. -/
namespace Sys2Proof.Machine

/-- Storage is in its canonical form. -/
abbrev State.canonical (s : State) : Prop := Memory.wf s.mem = true

theorem reset_canonical : State.reset.canonical := rfl

theorem write_canonical {s : State} (h : s.canonical) (who : Option Nat) (a n v : Nat) : (s.write who a n v).canonical := by
  unfold State.canonical at *
  rw [mem_write]
  exact memPut_wf h a n v

theorem zeroRange_canonical {s : State} (h : s.canonical) (a n : Nat) : (s.zeroRange a n).canonical := memFilter_wf h _

theorem wipe_canonical {s : State} (h : s.canonical) (sel : Nat → Bool) : (s.wipe sel).canonical := memFilter_wf h _

theorem clearCovered_canonical {s : State} (h : s.canonical) (as : List Nat) : (s.clearCovered as).canonical := h

theorem addPoison_canonical {s : State} (h : s.canonical) (gs : List Nat) : (s.addPoison gs).canonical := h

/-- A list of writes of one byte each keeps the form. -/
theorem writeBytes_canonical (who : Option Nat) (l : List (Nat × Byte)) {s : State} (h : s.canonical) :
    (l.foldl (fun s e => s.write who e.1 1 e.2.toNat) s).canonical :=
  List.foldlRecOn l _ h (fun _ hs _ _ => write_canonical hs who _ _ _)

theorem flushStrm_canonical {s : State} (h : s.canonical) (core : Nat) (p : Nat → Bool) : (s.flushStrm core p).canonical := by
  simp only [State.flushStrm]
  split
  · exact h
  · exact writeBytes_canonical none _ h

theorem release_canonical {s : State} (h : s.canonical) (core scope : Nat) : (s.release core scope).canonical := by
  unfold State.release
  split
  · exact flushStrm_canonical h _ _
  · exact h

theorem before_canonical {s : State} (h : s.canonical) (o : Order) : (s.before o).canonical := by
  unfold State.before
  split
  · exact release_canonical h _ _
  · exact h

theorem putImage_canonical {s : State} (h : s.canonical) (cells : List Host.Cell) (poison : List Nat) :
    (s.putImage cells poison).canonical :=
  List.foldlRecOn (motive := fun m => Memory.wf m = true) _ _ (wipe_canonical h _) (fun _ hm _ _ => memSet_wf hm _ _)

theorem inScratch_iff (core a : Nat) :
    inScratch core a = true ↔ 2 ^ 56 + core * 2 ^ 20 ≤ a ∧ a < 2 ^ 56 + core * 2 ^ 20 + 2 ^ 20 := by
  simp [inScratch, scratchAddr]

/-- The move of scratch under a new pool layout keeps the order of addresses. -/
theorem poolMove_mono {core old new a b x y : Nat} (ha : inScratch core a) (hab : a < b)
    (hx : poolMove core old new a = some x) (hy : poolMove core old new b = some y) : x < y := by
  simp only [poolMove, Option.ite_none_right_eq_some, Option.some.injEq, Bool.and_eq_true, decide_eq_true_eq] at hx hy
  rw [inScratch_iff] at ha
  simp only [scratchAddr] at hx hy
  omega

/-- It stays inside the core's scratch. -/
theorem poolMove_inScratch {core old new a x : Nat} (hnew : bitsOf new 8 8 ≤ 256) (ha : inScratch core a)
    (hx : poolMove core old new a = some x) : inScratch core x := by
  simp only [poolMove, Option.ite_none_right_eq_some, Option.some.injEq, Bool.and_eq_true, decide_eq_true_eq] at hx
  rw [inScratch_iff] at ha ⊢
  simp only [scratchAddr] at hx
  omega

theorem setPool_canonical {s : State} (h : s.canonical) (core v : Nat) : (s.setPool core v).canonical := by
  have key : ∀ (m : List Host.Cell) (old : Nat), Memory.wf m = true →
      Memory.wf (m.filterMap (fun e => ((if inScratch core e.1 then poolMove core old v e.1 else some e.1)).map (fun a => (a, e.2)))) = true := by
    intro m old hm
    rw [Memory.wf_iff] at hm ⊢
    constructor
    · refine List.pairwise_filterMap.2 (hm.1.imp ?_)
      intro a b hab x hx y hy
      have hb : bitsOf v 8 8 ≤ 256 := by simp only [bitsOf]; omega
      obtain ⟨i, hi, rfl⟩ := Option.map_eq_some_iff.1 hx
      obtain ⟨j, hj, rfl⟩ := Option.map_eq_some_iff.1 hy
      split at hi <;> split at hj <;> rename_i ha hbb
      · exact poolMove_mono ha hab hi hj
      · have := poolMove_inScratch hb ha hi
        simp only [Option.some.injEq] at hj
        simp only [inScratch_iff] at ha hbb this
        omega
      · have := poolMove_inScratch hb hbb hj
        simp only [Option.some.injEq] at hi
        simp only [inScratch_iff] at ha hbb this
        omega
      · cases hi; cases hj; exact hab
    · intro e he
      obtain ⟨c, hc, hx⟩ := List.mem_filterMap.1 he
      obtain ⟨i, -, rfl⟩ := Option.map_eq_some_iff.1 hx
      exact hm.2 c hc
  simp only [State.setPool, State.canonical]
  apply key
  split
  · exact flushStrm_canonical h _ _
  · exact h

theorem withFetchWord_canonical {s : State} (h : s.canonical) (nbits w : Nat) : (s.withFetchWord nbits w).canonical :=
  memPut_wf (memPut_wf (memPut_wf (memPut_wf h _ _ _) _ _ _) _ _ _) _ _ _

end Sys2Proof.Machine
end

