-- ==== Sys2Proof/Laws/Vector.lean ====
section
/-! SUPPORT. Vector registers: what an element reads after a write, and what the shared forms of the vector instructions do. -/
namespace Sys2Proof

/-! ## Fields of a number -/

theorem setBits_split (x lo n v : Nat) :
    setBits x lo n v = (x / 2 ^ (lo + n) * 2 ^ n + v % 2 ^ n) * 2 ^ lo + x % 2 ^ lo := by
  simp only [setBits, bitsOf, Nat.shiftLeft_eq, Nat.shiftRight_eq_div_pow, pow_add]
  have h1 := Nat.div_add_mod x (2 ^ lo)
  have h2 := Nat.div_add_mod (x / 2 ^ lo) (2 ^ n)
  rw [Nat.div_div_eq_div_mul] at h2
  generalize x / 2 ^ lo = q at *
  generalize x % 2 ^ lo = r at *
  generalize q % 2 ^ n = m at *
  generalize x / (2 ^ lo * 2 ^ n) = h at *
  generalize v % 2 ^ n = y at *
  subst h2
  subst h1
  generalize 2 ^ lo = a
  generalize 2 ^ n = b
  have : a * (b * h + m) + r - m * a = a * (b * h) + r := by
    rw [Nat.mul_add, Nat.mul_comm m a]; omega
  rw [this]; ring

theorem bitsOf_setBits_same (x lo n v : Nat) : bitsOf (setBits x lo n v) lo n = v % 2 ^ n := by
  rw [setBits_split, bitsOf, Nat.shiftRight_eq_div_pow, Nat.add_comm, Nat.add_mul_div_right _ _ (Nat.two_pow_pos lo),
    Nat.div_eq_of_lt (Nat.mod_lt _ (Nat.two_pow_pos lo))]
  simp

theorem testBit_setBits (x lo n v i : Nat) :
    (setBits x lo n v).testBit i = if lo ≤ i ∧ i < lo + n then v.testBit (i - lo) else x.testBit i := by
  rw [setBits_split, Nat.mul_comm _ (2 ^ lo), Nat.testBit_two_pow_mul_add _ (Nat.mod_lt _ (Nat.two_pow_pos lo)),
    Nat.mul_comm _ (2 ^ n), Nat.testBit_two_pow_mul_add _ (Nat.mod_lt _ (Nat.two_pow_pos n)), Nat.testBit_mod_two_pow,
    Nat.testBit_mod_two_pow, Nat.testBit_div_two_pow]
  by_cases h1 : i < lo
  · simp [h1, show ¬ lo ≤ i by omega]
  · by_cases h2 : i - lo < n
    · simp [h1, h2, show lo ≤ i by omega, show i < lo + n by omega]
    · simp [h1, h2, show ¬ i < lo + n by omega, show i - lo - n + (lo + n) = i by omega]

theorem testBit_bitsOf (x lo n i : Nat) : (bitsOf x lo n).testBit i = (decide (i < n) && x.testBit (lo + i)) := by
  simp [bitsOf, Nat.testBit_mod_two_pow, Nat.testBit_shiftRight]

theorem bitsOf_setBits_other (x lo n v lo' n' : Nat) (h : lo + n ≤ lo' ∨ lo' + n' ≤ lo) :
    bitsOf (setBits x lo n v) lo' n' = bitsOf x lo' n' := by
  apply Nat.eq_of_testBit_eq
  intro i
  simp only [testBit_bitsOf, testBit_setBits]
  by_cases hi : i < n'
  · simp only [hi, decide_true, Bool.true_and]
    rw [if_neg (by omega)]
  · simp [hi]

theorem setBits_lt (x lo n v m : Nat) (hx : x < 2 ^ m) (h : lo + n ≤ m) : setBits x lo n v < 2 ^ m := by
  apply Nat.lt_pow_two_of_testBit
  intro i hi
  rw [testBit_setBits, if_neg (by omega)]
  exact Nat.testBit_lt_two_pow (Nat.lt_of_lt_of_le hx (Nat.pow_le_pow_right (by omega) hi))

namespace Machine

/-! ## Elements -/

@[simp] theorem getV_setV (t : Thread) (r j : Nat) (x : VReg) : (t.setV r x).getV j = if j = r then x else t.getV j := by
  simp [Thread.getV, Thread.setV, Tab.getD_set]

@[simp] theorem getM_setM (t : Thread) (r j : Nat) (x : Mask) : (t.setM r x).getM j = if j = r then x else t.getM j := by
  simp [Thread.getM, Thread.setM, Tab.getD_set]

theorem getV_congr {t u : Thread} (h : t.v = u.v) (r : Nat) : t.getV r = u.getV r := by simp [Thread.getV, h]

theorem elem_congr {t u : Thread} (h : t.v = u.v) (r i w : Nat) : t.elem r i w = u.elem r i w := by
  simp only [Thread.elem, getV_congr h]

/-- Widths at which no element crosses a register. -/
theorem elem_place {w i j : Nat} (hi : i ≠ j) (h : i * w / 1024 = j * w / 1024) :
    i * w % 1024 + w ≤ j * w % 1024 ∨ j * w % 1024 + w ≤ i * w % 1024 := by

  have a := Nat.div_add_mod (i * w) 1024
  have b := Nat.div_add_mod (j * w) 1024
  rw [h] at a
  rcases Nat.lt_or_gt_of_ne hi with hl | hl
  · left
    have : i * w + w ≤ j * w := by nlinarith
    omega
  · right
    have : j * w + w ≤ i * w := by nlinarith
    omega

theorem elem_fits {w i : Nat} (hw : w ∣ 1024) : i * w % 1024 + w ≤ 1024 := by
  obtain ⟨c, hc⟩ := hw
  have hw0 : 0 < w := by rcases Nat.eq_zero_or_pos w with h | h <;> simp_all
  have h := Nat.mod_lt i (show 0 < c by rcases Nat.eq_zero_or_pos c with h | h <;> simp_all)
  rw [hc, Nat.mul_comm i w, Nat.mul_mod_mul_left]
  nlinarith

theorem elem_setElem (t : Thread) (d i j w x : Nat) (hw : w ∣ 1024) :
    (t.setElem d i w x).elem d j w = if j = i then x % 2 ^ w else t.elem d j w := by
  have hlt : setBits (t.getV (d + i * w / 1024)).bits.toNat (i * w % 1024) w x < 2 ^ 1024 :=
    setBits_lt _ _ _ _ _ (BitVec.isLt _) (elem_fits hw)
  by_cases h : j = i
  · subst h
    simp only [Thread.elem, Thread.setElem, getV_setV, if_true, BitVec.toNat_ofNat, Nat.mod_eq_of_lt hlt,
      bitsOf_setBits_same]
  · simp only [Thread.elem, Thread.setElem, getV_setV, h, if_false]
    by_cases hk : d + j * w / 1024 = d + i * w / 1024
    · rw [if_pos hk]
      simp only [BitVec.toNat_ofNat, Nat.mod_eq_of_lt hlt]
      rw [bitsOf_setBits_other _ _ _ _ _ _ (elem_place (fun e => h e.symm) (by omega)), hk]
    · rw [if_neg hk]

theorem getV_setElem (t : Thread) (d i w x r : Nat) (h : r ≠ d + i * w / 1024) : (t.setElem d i w x).getV r = t.getV r := by
  simp [Thread.setElem, h]

theorem tag_setElem (t : Thread) (d i w x r : Nat) :
    ((t.setElem d i w x).getV r).fmt = (t.getV r).fmt ∧ ((t.setElem d i w x).getV r).grp = (t.getV r).grp := by
  simp only [Thread.setElem, getV_setV]
  split <;> simp_all

theorem setElem_rest (t : Thread) (d i w x : Nat) : t.setElem d i w x = { t with v := (t.setElem d i w x).v } := rfl

/-- Writing a list of elements: each element listed once takes its value, the others keep theirs. -/
theorem foldl_setElem (t : Thread) (d w : Nat) (xs : List (Nat × Nat)) (hw : w ∣ 1024) (hn : (xs.map Prod.fst).Nodup) :
    let u := xs.foldl (fun t e => t.setElem d e.1 w e.2) t
    (∀ i, u.elem d i w = ((xs.find? (fun e => e.1 == i)).map (fun e => e.2 % 2 ^ w)).getD (t.elem d i w)) ∧
    (∀ r, (∀ e ∈ xs, r ≠ d + e.1 * w / 1024) → u.getV r = t.getV r) ∧
    (∀ r, (u.getV r).fmt = (t.getV r).fmt ∧ (u.getV r).grp = (t.getV r).grp) ∧ u = { t with v := u.v } := by
  induction xs generalizing t with
  | nil => simp
  | cons e xs ih =>
    simp only [List.map_cons, List.nodup_cons] at hn
    obtain ⟨h1, h2, h3, h4⟩ := ih (t.setElem d e.1 w e.2) hn.2
    simp only [List.foldl_cons]
    refine ⟨fun i => ?_, fun r hr => ?_, fun r => ?_, ?_⟩
    · rw [h1, List.find?_cons, elem_setElem _ _ _ _ _ _ hw]
      by_cases hi : e.1 = i
      · subst hi
        have : xs.find? (fun e' => e'.1 == e.1) = none := by
          rw [List.find?_eq_none]
          intro y hy hye
          exact hn.1 (List.mem_map.2 ⟨y, hy, by simpa using hye⟩)
        simp [this]
      · have : (e.1 == i) = false := by simpa using hi
        simp [this, show ¬ i = e.1 from fun h => hi h.symm]
    · rw [h2 r (fun y hy => hr y (List.mem_cons_of_mem _ hy)), getV_setElem _ _ _ _ _ _ (hr e (List.mem_cons_self ..))]
    · have := tag_setElem t d e.1 w e.2 r
      exact ⟨(h3 r).1.trans this.1, (h3 r).2.trans this.2⟩
    · rw [h4]; rfl

/-! ## The shared forms -/

theorem foldl_invariant {α β : Type} (P : β → Prop) (f : β → α → β) (l : List α) (b : β) (h0 : P b)
    (h : ∀ b a, P b → P (f b a)) : P (l.foldl f b) := by
  induction l generalizing b with
  | nil => exact h0
  | cons a l ih => exact ih _ (h _ _ h0)

theorem logDeferred_same (t : State) (rs : List ERead) :
    t.logDeferred rs = { t with dies := (t.logDeferred rs).dies } ∧ (t.thr.poison = [] → (t.logDeferred rs).dies = t.dies) := by
  constructor
  · refine foldl_invariant (fun u : State => u = { t with dies := u.dies }) _ _ t rfl (fun u p hu => ?_)
    dsimp only
    split
    · split
      · rw [hu]; rfl
      · exact hu
    · exact hu
  · intro h
    simp [State.logDeferred, State.logDeferredOf, h]

theorem logDeferred_thread (t : State) (rs : List ERead) (k : Nat) : (t.logDeferred rs).thread k = t.thread k := by
  rw [(logDeferred_same t rs).1]; rfl

theorem consumeElems_ok {t : State} {c : VCmd} {rs : List ERead} (h : ∀ e ∈ rs, t.thr.elemPoisoned e.r e.i e.w = false) :
    consumeElems t c rs = .ok (t.logDeferred rs) := by
  have : rs.find? (fun e => t.thr.elemPoisoned e.r e.i e.w) = none := by
    rw [List.find?_eq_none]; intro e he; simp [h e he]
  simp [consumeElems, this]

theorem consumeMask_ok {t : State} {c : VCmd} {elems : Nat} (h : t.thr.maskPoisoned c.m elems c.vl c.vstart = false) :
    consumeMask t c elems = .ok () := by simp [consumeMask, h]

theorem actives_nodup (t : Thread) (m w elems vl vstart : Nat) : (t.actives m w elems vl vstart).Nodup :=
  ((List.nodup_range).sublist (List.drop_sublist _ _)).filter _

@[simp] theorem thr_putThr (s : State) (x : Thread) : (s.putThr x).thr = x := by
  simp [State.putThr, State.setThread, State.thr, State.thread, Tab.getD_set]

theorem thread_putThr (s : State) (x : Thread) (k : Nat) (h : k ≠ s.cur) : (s.putThr x).thread k = s.thread k := by
  simp [State.putThr, State.setThread, State.thread, Tab.getD_set, h]

theorem thread_advance (s : State) (n k : Nat) (h : k ≠ s.cur) : (s.advance n).thread k = s.thread k := by
  simp [State.advance, thread_putThr _ _ _ h]

/-- What differs between a state and the one in which the thread has been replaced, the dies' logs have grown and the thread has
taken the vector unit. -/
theorem sameBut_of (t : State) (rs : List ERead) (x : Thread) (m n : Nat) :
    t.SameBut ((((t.logDeferred rs).putThr x).occupy m).advance n) := by
  have hd := logDeferred_same t rs
  have hc : (t.logDeferred rs).cur = t.cur := by rw [hd.1]
  refine ⟨?_, ⟨max m 1, by omega, ?_⟩, fun k hk => ?_, fun h => ?_⟩
  · rw [hd.1]; rfl
  · rw [hd.1]
    show (((t.putThr x).occupy m).cores) = _
    simp [State.occupy, State.setCore, State.core, State.putThr, State.setThread]
  · rw [thread_advance _ _ _ (by show k ≠ (t.logDeferred rs).cur; rw [hc]; exact hk)]
    show ((t.logDeferred rs).putThr x).thread k = _
    rw [thread_putThr _ _ _ (by rw [hc]; exact hk), logDeferred_thread]
  · rw [← hd.2 h]; rfl

theorem keys_filterMap {α : Type} (idx : List Nat) (out : Nat → Option α) :
    (idx.filterMap (fun i => (out i).map (fun r => (i, r)))).map Prod.fst = idx.filter (fun i => (out i).isSome) := by
  induction idx with
  | nil => rfl
  | cons i l ih => rcases h : out i with _ | y <;> simp [h, ih]

theorem find_filterMap {α : Type} (idx : List Nat) (out : Nat → Option α) (i : Nat) :
    (idx.filterMap (fun i => (out i).map (fun r => (i, r)))).find? (fun e => e.1 == i) =
      if i ∈ idx then (out i).map (fun r => (i, r)) else none := by
  induction idx with
  | nil => rfl
  | cons j l ih =>
    rcases h : out j with _ | y
    · by_cases hj : i = j
      · subst hj; simp [h, ih]
      · simp [h, ih, hj]
    · by_cases hj : i = j
      · subst hj; simp [h]
      · simp [h, ih, hj, show ¬ j = i from fun e => hj e.symm]

/-- Elements written as a list of results: what the register file holds after. -/
theorem writeElems_ok (t : Thread) (d w : Nat) (idx : List Nat) (out : Nat → Option Nat) (hn : idx.Nodup) (hw : w ∣ 1024) :
    let u := t.writeElems d w (idx.filterMap (fun i => (out i).map (fun r => (i, r))))
    let val (i : Nat) : Option Nat := if i ∈ idx then (out i).map (· % 2 ^ w) else none
    (∀ i, u.elem d i w = (val i).getD (t.elem d i w)) ∧
    (∀ r, (∀ i, (val i).isSome → r ≠ d + i * w / 1024) → u.getV r = t.getV r) ∧
    (∀ r, (u.getV r).fmt = (t.getV r).fmt ∧ (u.getV r).grp = (t.getV r).grp) ∧
    (∀ p ∈ u.poison, p ∈ t.poison) ∧ u = { t with v := u.v, poison := u.poison } := by
  intro u val
  set xs := idx.filterMap (fun i => (out i).map (fun r => (i, r))) with hxs
  have hk : (xs.map Prod.fst).Nodup := by rw [hxs, keys_filterMap]; exact hn.filter _
  obtain ⟨h1, h2, h3, h4⟩ := foldl_setElem t d w xs hw hk
  refine ⟨fun i => ?_, fun r hr => ?_, h3, fun p hp => ?_, ?_⟩
  · show (xs.foldl _ t).elem d i w = _
    rw [h1 i, hxs, find_filterMap]
    by_cases hi : i ∈ idx
    · rcases ho : out i with _ | y <;> simp [val, hi, ho]
    · simp [val, hi]
  · refine h2 r (fun e he => ?_)
    rw [hxs, List.mem_filterMap] at he
    obtain ⟨i, hi, he⟩ := he
    rcases ho : out i with _ | y
    · simp [ho] at he
    · simp only [ho, Option.map_some, Option.some.injEq] at he
      subst he
      exact hr i (by simp [val, hi, ho])
  · have : p ∈ (xs.foldl (fun t e => t.setElem d e.1 w e.2) t).poison := List.mem_of_mem_filter hp
    rw [h4] at this; exact this
  · show ({ xs.foldl (fun t e => t.setElem d e.1 w e.2) t with poison := u.poison } : Thread) = _
    rw [show u.v = (xs.foldl (fun t e => t.setElem d e.1 w e.2) t).v from rfl]
    conv_lhs => rw [h4]

/-- An element-wise instruction whose operands hold no poison writes its elements (R107). -/
theorem vecMap_wrote {t : State} {c : VCmd} {wd : Nat} {idx : List Nat} {reads : Nat → List ERead}
    {val : Nat → List Nat → Option (Nat × Flags)} (hn : idx.Nodup) (hw : wd ∣ 1024)
    (hp : ∀ e ∈ idx.flatMap reads, t.thr.elemPoisoned e.r e.i e.w = false) :
    let out (i : Nat) := val i ((reads i).map (fun e => t.thr.elem e.r e.i e.w))
    ∃ u, vecMap t c wd idx reads val = .ok u ∧ ∀ m,
      t.Wrote ((u.occupy m).advance 4) c.d wd ((idx.filterMap out).foldl (fun f e => f ||| e.2) 0)
        (fun i => if i ∈ idx then (out i).map (fun e => e.1 % 2 ^ wd) else none) := by
  intro out
  have hthr : (t.logDeferred (idx.flatMap reads)).thr = t.thr := by
    show (t.logDeferred (idx.flatMap reads)).thread (t.logDeferred (idx.flatMap reads)).cur = _
    rw [logDeferred_thread, show (t.logDeferred (idx.flatMap reads)).cur = t.cur by rw [(logDeferred_same t _).1]]; rfl
  refine ⟨_, by simp only [vecMap, consumeElems_ok hp, bind, Except.bind]; rfl, ?_⟩
  simp only [hthr]
  have hout : ∀ i, val i ((reads i).map (fun e => t.thr.elem e.r e.i e.w)) = out i := fun _ => rfl
  simp only [hout]
  have hxs : (idx.filterMap (fun i => (out i).map (fun r => (i, r)))).map (fun e => (e.1, e.2.1)) =
      idx.filterMap (fun i => ((out i).map Prod.fst).map (fun r => (i, r))) := by
    rw [List.map_filterMap]; congr 1; funext i; rcases out i with _ | y <;> rfl
  have hfl : (idx.filterMap (fun i => (out i).map (fun r => (i, r)))).foldl (fun (f : Flags) e => f ||| e.2.2) 0 =
      (idx.filterMap out).foldl (fun f e => f ||| e.2) 0 := by
    generalize (0 : Flags) = z
    clear hn hp hxs hthr
    induction idx generalizing z with
    | nil => rfl
    | cons i l ih => rcases h : out i with _ | y <;> simp [h, ih]
  rw [hxs, hfl]
  obtain ⟨h1, h2, h3, h4, h5⟩ := writeElems_ok t.thr c.d wd idx (fun i => (out i).map Prod.fst) hn hw
  set x := t.thr.writeElems c.d wd (idx.filterMap (fun i => ((out i).map Prod.fst).map (fun r => (i, r)))) with hx
  have hv : ∀ i, (if i ∈ idx then ((out i).map Prod.fst).map (· % 2 ^ wd) else none) =
      (if i ∈ idx then (out i).map (fun e => e.1 % 2 ^ wd) else none) := by
    intro i; split
    · rcases out i with _ | y <;> rfl
    · rfl
  simp only [hv] at h1 h2
  clear_value x
  generalize (idx.filterMap out).foldl (fun f e => f ||| e.2) 0 = fl
  intro m
  have hu : ((((t.logDeferred (idx.flatMap reads)).putThr ((x.addFlags fl).clearVstart)).occupy m).advance 4).thr =
      { (x.addFlags fl).clearVstart with pc := x.pc + 4 } := by
    have ho : (((t.logDeferred (idx.flatMap reads)).putThr ((x.addFlags fl).clearVstart)).occupy m).thr = (x.addFlags fl).clearVstart := by
      show ((t.logDeferred (idx.flatMap reads)).putThr ((x.addFlags fl).clearVstart)).thr = _
      simp
    rw [State.advance, thr_putThr, ho]; rfl
  have huv : ((((t.logDeferred (idx.flatMap reads)).putThr ((x.addFlags fl).clearVstart)).occupy m).advance 4).thr.v = x.v := by
    rw [hu]; rfl
  refine ⟨sameBut_of _ _ _ _ _, fun i => (elem_congr huv _ _ _).trans (h1 i), fun r hr => (getV_congr huv _).trans (h2 r hr),
    fun r => ?_, fun p hp => ?_, ?_⟩
  · rw [getV_congr huv]; exact h3 r
  · rw [hu] at hp; exact h4 p hp
  · rw [hu]
    simp only [Thread.addFlags, Thread.clearVstart]
    rw [h5]

end Machine
end Sys2Proof
end

