-- ==== Sys2Proof/Tests/Slice0.lean ====
section
/-! SUPPORT. Tests of the model: words of the spec's encoding tables, ill-formed terms, single steps with the results that
the spec's tables give, and for each statement with hypotheses a state that meets them. -/
open Sys2Proof Sys2Proof.Machine
namespace Sys2Proof.Tests
set_option Elab.async false

/-! ## Decoding: the words of the sections "Encodings worked out" -/

/-- Chapter 3. -/
theorem test_words_formats :
    decodeTableWord 32 0xA051200C = some (.lw true 5 2 0 12) ∧ decodeTableWord 32 0x22C19FF8 = some (.sd false 0 3 7 0x3F8) ∧
    decodeTableWord 32 0x44443100 = some (.vfadd false 4 8 12 2) ∧
    decodeTableWord 64 0x123456787E600020 = some (.addiL false 6 0 0x12345678) := by decide +kernel

/-- Chapter 4. -/
theorem test_words_scalar :
    decodeTableWord 32 0x02321400 = some (.add false 3 4 5) ∧ decodeTableWord 32 0x038C1600 = some (.aluH false 24 24 5 0) ∧
    decodeTableWord 32 0x039CFF3C = some (.addiH false 25 25 0x7FC) ∧ decodeTableWord 32 0x0C73A003 = some (.srai false 7 7 3) ∧
    decodeTableWord 32 0x12912345 = some (.lui false 9 0x12345) ∧ decodeTableWord 32 0x16A5B005 = some (.divn false 10 11 12) ∧
    decodeTableWord 32 0x244300C3 = some (.loadScoped false 4 6 3 3) ∧ decodeTableWord 32 0x2401168A = some (.storeScoped false 2 5 2 10) ∧
    decodeTableWord 32 0x3DE00010 = some (.call false 30 16) ∧ decodeTableWord 32 0x3E0F0000 = some (.callr false 0 30 0) := by
  decide +kernel

/-- Chapter 5. -/
theorem test_words_vector :
    decodeTableWord 32 0x40858800 = some (.vcfg false 8 0x0B 2) ∧ decodeTableWord 32 0x40310001 = some (.vgrant false 3 2 0) ∧
    decodeTableWord 32 0x40330806 = some (.vmovr false 3 6 2) ∧ decodeTableWord 32 0x42300422 = some (.vcmplt false 3 0 1 0) ∧
    decodeTableWord 32 0x44864100 = some (.vfadd false 8 12 16 2) ∧ decodeTableWord 32 0x46044018 = some (.vcvtDs false 0 8 16 0) ∧
    decodeTableWord 32 0xC8540018 = some (.vfredsum true 5 8 0 0) ∧ decodeTableWord 32 0x4A018010 = some (.mpush false 3) ∧
    decodeTableWord 32 0x4C81C140 = some (.vldx false 8 3 16 2) ∧ decodeTableWord 32 0x4E228000 = some (.vst false 2 5 0) ∧
    decodeTableWord 32 0x52421C40 = some (.vfloatG false 4 4 7 0 0) := by decide +kernel

/-- Chapter 6. -/
theorem test_words_matrix :
    decodeTableWord 32 0x58000000 = some (.mgang false) ∧ decodeTableWord 32 0x5802145F = some (.mmaScratch false 0 4 5 15) ∧
    decodeTableWord 32 0x58101867 = some (.mmaDownconv false 1 0 6 7) ∧ decodeTableWord 32 0x58041480 = some (.mmaSlideVreg false 0 8 5 0) ∧
    decodeTableWord 32 0x5803A0C0 = some (.mst false 0 7 8) ∧ decodeTableWord 32 0x58000100 = some (.mwait false) ∧
    decodeTableWord 32 0x5A100000 = some (.mzero false 1) ∧ decodeTableWord 32 0x5A802440 = some (.mrd false 8 0 9) ∧
    decodeTableWord 32 0x5A142480 = some (.mwr false 1 8 9) ∧ decodeTableWord 32 0x5A40A4C0 = some (.mcvt false 4 1 9) := by
  decide +kernel

/-- Chapter 7. -/
theorem test_words_sync :
    decodeTableWord 32 0x26531C03 = some (.amoadd false 5 6 7 0 3) ∧ decodeTableWord 32 0x26812674 = some (.cas false 8 2 9 1 0x14) ∧
    decodeTableWord 32 0x26411AC7 = some (.casQ false 2 2 3 7) ∧ decodeTableWord 32 0x26410307 = some (.lease false 4 2 7) ∧
    decodeTableWord 32 0x26410F44 = some (.leaseN false 4 2 3 4) ∧ decodeTableWord 32 0x2660038C = some (.lend false 6 0xC) ∧
    decodeTableWord 32 0x50412100 = some (.gld false 4 2 8 2) ∧ decodeTableWord 32 0x50412190 = some (.scs false 4 2 8 3) ∧
    decodeTableWord 32 0x50412020 = some (.vamoadd false 4 2 8 0) ∧ decodeTableWord 32 0x2A443100 = some (.vwait false 4 8 12 2 0) ∧
    decodeTableWord 32 0x2A000020 = some (.wfe false) ∧ decodeTableWord 32 0x2A028030 = some (.wake false 5) ∧
    decodeTableWord 32 0x28000013 = some (.fence false 2 3) ∧ decodeTableWord 32 0x2800007C = some (.fence false 0xF 4) ∧
    decodeTableWord 32 0x2800009A = some (.bar false 3 2) ∧ decodeTableWord 32 0x2800011A = some (.bara false 3 2) ∧
    decodeTableWord 32 0x2800019A = some (.barw false 3 2) ∧ decodeTableWord 32 0x28610E00 = some (.claim false 6 2 3) := by
  decide +kernel

/-- Chapter 8. -/
theorem test_words_graphics :
    decodeTableWord 32 0x60412020 = some (.sampleBil false 4 2 8 0) ∧ decodeTableWord 32 0x63012100 = some (.boxtest false 16 1 8 2) ∧
    decodeTableWord 32 0x63412181 = some (.tritest false 20 1 8 3) ∧ decodeTableWord 32 0x62613102 = some (.partition false 6 1 12 2) ∧
    decodeTableWord 64 0x800000007E522320 = some (.marchLocate false 5 4 8 0) ∧
    decodeTableWord 64 0x100000007E522320 = some (.marchRecord false 5 4 8 2) ∧
    decodeTableWord 32 0x66019180 = some (.qpushBlend false 3 4 1) := by decide +kernel

/-- Chapter 9. -/
theorem test_words_system :
    decodeTableWord 32 0x70020000 = some (.copy false 4) ∧ decodeTableWord 32 0x70020020 = some (.fill false 4) ∧
    decodeTableWord 32 0x70020040 = some (.coll false 4) ∧ decodeTableWord 32 0x70000065 = some (.qfence false 5) ∧
    decodeTableWord 32 0x70600083 = some (.qwait false 6 3) ∧ decodeTableWord 32 0x706000A0 = some (.qstat false 6 0) ∧
    decodeTableWord 32 0x74500028 = some (.mfs false 5 0x28) ∧ decodeTableWord 32 0x74019018 = some (.mts false 3 0x18) ∧
    decodeTableWord 32 0x7402A000 = some (.svc false 5) ∧ decodeTableWord 32 0x74002002 = some (.brk false) ∧
    decodeTableWord 32 0x74002003 = some (.yield false) ∧ decodeTableWord 32 0x74022005 = some (.timewait false 4) ∧
    decodeTableWord 32 0x76219000 = some (.tres false 2 3 4) ∧ decodeTableWord 32 0x76531C01 = some (.ctxsave false 5 6 7) ∧
    decodeTableWord 32 0x76531C02 = some (.ctxload false 5 6 7) ∧ decodeTableWord 32 0x76031C03 = some (.tlbinvPage false 6 7) ∧
    decodeTableWord 32 0x76031C04 = some (.slotctlHold false 6 7) ∧ decodeTableWord 32 0x76030005 = some (.wakepThread false 6) := by
  decide +kernel

/-- The bytes of a word lie lowest first (R59). -/
theorem test_word_bytes : bytesOfWord 0xA051200C = [0x0C, 0x20, 0x51, 0xA0] := by decide +kernel

/-- Reserved encodings decode to nothing: fn10 0x00E of R86, FENCE without kinds, LD with release order, an OS5 with scope 7,
VCMPEQ to m0, a mask 0 for SCS (R62, R63, R66, R69, R86, R178, R183). -/
theorem test_words_refused :
    decodeTableWord 32 0x0232140E = none ∧ decodeTableWord 32 0x28000004 = none ∧ decodeTableWord 32 0x2051280C = none ∧
    decodeTableWord 32 0x244300CF = none ∧ decodeTableWord 32 0x42000420 = none ∧ decodeTableWord 32 0x50412010 = none := by
  decide +kernel

/-! ## Well-formedness: a term that each check refuses -/

/-- Orders (R62, R63). -/
theorem test_wf_orders :
    (Instr.lw false 1 2 2 0).wf = false ∧ (Instr.sw false 1 1 2 0).wf = false ∧ (Instr.loadScoped false 1 2 7 7).wf = false ∧
    (Instr.loadScoped false 1 2 3 0xC).wf = false ∧ (Instr.storeScoped false 1 2 3 3).wf = false ∧
    (Instr.amoadd false 1 2 3 0 0x1D).wf = false ∧ (Instr.casQ false 1 2 3 0xF).wf = false ∧ (Instr.lease false 1 2 0xC).wf = false ∧
    (Instr.lend false 1 4).wf = false := by decide

/-- Scopes, conditions, formats and codes (R64, R65, R69, R86, R122, R181, R183, R185). -/
theorem test_wf_codes :
    (Instr.fence false 0 4).wf = false ∧ (Instr.fence false 1 7).wf = false ∧ (Instr.bar false 3 0).wf = false ∧
    (Instr.bara false 3 6).wf = false ∧ (Instr.barw false 3 7).wf = false ∧ (Instr.vwait false 1 2 3 0 6).wf = false ∧
    (Instr.vwaitT false 1 2 3 0 7).wf = false ∧ (Instr.vcfg false 8 0 2).wf = false ∧ (Instr.vcfg false 8 0x13 2).wf = false ∧
    (Instr.vcfg false 6 0xB 2).wf = false ∧ (Instr.aluH false 1 2 3 0x0E).wf = false ∧ (Instr.vintG false 1 2 3 0 0x18).wf = false ∧
    (Instr.vintG false 0 2 3 0 0x20).wf = false ∧ (Instr.vfloatG false 1 2 3 0 0x0B).wf = false ∧
    (Instr.vcvt false 1 2 0 5).wf = false ∧ (Instr.vcvtDs false 1 2 3 6).wf = false := by decide

/-- Masks, slices, groups and queues (R16, R131, R144, R178, R196, R203, R220, R221). -/
theorem test_wf_registers :
    (Instr.vcmpeq false 0 1 2 0).wf = false ∧ (Instr.vfcmpun false 0 1 2 0).wf = false ∧ (Instr.mbound false 1 2 5).wf = false ∧
    (Instr.mand false 0 1 2).wf = false ∧ (Instr.mnot false 0 1).wf = false ∧ (Instr.mmv false 0 1).wf = false ∧
    (Instr.mfromv false 0 1).wf = false ∧ (Instr.scs false 1 2 3 0).wf = false ∧ (Instr.mmaDownconv false 1 1 2 3).wf = false ∧
    (Instr.boxtest false 1 2 8 0).wf = false ∧ (Instr.tritest false 1 2 8 0).wf = false ∧ (Instr.partition false 1 2 3 0).wf = false ∧
    (Instr.marchAcc false 1 2 4 0).wf = false ∧ (Instr.qfence false 0).wf = false ∧ (Instr.qwait false 1 5).wf = false ∧
    (Instr.qstat false 1 6).wf = false := by decide

/-! ## Single steps -/

/-- A user thread of partition 0 in slot 0 of core 0, whose pages may be read, written and executed, at an address with nothing
written. -/
def base : State :=
  let s := State.reset.withFetchWord 32 0
  { s with mem := memPut s.mem 0x3000 8 0x9F, agenda := [] }

/-- `base` with another thread. -/
def user (f : Thread → Thread) : State := base.putThr (f base.thr)

/-- `base` with two general registers. -/
def regs (a : Nat) (x : Word) (b : Nat) (y : Word) : State := user (fun t => (t.setG a x).setG b y)

/-- The state after an instruction, or the state before it where it stops. -/
noncomputable def after (i : Instr) (s : State) : State :=
  match exec i s with
  | .next t => t
  | _ => s

/-- g3 after an instruction on g4 and g5. -/
noncomputable def g3 (i : Instr) (x y : Word) : Word := (after i (regs 4 x 5 y)).thr.getG 3

/-- The cause and tval of the record that a trap of the thread has written (R228). -/
def trapOf (s : State) : Nat × Nat := (memNat s.mem (dieScratchAddr 0 0x18) 2, memNat s.mem (dieScratchAddr 0 0x10) 8)

/-- The table of R86 at its edges. -/
theorem test_alu :
    g3 (.add false 3 4 5) (-1) 2 = 1 ∧ g3 (.sub false 3 4 5) 1 2 = -1 ∧ g3 (.sll false 3 4 5) 3 65 = 6 ∧
    g3 (.sra false 3 4 5) (-8) 1 = -4 ∧ g3 (.srl false 3 4 5) (-8) 60 = 15 ∧ g3 (.slt false 3 4 5) (-1) 0 = 1 ∧
    g3 (.sltn false 3 4 5) (-1) 0 = 0 ∧ g3 (.min false 3 4 5) (-1) 0 = -1 ∧ g3 (.maxn false 3 4 5) (-1) 0 = -1 ∧
    g3 (.addw false 3 4 5) 0x7FFFFFFF 1 = 0xFFFFFFFF80000000 ∧ g3 (.srlw false 3 4 5) 0x180000000 31 = 1 ∧
    g3 (.sraw false 3 4 5) 0x80000000 31 = -1 := by decide +kernel

/-- R89 to R91. -/
theorem test_immediates :
    g3 (.addi false 3 4 0x7FFF) 5 0 = 4 ∧ g3 (.sltni false 3 4 0x7FFF) 5 0 = 1 ∧ g3 (.rori false 3 4 4) 0x1F 0 = 0xF000000000000001 ∧
    g3 (.lui false 3 0x80000) 0 0 = 0xFFFFFFFF80000000 ∧ g3 (.addpc false 3 4) 0 0 = 0x10010 ∧
    (after (.addiL false 3 4 0xFFFFFFFF) (regs 4 5 5 0)).thr.pc = 0x10008 := by decide +kernel

/-- R92: the division corners, and the upper half of a product of mixed signs. -/
theorem test_mul_div :
    g3 (.mulh false 3 4 5) (-1) (-1) = 0 ∧ g3 (.mulhn false 3 4 5) (-1) (-1) = 0xFFFFFFFFFFFFFFFE ∧
    g3 (.mulhsn false 3 4 5) (-1) (-1) = -1 ∧ g3 (.div false 3 4 5) (-7) 2 = -3 ∧ g3 (.div false 3 4 5) 7 0 = -1 ∧
    g3 (.div false 3 4 5) 0x8000000000000000 (-1) = 0x8000000000000000 ∧ g3 (.rem false 3 4 5) (-7) 2 = -1 ∧
    g3 (.rem false 3 4 5) 7 0 = 7 ∧ g3 (.remw false 3 4 5) 0x180000007 0 = 0xFFFFFFFF80000007 := by decide +kernel

/-- R93. -/
theorem test_bit_ops :
    g3 (.clz false 3 4) 0 0 = 64 ∧ g3 (.ctzw false 3 4) 0 0 = 32 ∧ g3 (.popc false 3 4) 0xFF0F 0 = 12 ∧
    g3 (.brev false 3 4) 1 0 = 0x8000000000000000 ∧ g3 (.bswap false 3 4) 0x0102030405060708 0 = 0x0807060504030201 ∧
    g3 (.bext false 3 4 5) 0xABCD 0xF0F0 = 0xAC ∧ g3 (.bdep false 3 4 5) 0xAC 0xF0F0 = 0xA0C0 ∧
    g3 (.sextb false 3 4) 0x80 0 = 0xFFFFFFFFFFFFFF80 := by decide +kernel

/-- R12: a write to g0 is discarded. -/
theorem test_g0 : (after (.addi false 0 4 1) (regs 4 7 5 0)).thr.getG 0 = 0 := by decide +kernel

/-- R101, R102: a backward branch, a branch not taken, and a call whose register is also its link. -/
theorem test_control :
    (after (.blt false 0x7FFF 4 5) (regs 4 (-1) 5 0)).thr.pc = 0xFFFC ∧
    (after (.bltn false 0x7FFF 4 5) (regs 4 (-1) 5 0)).thr.pc = 0x10004 ∧
    (after (.callr false 4 4 2) (regs 4 0x20000 5 0)).thr.pc = 0x20008 ∧
    (after (.callr false 4 4 2) (regs 4 0x20000 5 0)).thr.getG 4 = 0x10004 := by decide +kernel

/-- R102, R227, R228: CALLR to a misaligned target traps with cause 0x07 and the target. -/
theorem test_callr_trap :
    trapOf (after (.callr false 1 4 1) (regs 4 0x20002 5 0)) = (0x07, 0x20006) ∧
    (after (.callr false 1 4 1) (regs 4 0x20002 5 0)).thr.st = .parkedTrap := by decide +kernel

/-- R6, R95: a store and the loads of its bytes. -/
theorem test_load_store :
    (let s := after (.sd false 0 4 5 0x3F8) (regs 4 0x20008 5 0x8182838485868788)
     memNat s.mem 0x20000 8 = 0x8182838485868788 ∧ memByte s.mem 0x20000 = 0x88 ∧
     (after (.lb false 3 4 0 0x3F9) s).thr.pend = [.vals [(3, 0xFFFFFFFFFFFFFF87)]] ∧
     (after (.lhn false 3 4 0 0x3FA) s).thr.pend = [.vals [(3, 0x8586)]] ∧
     (after (.lw false 3 4 0 0x3FC) s).thr.pend = [.vals [(3, 0xFFFFFFFF81828384)]]) := by decide +kernel

/-- R97: an ordered access must be aligned; a window address outside the grant traps. -/
theorem test_access_traps :
    trapOf (after (.lw false 3 4 1 2) (regs 4 0x20000 5 0)) = (0x07, 0x20002) ∧
    trapOf (after (.ld false 3 4 0 0) (regs 4 0x01FFFF0000000000 5 0)) = (0x06, 0x01FFFF0000000000) ∧
    trapOf (after (.ld false 3 4 0 0) (regs 4 0x0200000000000000 5 0)) = (0x06, 0x0200000000000000) ∧
    (after (.ld false 3 4 0 0) (regs 4 0x80000000 5 0)).thr.st = .parkedPage := by decide +kernel

/-- R21, R22: the marker lands what is pending. -/
theorem test_wait_marker :
    (after (.addi true 6 3 1) (user (fun t => { t with pend := [.vals [(3, 41)]] }))).thr.getG 6 = 42 := by decide +kernel

/-- R162, R163: AMOADD.W stores the sum and AMOMIN.D keeps the lesser; each gives the old value. -/
theorem test_amo :
    (let s := base.write none 0x20000 8 0xFFFFFFFF00000003
     let t := s.putThr ((s.thr.setG 4 0x20000).setG 5 (-5))
     memNat (after (.amoadd false 3 4 5 0 7) t).mem 0x20000 8 = 0xFFFFFFFFFFFFFFFE ∧
     (after (.amoadd false 3 4 5 0 7) t).thr.pend = [.vals [(3, 3)]] ∧
     memNat (after (.amomin false 3 4 5 1 7) t).mem 0x20000 8 = 0xFFFFFFFF00000003) := by decide +kernel

/-- R163: CAS.W compares with g[d] and stores g[b] where they are equal. -/
theorem test_cas :
    (let s := base.write none 0x20000 4 7
     let t := s.putThr ((((s.thr.setG 4 0x20000).setG 5 9)).setG 3 7)
     memNat (after (.cas false 3 4 5 0 7) t).mem 0x20000 4 = 9 ∧
     memNat (after (.cas false 3 4 5 0 7) (t.setG 3 8)).mem 0x20000 4 = 7) := by decide +kernel

/-- R25, R222: a control register takes a legal value; an illegal value and an unknown index trap. -/
theorem test_control_registers :
    (after (.mts false 4 0x018) (regs 4 256 5 0)).thr.leasemax = 256 ∧ trapOf (after (.mts false 4 0x018) (regs 4 257 5 0)) = (1, 0) ∧
    trapOf (after (.mfs false 3 0x7FF) base) = (1, 0) ∧ trapOf (after (.mfs false 3 0x800) base) = (2, 0) ∧
    (after (.mfs false 3 0x02A) base).thr.getG 3 = 0x204040 := by decide +kernel

/-- R223, R228: SVC traps past the instruction with its register. -/
theorem test_svc :
    trapOf (after (.svc false 4) (regs 4 99 5 0)) = (0x18, 99) ∧ (after (.svc false 4) (regs 4 99 5 0)).thr.pc = 0x10004 := by decide +kernel

/-- R20: an h register shows a write 8 clk after it. -/
theorem test_shared_register :
    (let s := after (.addiH false 24 4 5) (regs 4 1 5 0)
     (after (.addiH false 3 24 0) s).thr.getG 3 = 0 ∧ (after (.addiH false 3 24 0) { s with clk := s.clk + 8 }).thr.getG 3 = 6) := by
  decide +kernel

/-- `base` with v0, v1 and v2 of one register, a format and two patterns, and c.vl. -/
def vecs (f : BitVec 5) (x y : BitVec 1024) (vl : BitVec 12) : State :=
  user (fun t => (((t.setV 0 ⟨x, f, 0⟩).setV 1 ⟨y, f, 0⟩).setV 2 ⟨0, f, 0⟩).setV 3 ⟨0, 0x06, 0⟩ |> fun t => { t with vl := vl })

/-- Element `j` of width `w` of v2 after an instruction. -/
noncomputable def v2 (i : Instr) (f : BitVec 5) (x y : BitVec 1024) (j w : Nat) : Nat := (after i (vecs f x y 2)).thr.elem 2 j w

/-- R116: integer operations on S8 elements. -/
theorem test_vector_integer :
    v2 (.vadd false 2 0 1 0) 1 0x7F80 0x01FF 1 8 = 0x80 ∧ v2 (.vadd false 2 0 1 0) 1 0x7F80 0x01FF 0 8 = 0x7F ∧
    v2 (.vsadd false 2 0 1 0) 1 0x7F80 0x01FF 1 8 = 0x7F ∧ v2 (.vsadd false 2 0 1 0) 1 0x7F80 0x01FF 0 8 = 0x80 ∧
    v2 (.vdiv false 2 0 1 0) 1 0x80 0xFF 0 8 = 0x80 ∧ v2 (.vmulh false 2 0 1 0) 1 0x80 0x80 0 8 = 0x40 ∧
    v2 (.vadd false 2 0 1 0) 1 0x010101 0x010101 2 8 = 0 := by decide +kernel

/-- R117, R16: a compare writes its mask and clears the bits from c.vl on. -/
theorem test_vector_compare :
    ((after (.vcmplt false 3 0 1 0) (vecs 5 (0xFFFFFFFF00000001#1024) 0x000000010000000000000000 2)).thr.getM 3).bits = 2 ∧
    ((after (.vcmpltn false 3 0 1 0) (vecs 5 (0xFFFFFFFF00000001#1024) 0 2)).thr.getM 3).bits = 0 := by decide +kernel

/-- R37, R44, R119: FP32 addition rounds once; infinity minus infinity gives the canonical NaN and NV. -/
theorem test_vector_float :
    v2 (.vfadd false 2 0 1 0) 0x0B 0x3F800000 0x33800000 0 32 = 0x3F800000 ∧
    v2 (.vfadd false 2 0 1 0) 0x0B 0x3F800001 0x33800000 0 32 = 0x3F800002 ∧
    v2 (.vfadd false 2 0 1 0) 0x0B 0x7F800000 0xFF800000 0 32 = 0x7FC00000 ∧
    v2 (.vfdiv false 2 0 1 0) 0x0B 0x3F800000 0x40400000 0 32 = 0x3EAAAAAB ∧
    v2 (.vfsqrt false 2 0 0) 0x0B 0x40000000 0 0 32 = 0x3FB504F3 ∧
    v2 (.vfmin false 2 0 1 0) 0x0B 0x7FC00000 0x3F800000 0 32 = 0x3F800000 := by decide +kernel

/-- R14, R107: an untagged register raises the tag trap with its number, a register past the budget the bound trap. -/
theorem test_vector_traps :
    (trapOf (after (.vadd false 2 0 4 0) (vecs 5 0 0 2))).1 = 0x04 ∧ (trapOf (after (.vadd false 9 0 1 0) (vecs 5 0 0 2))).1 = 0x03 ∧
    (after (.vadd false 2 0 1 0) (vecs 5 0 0 2)).thr.st = .running := by decide +kernel

/-- R21, R133, R134: a vector load of two S32 elements, whose result is pending. -/
theorem test_vector_load :
    (let s := vecs 5 0 0 2
     let t := (s.write none 0x20000 8 0x1111111122222222).setG 4 0x20000
     let u := after (.vld false 2 4 0) t
     u.thr.elem 2 1 32 = 0 ∧ u.thr.landVec.elem 2 0 32 = 0x22222222 ∧ u.thr.landVec.elem 2 1 32 = 0x11111111 ∧
     u.thr.landVec.elem 2 2 32 = 0) := by decide +kernel

/-- R130: a reduction leaves its sum pending. -/
theorem test_reduction :
    (after (.vredsum false 6 0 4 0) (vecs 5 0x0000000500000003 0 2)).thr.pend = [.vals [(6, 8)]] := by decide +kernel

/-- A turn of the slot later. -/
def turn (s : State) : State := { s with clk := s.clk + 16 }

/-- R132: the mask stack. -/
theorem test_mask_stack :
    (let s := turn (after (.mpush false 2) (user (fun t => { (t.setM 1 ⟨false, 0xF, 0, 0⟩).setM 2 ⟨false, 0x6, 0, 0⟩ with vl := 8 })))
     (s.thr.getM 1).bits = 6 ∧ ((after (.melse false) s).thr.getM 1).bits = 9 ∧ ((after (.mpop false) s).thr.getM 1).bits = 0xF) := by
  decide +kernel

/-- R26, R110, R112: a strip of a group of 128 elements. -/
theorem test_grant :
    (let s := after (.vgrant false 3 4 0) (user (fun t => (t.setV 0 ⟨0, 1, 0⟩).setG 4 200))
     s.thr.vl = 128 ∧ s.thr.getG 3 = 72) := by decide +kernel

/-- R131: a BOUND mask counts elements of its own width. -/
theorem test_bound_mask :
    (after (.mcnt false 3 1) (turn (after (.mbound false 1 4 3) (regs 4 300 5 0)))).thr.pend = [.vals [(3, 256)]] := by decide +kernel

/-- The mesh of the cell-march chapter: vertices at 0x30000 and one tetrahedron at 0x31000, all whose faces are boundary faces. -/
def mesh : State :=
  let one := 0x3F800000
  ((((base.write none 0x30010 16 (one + 2 ^ 96 * one)).write none 0x30020 16 (2 ^ 32 * one + 2 ^ 96 * 0x40000000)).write none
    0x30030 16 (2 ^ 64 * one + 2 ^ 96 * 0x40800000)).write none 0x31000 16 (2 ^ 32 + 2 ^ 65 + 3 * 2 ^ 96)).write none 0x31010 16 (2 ^ 128 - 1)

/-- A MARCH of that mesh in cluster 0's unit, and a ray from (0.25, 0.25, 0.25) with a direction and tmax 1. -/
def meshJob (mode : Nat) (r : Ray) : Job :=
  .march ⟨mode, 100, 0x31000, 0x30000, 1, 4, false, 0, [], [], true, [r]⟩
def meshRay (dx dy dz : Nat) : Ray :=
  ⟨0, 0x3E800000, 0x3E800000, 0x3E800000, dx, dy, dz, 0x3F800000, 0, 0, 0, 0, 0xFFFFFFFF, 0, [], none⟩
def meshEntry (mode : Nat) (r : Ray) : Entry := ⟨5, (some 0, 0), 0, 0, 3, meshJob mode r, 0, false⟩

/-- The ray after MARCH_STEP: its steps, exit face, and its status, detail, t and value. -/
noncomputable def marched (mode : Nat) (r : Ray) : List Nat :=
  match (after (.marchStep 0 5 0) { mesh with entries := [meshEntry mode r] }).entries with
  | [⟨_, _, _, _, _, .march ⟨_, _, _, _, _, _, _, _, _, _, _, [r]⟩, _, _⟩] =>
    match r.out with
    | some (status, detail, t, v) => [r.steps, r.face, status, detail, t, v]
    | none => []
  | _ => []

/-- R206, R207, R293 to R298: the step worked through in the cell-march chapter: both rays leave at t = 0.25 through face 0. -/
theorem test_march_step :
    marched 2 (meshRay 0x3F800000 0 0) = [1, 0, 1, 0, 0x3E800000, 0x40000000] ∧
    marched 2 (meshRay 0x3F800000 0x3F800000 0xBF800000) = [1, 0, 1, 0, 0x3E800000, 0x3FC00000] ∧
    marched 1 (meshRay 0x3F800000 0 0) = [1, 0, 1, 0, 0x3E800000, 0x3EF00000] := by decide +kernel

/-- A step runs the first instruction after reset: ADD at the PC that `State.withFetchWord` sets, and a word that decodes to
none traps. -/
theorem test_first_step :
    (match step (State.reset.withFetchWord 32 0x02321400) with
      | .next t => t.thr.pc
      | _ => 0) = 0x10004 ∧
    (match step (State.reset.withFetchWord 32 0) with
      | .next t => trapOf t
      | _ => (0, 0)) = (0x01, 0) := by decide +kernel

/-! ## Witnesses: for each statement with hypotheses, a state that meets them -/

/-- The value of a part of an instruction that completes. -/
def val? {ε α : Type} (r : Except ε α) : Option α :=
  match r with
  | .ok x => some x
  | .error _ => none

theorem of_val {ε α : Type} {r : Except ε α} {x : α} (h : val? r = some x) : r = .ok x := by
  cases r <;> simp_all [val?]

/-- Whether a computation succeeds, and then what it answers. -/
def isOk {ε α : Type} (r : Except ε α) : Bool :=
  match r with
  | .ok _ => true
  | .error _ => false
theorem of_isOk {ε α : Type} {r : Except ε α} (h : isOk r = true) : ∃ u, r = .ok u := by
  cases r with
  | ok u => exact ⟨u, rfl⟩
  | error e => cases h

/-- The error that an evaluated answer holds. -/
def err? {ε α : Type} : Except ε α → Option ε
  | .ok _ => none
  | .error e => some e
theorem of_err {ε α : Type} {r : Except ε α} {e : ε} (h : err? r = some e) : r = .error e := by
  cases r with
  | ok u => cases h
  | error x => cases h; rfl

/-- Decides the hypotheses on a concrete state. -/
theorem ready_iff (s : State) (w : Bool) (rs : List Nat) : s.Ready w rs ↔
    ((w = true → (s.afterW w).thr.pend = []) ∧ ∀ r ∈ rs,
      r = 0 ∨ (r ∉ (s.afterW w).thr.poison ∧ pendingOf (s.afterW w).thr.pend r = none ∧
        pendingOf (s.afterW w).thr.pend (codePoison + r) = none)) := Iff.rfl

/-- A thread with two operands is ready, with and without the marker, and after a pending result has landed. -/
theorem witness_ready : base.Ready false [4, 5] ∧ base.Ready true [4, 5] ∧ base.Ready false [0, 31] ∧
    (user (fun t => { t with pend := [.vals [(3, 41)]] })).Ready true [3] := by
  simp only [ready_iff]; decide +kernel

theorem witness_GeneralRegisterWrite : (31 : Nat) ≠ 0 ∧ (1 : Nat) ≠ 31 := by decide
theorem witness_AluAndImmediateResults : base.Ready false [4, 5] ∧ base.Ready true [4] := ⟨witness_ready.1, by
  simp only [ready_iff]; decide +kernel⟩
theorem witness_MulDivAndBitResults : base.Ready false [4, 5] ∧ base.Ready true [4, 5] := ⟨witness_ready.1, witness_ready.2.1⟩

/-- A user thread with a launch, and a Spring slot without one; a target that is a multiple of 4. -/
theorem witness_IdentityAndBranchResults :
    base.Ready false [] ∧ base.Ready false [4, 5] ∧ base.thr.launch = some 0 ∧ (base.launches.get? 0).isSome = true ∧
    ({ base with cur := 32768 } : State).thr.launch = none ∧ (base.thr.getG 4).toNat % 4 = 0 := by
  simp only [ready_iff]; decide +kernel

/-- g4 holds an aligned address and g5 a value. -/
def mem8 : State := regs 4 0x20000 5 0x1122334455667788

/-- Relaxed and acquiring loads at the two ends of a line. -/
theorem witness_LoadResults : mem8.Ready false [4] ∧ mem8.Admits .load (lsOrder 0) 0x2003F 1 [⟨0x2003F, 0, 1⟩] ∧
    mem8.Admits .load (lsOrder 1) 0x20000 8 [⟨0x20000, 0, 8⟩] ∧ mem8.Admits .load (os5Order 3) 0x20000 8 [⟨0x20000, 0, 8⟩] := by
  refine ⟨by simp only [ready_iff]; decide +kernel, ⟨of_val (by decide +kernel), fun h => absurd h (by decide +kernel)⟩,
    ⟨of_val (by decide +kernel), fun _ h => absurd h (by decide +kernel)⟩, of_val (by decide +kernel),
    fun _ h => absurd h (by decide +kernel)⟩

/-- A relaxed store, a releasing and a sequentially consistent one. -/
theorem witness_StoreResults : mem8.Ready false [4] ∧ mem8.unpending 5 ∧ mem8.Admits .store (lsOrder 0) 0x20001 2 [⟨0x20001, 0, 1⟩, ⟨0x20002, 0, 1⟩] ∧
    mem8.Admits .store (lsOrder 2) 0x20000 8 [⟨0x20000, 0, 8⟩] ∧ mem8.Admits .store (lsOrder 3) 0x20000 4 [⟨0x20000, 0, 4⟩] := by
  refine ⟨by simp only [ready_iff]; decide +kernel, .inr (by decide +kernel), ⟨of_val (by decide +kernel), fun h => absurd h (by decide +kernel)⟩,
    ⟨of_val (by decide +kernel), fun _ h => absurd h (by decide +kernel)⟩, of_val (by decide +kernel),
    fun _ h => absurd h (by decide +kernel)⟩

/-- An open lease region over line 0x800 (0x20000), granted at clk 1. -/
def lease0 : Lease :=
  { pc := 0x10000, dest := 3, addr := 0x20000, lines := [0x800], todo := [], granted := some 1, budget := 4, expired := false, buf := [], bad := [], ending := none }

/-- The thread inside the lease region, which holds, and at its end. -/
def leased (clk : Nat) : State := { user (fun t => { t with lease := some lease0 }) with clk := clk, homes := [(0x800, [0])] }

/-- Plain storage, a STRM page, and a leased line that holds and that does not; an empty list of bytes in canonical form. -/
theorem witness_StorageEffects :
    (base.isReg 0x20000 0 = false ∧ base.ownLease 0 0x20000 = none ∧ (0 : Nat) ≠ 1) ∧
    (base.isReg 0x20000 1 = false ∧ base.ownLease 0 0x20000 = none) ∧
    ((leased 4).isReg 0x2003F 0 = false ∧ (leased 4).thr.region = some lease0 ∧ lease0.lines.contains (lineOf 0x2003F) = true ∧
      lease0.holds 4 = true ∧ lease0.holds 5 = false) ∧ Memory.wf base.mem = true := by decide +kernel

/-- The thread with g4 at the edges of each check of R97: the first address past 2^57, a window address outside the grant, an
ordered misaligned access, an absent page and a page without the right. -/
theorem witness_AccessChecks :
    mem8.Ready false [4] ∧ mem8.unpending 5 ∧ mem8.thr.memQueued = false ∧ mem8.flushHeld (coreOf mem8.cur) = false ∧ 2 ^ 57 < (2 ^ 57 - 7) + 8 ∧
    winBase < (winBase - 7) + 8 ∧ mem8.window 0 (winBase - 7) 8 = none ∧ mem8.window 0 (2 ^ 57 - 8) 8 = none ∧
    (winBase - 7 ≤ winBase ∧ (winBase - 9) % 8 ≠ 0) ∧ mem8.walkFor 0 .load 0x80000000 = .park ∧
    (State.reset.withFetchWord 32 0).walkFor 0 .store 0x20000 = .denied := by
  simp only [ready_iff, State.unpending]; decide +kernel

/-- Atomics on a word, a double word and 16 bytes in plain storage, with room in the lease table, and inside a region. -/
theorem witness_AtomicResults : mem8.Ready false [4, 5] ∧ mem8.AdmitsAmo (os5Order 0) 0x20000 4 ⟨0x20000, 0, 4⟩ ∧
    mem8.AdmitsAmo (os5Order 0xC) 0x20000 8 ⟨0x20000, 0, 8⟩ ∧ mem8.Ready false [4, 6, 7, 2, 3] ∧
    mem8.AdmitsAmo (os5Order 0) 0x20000 16 ⟨0x20000, 0, 16⟩ ∧ (leased 4).AdmitsAmo (os5Order 0) 0x20000 8 ⟨0x20000, 0, 8⟩ ∧
    mem8.readable 3 := by
  simp only [ready_iff, State.AdmitsAmo, State.readable]
  and_intros <;> first | decide +kernel | exact of_val (by decide +kernel)

/-- The thread that waits for a lease over lines 0x800 and 0x801, at the head of the first line's queue. -/
def leasing (todo : List Nat) : State :=
  { user (fun t => { t with st := .waiting .lease, lease := some { lease0 with lines := [0x800, 0x801], todo := todo, granted := none } }) with
    homes := [(0x800, [0]), (0x801, [0])] }

/-- A request of one line and of two; the record at a first and at a last home; a region before and at its expiry, without and with
an announced access; one whose LEND has issued. -/
theorem witness_LeaseResults :
    (mem8.Ready false [4, 6] ∧ mem8.thr.lease = none ∧ mem8.thr.memQueued = false ∧ mem8.portHeld 0 = false ∧
      mem8.leaseRoom 0 (leaseLines 0x20000 0).length = true ∧ checkLines mem8 0x20000 (sortUp (leaseLines 0x20000 0)) = .ok [0x20000] ∧
      checkLine mem8 0x20000 0x20000 = .ok 0x20000 ∧
      checkLines mem8 0x20000 (sortUp (leaseLines 0x20000 0x10001)) = .ok [0x20000, 0x20040] ∧ mem8.releaseHeld 0 4 = false ∧
      mem8.mixes 0x20000 8 = false) ∧
    ((leasing [0x800, 0x801]).fifo 0x800 = [0] ∧ ((leasing [0x800, 0x801]).thread 0).lease.isSome = true ∧
      (leasing [0x800, 0x801]).homeDown (0x800 * 64) 0 = false ∧ (leasing [0x801]).fifo 0x801 = [0]) ∧
    ((leased 4).Ready false [] ∧ (leased 4).thr.region = some lease0 ∧ lease0.holds 4 = true ∧ lease0.holds 5 = false ∧
      (leased 4).unperformed 0 = false ∧ ({ leased 4 with scq := [⟨3, 0, 1, 0, 0x20000, 0, 4, 6, .done⟩] } : State).unperformed 0 = true ∧
      base.thr.region = none) ∧
    (let s := (leased 4).setThread 0 { (leased 4).thr with lease := some { lease0 with ending := some 3 }, pend := [.sc 3 [5]] }
     (s.thread 0).lease = some { lease0 with ending := some 3 } ∧ s.unperformed 0 = false ∧ Pend.sc 3 [5] ∈ (s.thread 0).pend) ∧
    (((leased 5).thread 0).lease = some lease0 ∧ lease0.granted = some 1 ∧ lease0.expired = false ∧ lease0.ending = none ∧
      1 + lease0.budget ≤ 5) := by
  simp only [ready_iff]
  and_intros <;> first | decide +kernel | exact of_val (by decide +kernel)

/-- A Spring slot of partition 0's firmware in cluster 0. -/
def spring (f : Thread → Thread) : State :=
  let s := base.setPart 0 { base.part 0 with clus := 1, sEff := 0x1001 }
  { s.setThread 32768 (f { Thread.empty with st := .running, ready := s.clk, pc := 0x10000, ident := 1 }) with cur := 32768 }

/-- A launch of two threads. -/
def pair : Launch := { oneThreadLaunch with S := 2, place := [(0, 0), (1, 1)] }

/-- Two threads of one launch, in slots 0 and 1. -/
def twoThreads : State :=
  let s := { base with launches := [(0, pair)] }
  s.setThread 1 { base.thr with tid := 1, latch := true }

/-- Two threads of one launch, the second saved in a context block or halted. -/
def oneAway (saved : Bool) : State :=
  let s := { base with launches := [(0, { pair with saved := if saved then [(1, 0x20000)] else [], halted := if saved then [] else [1] })] }
  s.setThread 1 Thread.empty

/-- A claim block in plain storage; a FENCE with nothing to wait for; a latch set and clear; a c.tid outside the launch, of a thread
in a slot, of one saved and of one that has halted; a Spring slot. -/
theorem witness_ClaimFenceWakeResults :
    (mem8.Ready false [4, 5] ∧ mem8.thr.region = none ∧ checkAtomic mem8 0x20000 16 = .ok [⟨0x20000, 0, 16⟩] ∧ mem8.leaseRoom 0 1 = true ∧
      mem8.thr.memQueued = false ∧ mem8.portHeld 0 = false ∧ mem8.badWord 0 0x20000 16 = none) ∧
    (mem8.Ready false [] ∧ mem8.unperformed 0 = false ∧ mem8.flushHeld 0 = false) ∧
    (twoThreads.Ready false [4] ∧ twoThreads.thr.region = none ∧ ({ twoThreads with cur := 1 } : State).thr.latch = true ∧
      twoThreads.thr.latch = false ∧ twoThreads.lsize twoThreads.thr ≤ 2 ∧ 1 < twoThreads.lsize twoThreads.thr ∧
      twoThreads.thr.launch = some 0 ∧ twoThreads.slotOfTid 0 1 = some 1 ∧ twoThreads.releaseWaits (commonScope 0 1) = false) ∧
    (∀ b ∈ [true, false], (oneAway b).slotOfTid 0 1 = none ∧ (oneAway b).releaseWaits 4 = false ∧
      ((oneAway b).launches.get? 0).map (fun l => (l.saved.get? 1).isSome) = some b) ∧
    ((spring id).thr.launch = none ∧ (spring id).releaseWaits 0 = false) := by
  simp only [ready_iff]
  and_intros <;> first | decide +kernel | exact of_val (by decide +kernel)

/-- A barrier of the cluster with no arrival, with one of two, with all, and a release that is due. -/
theorem witness_BarrierResults :
    (let s := twoThreads
     let b := s.barrierOf 0 2 3
     let one := s.arrive 0 b
     s.Ready false [] ∧ s.thr.region = none ∧ s.unperformed s.cur = false ∧ s.thr.memQueued = false ∧ s.flushHeld 0 = false ∧ s.thr.arrivals.get? (arrivalIndex b) = none ∧
     (one.thr.arrivals.get? (arrivalIndex b)).isSome = true ∧
     ((one.barrier b).arrived ≠ [] ∧ ∃ i ∈ one.participants b, i ∉ (one.barrier b).arrived) ∧
     (let all : State := { s with barriers := [(b, ⟨false, [0, 1], none⟩)] }
      (all.barrier b).arrived ≠ [] ∧ ∀ i ∈ all.participants b, i ∈ (all.barrier b).arrived) ∧
     (let due : State := { s with clk := 9, barriers := [(b, ⟨true, [], some 9⟩)] }.setThread 1
        { s.thread 1 with st := .waiting (.barrier b), arrivals := [(arrivalIndex b, false)] }
      (due.barrier b).due = some 9 ∧ 9 ≤ due.clk ∧ (due.thread 1).st = .waiting (.barrier b) ∧ due.arrivalDone 1 b = true)) := by
  simp only [ready_iff]; decide +kernel

/-- A VWAIT on two 32-bit flags at 0x20000 and 0x20008, whose addresses are in v0 and operands in v1. -/
def flags (x : Nat) : State :=
  user (fun t => { ((t.setV 0 ⟨0x20000 + 2 ^ 64 * 0x20008, 0x08, 0⟩).setV 1 ⟨BitVec.ofNat 1024 x, 0x05, 0⟩) with vl := 2 })

/-- A thread that waits in a VWAIT for the element at 0x20000 to differ from its operand, since clk 0 with timeout 10. -/
def watch0 (x : Nat) (traps : Bool) : Watch := ⟨0, 10, 3, 1, 1, 32, traps, [(0, 0x20000, 0x20000, x)]⟩
def watching (x : Nat) (traps : Bool) : State :=
  { user (fun t => { t with st := .waiting (.vwait 0 10 3 1 1 32 traps true [(0, 0x20000, 0x20000, x)]) }) with clk := 10 }

/-- The two flags of `flags` where they lie. -/
def flagSpans : List (Nat × Span) := [(0, ⟨0x20000, 0, 4⟩), (1, ⟨0x20008, 0, 4⟩)]

/-- VWAIT.EQ with its flags 0: met where the operands are 0 and unmet where they are 1; with a flag line leased to another slot; a
pass of a waiting thread, woken, and at its timeout, met and unmet. -/
theorem witness_VectorWaitResults :
    (∀ x ∈ [0, 1], (flags x).Ready false [3] ∧ (flags x).vectorReady ∧ (flags x).thr.pend = [] ∧ (flags x).thr.vq = [] ∧
      (flags x).thr.region = none ∧ (flags x).thr.vstart = 0 ∧ val? (boundCheck (flags x) [0, 1] []) = some () ∧
      val? (tagCheck (flags x) 2 [(0, fun f _ => f == 8), (1, fun f _ => 5 ≤ f && f ≤ 8)]) = some () ∧
      (flags x).thr.maskPoisoned 0 32 2 0 = false ∧
      val? (checkFlags (flags x) 4 ([0, 1].map (fun i => (i, (flags x).thr.elem 0 i 64)))) = some flagSpans ∧
      vecHeld (flags x) flagSpans = false ∧ (flags x).badWord 0 0x20000 4 = none ∧ (flags x).badWord 0 0x20008 4 = none) ∧
    (let s := (flags 0).setThread 1 { base.thr with lease := some { lease0 with granted := some 0 } }
     vecHeld s flagSpans = true) ∧
    (flags 0).unmet ⟨0, 0, 3, 0, 0, 32, false, [(0, 0x20000, 0x20000, 0), (1, 0x20008, 0x20008, 0)]⟩ = [] ∧
    (flags 1).unmet ⟨0, 1, 3, 0, 0, 32, false, [(0, 0x20000, 0x20000, 1), (1, 0x20008, 0x20008, 0)]⟩ = [0] ∧
    Watch.over ⟨0, 1, 3, 0, 0, 32, false, []⟩ 0 = false ∧
    (∀ x ∈ [0, 1], ((watching x false).thread 0).watch = some (watch0 x false, true) ∧ (watching x false).thr.held = false ∧
      (watching x false).portHeld 0 = false ∧ (watching x false).partsHeld 0 (watch0 x false).spans = false ∧
      val? ((watch0 x false).translate (watching x false)) = some (watch0 x false) ∧ (watching x false).badWord 0 0x20000 4 = none) ∧
    (watching 1 false).unmet (watch0 1 false) = [] ∧ (watching 0 false).unmet (watch0 0 false) = [0] ∧ (watch0 1 false).over 10 = true := by
  simp only [ready_iff, State.vectorReady]; decide +kernel

/-- An announced access of each kind whose window is over: window 1, clk 56. -/
def ranked (k : ScKind) : State := { base with clk := 56, scq := [⟨3, 0, 1, 0, 0x20000, 0, 4, 6, k⟩] }
theorem witness_RankedAccesses :
    ∀ k ∈ [ScKind.store 5 false, .store 5 true, .load true, .amo 0 1 0 false, .done],
      firstSc (ranked k).scq = some ⟨3, 0, 1, 0, 0x20000, 0, 4, 6, k⟩ ∧ 8 * 1 + 48 ≤ (ranked k).clk ∧
      (ranked k).partsHeld 0 [⟨0x20000, 0, 4⟩] = false := by decide +kernel

/-- A pending result, a dirty STRM byte, an atomic that leads its home's queue, and a TIMEWAIT whose time has come. -/
theorem witness_MachineSteps :
    (let s := user (fun t => { t with pend := [.vals [(3, 41)]] })
     (s.thread 0).pend[0]? = some (.vals [(3, 41)]) ∧ s.landable 0 (.vals [(3, 41)]) = true) ∧
    (let s := base.setCore 0 { Core.fresh with strm := [(0x20000, 1)] }
     (s.core 0).strm = [(0x20000, 1)] ∧ s.homeDown 0x20000 1 = false ∧ s.amoq = []) ∧
    (let r : AmoReq := { id := 7, slot := 0, core := 0, pa := 0x20000, attr := 0, n := 8, d := 6, kind := .claim 3 }
     let s : State := { base with amoq := [r], homes := [(0x800, [2 ^ 32 + 7])] }
     s.amoq.find? (fun r => r.core == 0 && s.amoReady r) = some r) ∧
    (let s := { user (fun t => { t with timewait := some 2 }) with gtime := 6 }
     (s.thread 0).timewait = some 2 ∧ (s.thread 0).held = false ∧ (2 : Word).toNat + 4 ≤ s.podTime) := by decide +kernel

/-- A core with two writes of h registers, the second still settling. -/
def core0 : Core := { Core.fresh with hw := [⟨3, 0, 7⟩, ⟨9, 1, 8⟩] }

/-- h registers beside g registers; MFS and MTS of a user thread and of a Spring slot at the ends of their ranges. -/
theorem witness_SpecialRegisterResults :
    (base.Ready false [4] ∧ base.Ready false ([24, 4].filter (fun r => r < 24)) ∧ core0.InOrder 9 ∧ (9 : Nat) ≤ 17) ∧
    (base.Ready false [] ∧ base.vectorReady ∧ isSpring (spring id).cur = true ∧ isSpring base.cur = false) ∧
    ((0x800 : Nat) ≤ 0xFFF ∧ cregKnown 0x7FF = false ∧ (∃ c ∈ [0x020, 0x02A], cregKnown c = true)) := by
  simp only [ready_iff, State.vectorReady, Core.InOrder]
  refine ⟨⟨by decide +kernel, by decide +kernel, ⟨by simp [core0], by decide⟩, by decide⟩, ?_, ?_⟩ <;> decide +kernel

/-- A user slot with a free ring place and with none, with and without a lease region; a Spring slot. -/
theorem witness_TrapEntry :
    isSpring 0 = false ∧ isSpring 32767 = false ∧ isSpring 32768 = true ∧ (base.cluster 0).nextPlace ∉ (base.cluster 0).ring ∧
    (base.cluster 0).waitRecs = [] ∧ (base.landAll 0 |>.thread 0).pend = [] ∧
    (let s := base.setCluster 0 { Cluster.fresh with ring := [0] }
     (s.cluster 0).nextPlace ∈ (s.cluster 0).ring) := by decide +kernel

/-- A word that decodes to nothing with and without W; a PC at the windows, on an absent page and on a page without X; a user
slot; a misaligned target. -/
theorem witness_TrapInstructions :
    base.Ready false [4] ∧ (0 : BitVec 32).getLsbD 31 = false ∧ base.Ready true [] ∧
    winBase ≤ (user (fun t => { t with pc := 0x01FFFF0000000000 })).thr.pc.toNat ∧ base.thr.pc.toNat < winBase ∧
    base.walkFor 0 .fetch 0x80000000 = .park ∧
    ({ base with mem := memPut base.mem 0x3000 8 0x8F } : State).walkFor 0 .fetch 0x10000 = .denied ∧ isSpring base.cur = false ∧
    ((user (fun t => t.setG 4 2)).thr.getG 4).toNat % 4 ≠ 0 := by
  simp only [ready_iff]; decide +kernel

/-- A waiting launch of priority 1 in queue 0 of partition 0. -/
def queued : State :=
  let s := { base with launches := base.launches.set 1 { oneThreadLaunch with num := 9, prio := 1 } }
  s.setPart 0 { s.part 0 with queues := [(0, { HQueue.disabled with state := 1, prio := 1, waiting := some ⟨0, 0, some 1⟩ })] }

/-- No launch waits, and one of a higher priority does; HALT of a user thread and of a Spring slot; TIMEWAIT at the edges of its
time; a lease region. -/
theorem witness_ThreadControlResults :
    base.Ready false [4] ∧ base.thr.region = none ∧ base.launchOf base.thr = base.launches.get? 0 ∧ base.thr.launch = some 0 ∧
    (∀ l ∈ base.launches, base.waitingAbove base.thr.part l.2.prio = none) ∧ (queued.launchOf queued.thr).map Launch.prio = some 0 ∧
    queued.thr.region = none ∧ queued.waitingAbove queued.thr.part 0 = some 9 ∧ queued.ownsAcc queued.cur = false ∧
    isSpring base.cur = false ∧ base.thr.lease = none ∧ base.thr.vq = [] ∧ base.unperformed base.cur = false ∧
    (let s := spring id
     isSpring s.cur = true ∧ s.Ready false [4] ∧ s.thr.region = none ∧ s.thr.vq = [] ∧ s.unperformed s.cur = false) ∧
    ({ regs 4 6 5 0 with gtime := 10 }.thr.getG 4).toNat + 4 ≤ { regs 4 6 5 0 with gtime := 10 }.podTime ∧
    ({ regs 4 6 5 0 with gtime := 5 }).podTime < ((regs 4 6 5 0).thr.getG 4).toNat ∧
    (leased 4).Ready false [4] ∧ (leased 4).thr.region.isSome = true ∧ (leased 4).thr.vq = [] := by
  simp only [ready_iff]; decide +kernel

/-- A user thread of cluster 0 in a state, seen from a Spring slot with its slot id in g4 and a value in g5. -/
def seen (f : Thread → Thread) (x y : Word) : State :=
  let s := spring (fun t => (t.setG 4 x).setG 5 y)
  s.setThread 0 (f (s.thread 0))

/-- A thread parked by a trap whose serial matches, with its code and without, one whose serial differs, one that is not parked;
a slot id outside; a park; agents; and an address that is not a multiple of 4. -/
theorem witness_ResumeResults :
    (let s := seen (fun t => { t with st := .parkedTrap, serial := 1 }) 0x100000000 0x10004
     s.Ready false [4, 5] ∧ isSpring s.cur = true ∧ sidCheck s 0x100000000 = .ok () ∧ (s.thread 0).st = .parkedTrap ∧ (s.thread 0).saving = false ∧
       (s.thread 0).serial = (0x100000000#64).extractLsb' 32 32 ∧ (s.thread 0).gone = false ∧ (0x10004#64).toNat % 4 = 0) ∧
    (let s := seen (fun t => { t with st := .parkedTrap, serial := 1, gone := true }) 0x100000000 0x10004
     s.Ready false [4, 5] ∧ (s.thread 0).gone = true ∧ (s.thread 0).st = .parkedTrap ∧ (s.thread 0).saving = false) ∧
    (let s := seen (fun t => { t with st := .parkedTrap, serial := 1, saving := true }) 0x100000000 0x10004
     s.Ready false [4, 5] ∧ (s.thread 0).saving = true) ∧
    (let s := seen id 0 0x10002
     s.Ready false [4, 5] ∧ sidCheck s 0 = .ok () ∧ (s.thread 0).st ≠ .parkedTrap ∧ (0x10002#64).toNat % 4 ≠ 0 ∧
       val? (sidCheck s 0x200) = none ∧ (0x200#64).getLsbD 31 = false) ∧
    (let s := seen (fun t => { t with st := .parkedPage }) 0 0
     s.Ready false [4, 5] ∧ sidCheck s 0 = .ok () ∧ (s.thread 0).st = .parkedPage) ∧
    (let s := seen id 0x80000001 0
     s.Ready false [4, 5] ∧ (0x80000001#64).getLsbD 31 = true ∧ (0x80000001#64).toNat % 64 = 1 ∧
       bitsOf (0x80000001#64).toNat 15 7 = s.dev.pkg.toNat ∧ sidCheck s 0x80000003 = .ok ()) := by
  simp only [ready_iff]
  and_intros <;> first
    | decide +kernel
    | exact of_val (by decide +kernel)

/-- TLBINV of page 0x20000 and of the own partition, free and busy, one that is not legal and one of another partition; SLOTCTL
of each operation on a thread, and on a core. -/
theorem witness_SteeringResults :
    (let s := seen id 0 0
     s.Ready false [4, 5] ∧ isSpring s.cur = true ∧ sidCheck s 0 = .ok () ∧ (0#64).getLsbD 22 = false ∧ (s.thread 0).st ≠ .empty ∧
       s.tlbBusy 0 (fun _ => true) = false ∧ s.flushPartHeld 0 = false ∧ s.poolOk 0 0x804010 = true ∧ s.poolHeld 0 0x804010 = false ∧
       (0x400000#64).getLsbD 22 = true) ∧
    (let s := (seen id 0 0).setCore 0 { Core.fresh with strm := [(0x20000, 1)] }
     (s.setDie 0 { s.die 0 with inReset := true }).flushPartHeld 0 = true) ∧
    (let e : Entry := ⟨7, (some 0, 0), 0, 0, 3, .march ⟨2, 1, 0, 0, 1, 4, false, 0, [0x20], [], true, []⟩, 0, false⟩
     { seen id 0 0 with entries := [e] }.tlbBusy 0 (fun _ => true) = true) ∧
    ¬ ((0x1000000 : Nat) / 2 ^ 24 = 0) ∧ (0x10000 / 2 ^ 16 % 256 ≠ 0) ∧ 0 / 2 ^ 24 = 0 ∧ 4 < 5 % 16 ∧
    (∀ v ∈ [0, 1, 2, 3, 4], v % 16 ≤ 4) := by
  simp only [ready_iff]
  and_intros <;> first
    | decide +kernel
    | exact of_val (by decide +kernel)

/-- CTXSAVE of an EMPTY slot, of a running thread with keep and without, at its boundary, with a result that is still to come, and
to an absent page; CTXLOAD to a taken slot, to an EMPTY one from an absent page, from a block of zeros, and from a good one whose
launch is known. -/
theorem witness_ContextResults :
    (let s := seen id 0 0x20001
     s.Ready false [4, 5] ∧ isSpring s.cur = true ∧ sidCheck s 0 = .ok () ∧ sidCheck s 1 = .ok () ∧ (s.thread 1).st = .empty ∧
       (s.thread 0).st = .running ∧ (0x20001#64).getLsbD 0 = true ∧ (0x20000#64).getLsbD 0 = false) ∧
    (let s := seen id 0 0x20000
     let u := ((s.holdAll true (s.saveSet 0)).settle 0).settleGang 0
     s.saveSet 0 = [0] ∧ s.ownsAcc 0 = false ∧ u.portHeld u.cur = false ∧ u.thr.memQueued = false ∧ u.saveWaits [0] = false ∧ (blockParts u .store 0x20000 (blockLen 8 false)).isSome = true ∧
       (blockParts u .store 0x80000000 (blockLen 8 false)).isNone = true ∧
       ((blockParts u .store 0x20000 (blockLen 8 false)).any (fun sp => u.partsHeld u.cur sp)) = false) ∧
    (let s := seen (fun t => { t with pend := [.sc 3 [5]] }) 0 0x20000
     (((s.holdAll true [0]).settle 0).settleGang 0).saveWaits [0] = true) ∧
    (let s := (spring (fun t => t.setG 5 0x20000)).write none 0x20000 8 0x0000000101435458
     s.Ready false [4, 5] ∧ (s.thread 0).st ≠ .empty ∧ (s.thread 1).st = .empty ∧ (blockParts s .load 0x20000 0x1400).isSome = true ∧
       s.portHeld s.cur = false ∧ s.thr.memQueued = false ∧
       ((blockParts s .load 0x20000 0x1400).any (fun sp => s.partsHeld s.cur sp)) = false ∧
       (s.place1 1 0 false (memNat s.mem 0x20000 0x1800) []).isSome = true ∧
       (blockParts s .load 0x80000000 0x1400).isNone = true ∧
       (readBlock s 0x20000 0x1400).any (fun e => bitAt (fieldOf e.1 0x1C 4) 0 == false) = true ∧
       (readBlock s 0x30000 0x1800).any (fun e => blockOk e.1 == false) = true ∧
       s.launchNumbered 0 0 = some 0 ∧ s.launchNumbered 0 9 = none ∧ s.coreTakes 0 0 8 = true ∧ s.coreTakes 0 1 8 = false) := by
  simp only [ready_iff]
  and_intros <;> first
    | decide +kernel
    | exact of_val (by decide +kernel)

/-- A block that is well formed: what the save of a thread writes. -/
theorem witness_saved_block : blockOk (blockBytes base 0 false) = true := by decide +kernel

theorem witness_ContextBlockRoundTrip : (base.thread 0).budget ∈ [8, 16, 32, 64] ∧ (0 : Nat) < 7 ∧ (31 : Nat) < 32 ∧
    (seen (fun t => { t with st := .parkedTrap }) 0 0 |>.thread 0).st = .parkedTrap := by decide +kernel

/-! ### Vector statements -/

/-- Eight registers v0 to v7 of one tag, c.vl and a mask m2 of its even elements. -/
def vec (f : BitVec 5) (g : BitVec 2) (vl : BitVec 12) : State :=
  user (fun t => { t with
    v := (List.range 8).map (fun r => (r, ⟨BitVec.ofNat 1024 (0x01020304 + r), f, g⟩)),
    m := [(2, ⟨false, 0x55555555, 0, 0⟩)], vl := vl })

theorem sound_of {t : State} {m e : Nat} {rs : List ERead}
    (h : (t.thr.maskPoisoned m e t.thr.vl.toNat t.thr.vstart.toNat || rs.any (fun r => t.thr.elemPoisoned r.r r.i r.w)) = false) :
    t.Sound m e rs := by
  simp only [Bool.or_eq_false_iff, List.any_eq_false, Bool.not_eq_true] at h
  exact h

theorem vec_ready_iff (s : State) (w : Bool) (rs : List Nat) : s.VecReady w rs ↔ s.Ready w rs ∧
    (pendingOf (s.afterW w).thr.pend codeVl = none ∧ pendingOf (s.afterW w).thr.pend codeVstart = none) ∧
    (∀ p ∈ (s.afterW w).thr.pend, p.isVec = false) ∧ (s.afterW w).startsNow = true := Iff.rfl

/-- All 32 elements of an S32 register, under m0 and under m2; a widening from S16 into a group of two. -/
theorem witness_VectorIntegerResults :
    ((vec 5 0 32).VecReady false [4] ∧ sameForm (vec 5 0 32) 32 fmtIsInt 2 [0, 1] = .ok () ∧
      (vec 5 0 32).Sound 2 32 ((vec 5 0 32).active 2 32 32 |>.flatMap (fun j => [⟨0, j, 32⟩, ⟨1, j, 32⟩, ⟨2, j, 32⟩])) ∧
      (∃ f, ((0x05 : BitVec 6), true, f) ∈ vecIntTable 32)) ∧
    (let s := user (fun t => { (((t.setV 0 ⟨1, 3, 0⟩).setV 1 ⟨2, 3, 0⟩).setV 2 ⟨0, 5, 1⟩).setV 3 ⟨0, 5, 1⟩ with vl := 64 })
     s.VecReady false [4] ∧ wideForm s 64 2 0 [1] = .ok () ∧ s.Sound 0 64 []) := by
  simp only [vec_ready_iff, ready_iff]
  exact ⟨⟨by decide +kernel, of_val (by decide +kernel), sound_of (by decide +kernel), _, by
    simp only [vecIntTable]; exact .tail _ (.tail _ (.tail _ (.tail _ (.tail _ (.head _)))))⟩,
    by decide +kernel, of_val (by decide +kernel), sound_of (by decide +kernel)⟩

/-- Integer and floating-point compares, with a register and with g4. -/
theorem witness_VectorCompareResults :
    (7 : BitVec 5).toNat = (7 : BitVec 3).toNat ∧ (vec 5 0 32).VecReady false [4] ∧
    sameForm (vec 5 0 32) 32 fmtIsInt 0 [1] = .ok () ∧ sameForm (vec 0x0B 0 32) 32 fmtIsFloat 0 [] = .ok () ∧
    (vec 5 0 32).Sound 2 32 (((vec 5 0 32).active 2 32 32).flatMap (fun j => [⟨0, j, 32⟩, ⟨1, j, 32⟩])) := by
  simp only [vec_ready_iff, ready_iff]
  and_intros <;> first
    | decide +kernel
    | exact of_val (by decide +kernel)

/-- FP32 operations of three registers and of one; VFCLASS from FP32 into N32. -/
theorem witness_VectorFloatResults :
    (vec 0x0B 0 32).VecReady false [4] ∧ sameForm (vec 0x0B 0 32) 32 fmtIsFloat 2 [0, 1] = .ok () ∧
    sameForm (vec 0x0B 0 32) 32 fmtIsFloat 2 [0] = .ok () ∧
    (vec 0x0B 0 32).Sound 0 32 (((vec 0x0B 0 32).active 0 32 32).flatMap (fun j => [⟨0, j, 32⟩, ⟨1, j, 32⟩, ⟨2, j, 32⟩])) ∧
    (let s := (vec 0x0B 0 32).putThr ((vec 0x0B 0 32).thr.setV 2 ⟨0, 0x06, 0⟩)
     boundCheck s [2, 0] [] = .ok () ∧
     tagCheck s 32 [(2, fun x y => x == 0x06 && y == s.thr.grp 0), (0, fun x _ => fmtIsFloat x)] = .ok ()) := by
  simp only [vec_ready_iff, ready_iff]
  and_intros <;> first
    | decide +kernel
    | exact of_val (by decide +kernel)

/-- v0 to v3 a group of FP32, v4 of another format and group, v6 with its scales. -/
def conv (f : BitVec 5) (g : BitVec 2) (sc : BitVec 5) (vl : BitVec 12) : State :=
  user (fun t => { t with
    v := (List.range 4).map (fun r => (r, ⟨0, 0x0B, 2⟩)) ++ [(4, ⟨0, f, g⟩), (5, ⟨0, f, g⟩), (6, ⟨0, sc, 0⟩)], vl := vl })

/-- FP32 to S32, a saturating conversion, a block read with its scales, and a block written. -/
theorem witness_VectorConversionResults :
    (conv 0x0F 0 0x11 128).VecReady false [] ∧
    (let s := vec 0x0B 0 32
     let t := s.putThr (s.thr.setV 2 ⟨0, 5, 0⟩)
     cvtForm t 32 2 0 0 cvtFmt cvtFmt none = .ok () ∧ t.Sound 0 32 ((t.active 0 32 32).map (fun j => ⟨0, j, 32⟩))) ∧
    (let s := vec 5 0 32
     let t := s.putThr ((s.thr.setV 2 ⟨0, 3, 0⟩).setV 0 ⟨0, 5, 1⟩)
     cvtForm t 32 2 0 0 fmtIsInt fmtIsInt none = .ok ()) ∧
    cvtForm (conv 0x0F 0 0x11 128) 128 0 4 0 fmtIsFloat blockFmt (some (6, 0x11, 0)) = .ok () ∧
    (128 % 32 = 0 ∧ cvtForm (conv 0x0F 0 0x11 128) 128 4 0 0 blockFmt fmtIsFloat (some (6, 0x11, 0)) = .ok () ∧
      (∀ j ∈ List.range 128, (conv 0x0F 0 0x11 128).thr.elemPoisoned 0 j 32 = false) ∧
      ¬ (4 ≤ 6 ∧ 6 < 4 + (conv 0x0F 0 0x11 128).thr.grp 4)) := by
  simp only [vec_ready_iff, ready_iff]
  and_intros <;> first
    | decide +kernel
    | exact of_val (by decide +kernel)

/-- A move of 32 elements; indices in v1 as N32; groups that do not overlap; and the moves of one element or register. -/
theorem witness_VectorDataMovement :
    (let s := (vec 5 0 32).putThr ((vec 5 0 32).thr.setV 1 ⟨0x1F, 6, 0⟩)
     s.VecReady false [4] ∧ sameForm s 32 (fun _ => true) 2 [0] = .ok () ∧ sameForm s 32 (fun _ => true) 2 [] = .ok () ∧
     boundCheck s [2, 0, 1] [] = .ok () ∧
     tagCheck s 32 [(2, fun _ _ => !overlaps 2 (s.thr.grp 2) 1 (s.thr.grp 1)), (0, fun x y => x == s.thr.fmt 2 && y == s.thr.grp 2),
       (1, fun x _ => fmtIsInt x && x % 2 == 0)] = .ok () ∧
     tagCheck s 32 [(2, fun _ _ => !overlaps 2 (s.thr.grp 2) 0 (s.thr.grp 0)), (0, fun x y => x == s.thr.fmt 2 && y == s.thr.grp 2)] = .ok () ∧
     s.Sound 2 32 ((s.active 2 32 32).map (fun j => ⟨0, j, 32⟩)) ∧ s.thr.vstart = 0 ∧ s.thr.maskPoisoned 2 32 32 0 = false) ∧
    ((vec 5 0 32).Ready false [] ∧ 7 + 2 ^ 0 ≤ (vec 5 0 32).thr.budget ∧ (vec 5 0 32).thr.budget < 6 + 2 ^ 2 ∧ (vec 5 0 32).readable 4 ∧
      (vec 5 0 32).readable 5 ∧ 7 < (vec 5 0 32).thr.budget ∧ (vec 5 0 32).thr.ew 7 ≠ 0 ∧
      (vec 5 0 32).thr.fmt 7 ≠ 0 ∧ sameForm (vec 5 0 32) 0 (fun _ => true) 7 [] = .ok () ∧ (vec 5 0 32).thr.elemPoisoned 7 31 32 = false ∧
      (0 : Int) ≤ ((vec 5 0 32).thr.getG 4).toInt + 7 ∧ ((vec 5 0 32).thr.getG 4).toInt + 7 < 8 ∧
      ((8 : Int) ≤ ((vec 5 0 32).thr.getG 4).toInt + 8)) := by
  simp only [vec_ready_iff, ready_iff, State.readable]
  and_intros <;> first
    | decide +kernel
    | exact of_val (by decide +kernel)

theorem witness_ScanAndReductionResults :
    (vec 5 0 32).VecReady false [4] ∧ (vec 5 0 32).Sound 2 32 (((vec 5 0 32).active 2 32 32).map (fun j => ⟨0, j, 32⟩)) ∧
    sameForm (vec 5 0 32) 32 fmtIsInt 2 [0] = .ok () ∧ sameForm (vec 0x0B 0 32) 32 fmtIsFloat 2 [0] = .ok () ∧
    sameForm (vec 5 0 32) 32 fmtIsInt 0 [] = .ok () ∧ sameForm (vec 0x0B 0 32) 32 fmtIsFloat 0 [] = .ok () := by
  simp only [vec_ready_iff, ready_iff]
  and_intros <;> first
    | decide +kernel
    | exact of_val (by decide +kernel)

/-- The mask stack empty, full and in between; masks without poison; m0. -/
theorem witness_MaskResults :
    (vec 5 0 32).Ready false [] ∧ (vec 5 0 32).readable 4 ∧ (4 : BitVec 5).toNat ≤ 4 ∧ pendingOf (vec 5 0 32).thr.pend codeVl = none ∧
    (∀ p ∈ (vec 5 0 32).thr.poison, ¬ (0x20000 + 2 * 32 ≤ p ∧ p < 0x20000 + 2 * 32 + 32)) ∧ sameForm (vec 5 0 32) 32 fmtIsInt 0 [] = .ok () ∧
    (∀ j < min 32 1024, (vec 5 0 32).thr.elemPoisoned 0 j 32 = false) ∧
    16 ≤ (user (fun t => { t with mdepth := 16 })).thr.mdepth.toNat ∧ (vec 5 0 32).thr.mdepth = 0 ∧ (vec 5 0 32).thr.mdepth.toNat < 16 ∧
    (user (fun t => { t with mdepth := 1 })).thr.mdepth ≠ 0 ∧ (∀ p ∈ (user (fun t => { t with mdepth := 1 })).thr.poison, ¬ (0x30000 ≤ p ∧ p < 0x30020)) := by
  simp only [ready_iff, State.readable]
  and_intros <;> first
    | decide +kernel
    | exact of_val (by decide +kernel)

/-- v0 and v2 data of S32, v1 indices of N32 (0, 4, 8, …, as bytes), g4 a base address and g5 a stride. -/
def vmem (x : Word) (vl : BitVec 12) : State :=
  user (fun t => { (t.setG 4 x).setG 5 4 with
    v := [(0, ⟨7, 5, 0⟩), (1, ⟨0x0000000800000004#1024 <<< 32, 6, 0⟩), (2, ⟨9, 5, 0⟩)], vl := vl })

/-- The parts of the first n words from 0x20000. -/
def words (n : Nat) : List (Nat × Span) := (List.range n).map (fun j => (j, ⟨0x20000 + 4 * j, 0, 4⟩))

/-- Unit-stride and indexed accesses of 3 elements; the first address past the mapped pages, in a window without a grant,
misaligned, and a second element that fails there. -/
theorem witness_VectorLoadStoreResults :
    (let s := vmem 0x20000 3
     let rule : ElemRule := ⟨.load, false, true⟩
     s.VecReady false [4, 5] ∧ boundCheck s [2, 1] [] = .ok () ∧ tagCheck s 3 [(2, fun f _ => fmtWidth f ≥ 8)] = .ok () ∧
     tagCheck s 3 [(1, fun f _ => 5 ≤ f && f ≤ 8)] = .ok () ∧ s.thr.lease = none ∧ s.Sound 0 32 [⟨1, 0, 32⟩, ⟨1, 1, 32⟩, ⟨1, 2, 32⟩] ∧
     runAhead (fun j => checkElem s 0 rule (0x20000 + 4 * j) 4 false) [0, 1, 2] = (words 3, none) ∧ vecHeld s (words 3) = false ∧
     runAhead (fun j => checkElem s 0 rule (0x3FFFFFFC + 4 * j) 4 false) [0, 1] = ([(0, ⟨0x3FFFFFFC, 0, 4⟩)], some (1, .park 0x40000000)) ∧
     runAhead (fun j => checkElem s 0 rule (winBase - 4 + 4 * j) 4 false) [1] = ([], some (1, .scratch)) ∧
     runAhead (fun j => checkElem s 0 rule (0x20002 + 4 * j) 4 false) [0] = ([], some (0, .trap 0x07 none)) ∧ vecHeld s [] = false) ∧
    (32 ∣ 1024 ∧ ((words 3).map Prod.fst).Nodup ∧ (∀ e ∈ words 3, base.isReg e.2.pa e.2.attr = false) ∧ base.ownLease 0 0x20000 = none ∧
      base.poisonedAt 0x20000 4 = false ∧ ({ base with poison := [0x20000] } : State).poisonedAt 0x20000 4 = true) ∧
    (2 ^ 57 < (2 ^ 57 - 3) + 4 ∧ (winBase < winBase - 3 + 4 ∧ base.window 0 (winBase - 3) 4 = none) ∧ (winBase - 4) + 4 ≤ winBase ∧
      (winBase - 6) % 4 ≠ 0 ∧ base.walkFor 0 .load 0x80000000 = .park ∧ base.walkFor 0 .load 0x20000 = .ok 0x20000 0 ∧
      (State.reset.withFetchWord 32 0).walkFor 0 .store 0x20000 = .denied) := by
  simp only [vec_ready_iff, ready_iff]
  and_intros <;> first
    | decide +kernel
    | exact of_val (by decide +kernel)

/-- GLD and SCS of 3 words of one line, linked; SCS with an absent page; a vector atomic on the same words. -/
theorem witness_VectorLinkedAndAtomicResults :
    (let s := vmem 0x20000 3
     s.VecReady false [4] ∧ boundCheck s [2, 1] [] = .ok () ∧
     tagCheck s 3 [(2, fun f _ => [0x05, 0x06, 0x07, 0x08, 0x0B, 0x0C].contains f), (1, fun f _ => 5 ≤ f && f ≤ 8)] = .ok () ∧
     tagCheck s 3 [(2, fun f _ => 5 ≤ f && f ≤ 8), (1, fun f _ => 5 ≤ f && f ≤ 8)] = .ok () ∧ s.thr.lease = none ∧
     s.Sound 0 32 [⟨1, 0, 32⟩, ⟨1, 1, 32⟩, ⟨1, 2, 32⟩] ∧
     s.Sound 0 32 [⟨1, 0, 32⟩, ⟨1, 1, 32⟩, ⟨1, 2, 32⟩, ⟨2, 0, 32⟩, ⟨2, 1, 32⟩, ⟨2, 2, 32⟩] ∧ s.thr.dbg.getLsbD 1 = false ∧
     runAhead (fun j => checkElem s 0 ⟨.load, true, true⟩ (0x20000 + 4 * j) 4 false) [0, 1, 2] = (words 3, none) ∧
     linkRoom (words 3) [] = (words 3, none) ∧ vecHeld s (words 3) = false ∧
     runAhead (fun j => checkElem s 0 ⟨.store, true, true⟩ (0x20000 + 4 * j) 4 false) [0, 1, 2] = (words 3, none) ∧
     runAhead (fun j => checkElem s 0 ⟨.store, true, true⟩ (0x80000000 + 4 * j) 4 false) [0] = ([], some (0, .park 0x80000000)) ∧
     runAhead (fun j => checkElem s 0 ⟨.store, true, true⟩ (0x20002 + 4 * j) 4 false) [0] = ([], some (0, .trap 0x07 none)) ∧
     runAhead (fun j => checkElem s 0 ⟨.update, false, true⟩ (0x20000 + 4 * j) 4 false) [0, 1, 2] = (words 3, none) ∧
     ∀ e ∈ words 3, s.queuedBehind 0 (lineOf e.2.pa) = false ∧ s.poisonedAt e.2.pa e.2.n = false) := by
  simp only [vec_ready_iff, ready_iff]
  and_intros <;> first
    | decide +kernel
    | exact of_val (by decide +kernel)

theorem readRecord_of {s : State} {va n x : Nat} {l : List (Nat × Nat)} {sp : List Span} (h₁ : s.portHeld s.cur = false)
    (h₂ : s.resolve s.cur .load false va n = .ok sp)
    (h₃ : s.partsHeld s.cur sp = false ∧ s.badIn s.cur sp l = none ∧ s.loadParts s.cur sp = x) (c : VCmd) :
    readRecord s c va n l = .ok x := by
  simp only [readRecord, h₁, h₂, h₃]; rfl

/-- A record that lies in one page of the state is read. -/
theorem readRecord_at {s : State} {va n x : Nat} {l : List (Nat × Nat)} (pa : Nat)
    (h : s.portHeld s.cur = false ∧ val? (s.resolve s.cur .load false va n) = some [⟨pa, 0, n⟩] ∧
      s.partsHeld s.cur [⟨pa, 0, n⟩] = false ∧ s.badIn s.cur [⟨pa, 0, n⟩] l = none ∧ s.loadParts s.cur [⟨pa, 0, n⟩] = x) (c : VCmd) :
    readRecord s c va n l = .ok x :=
  readRecord_of h.1 (of_val h.2.1) h.2.2 c

/-- v0 to v3 texel results, v4 to v7 coordinates, each a group of four FP32 registers; a texture descriptor of 2 × 2 RGBA8 texels
at 0x21000 lies at 0x20000. -/
def texels : State :=
  let s := user (fun t => { t.setG 4 0x20000 with v := (List.range 8).map (fun r => (r, ⟨0, 0x0B, 2⟩)), vl := 2 })
  s.write none 0x20000 16 (0x21000 + 2 ^ 64 * (1 + 2 ^ 16))

theorem witness_TextureResults :
    texels.VecReady false [4] ∧ boundCheck texels [0, 4] [] = .ok () ∧
    tagCheck texels 0 [(0, fun f g => f == 0x0B && g == 4), (4, fun f g => f == 0x0B && g == 4)] = .ok () ∧ texels.thr.vl.toNat ≤ 32 ∧
    texels.thr.region = none ∧ (0x20000#64).toNat % 64 = 0 ∧ (0x20010#64).toNat % 64 ≠ 0 ∧
    (∀ c, readRecord texels c 0x20000 64 [(0, 64)] = .ok (memNat texels.mem 0x20000 64)) ∧
    descCheck texels (textureChecks (memNat texels.mem 0x20000 64)) = .ok () ∧
    texels.Sound 0 32 ([0, 1].flatMap (fun i => [⟨4, i, 32⟩, ⟨4, 32 + i, 32⟩, ⟨4, 64 + i, 32⟩])) ∧
    (let tex := texture (memNat texels.mem 0x20000 64)
     let z := Val.zero false
     (texelAhead texels tex.texel (fun _ => (sampleTexels tex 1 z z z).1.map Prod.fst) [0, 1]).2 = none ∧
     ((texelAhead texels tex.texel (fun _ => (sampleTexels tex 1 z z z).1.map Prod.fst) [0, 1]).1.map
       (fun e => e.2.length)) = [4, 4]) ∧
    (Val.nan).bad = true ∧ (0 : Nat) < 4 := by
  simp only [vec_ready_iff, ready_iff]
  and_intros <;> first
    | decide +kernel
    | exact of_val (by decide +kernel)
    | exact sound_of (by decide +kernel)
    | exact readRecord_at 0x20000 (by decide +kernel)

/-- A ray group in v8 to v15, v0 for BOXTEST, v4 a group of four for TRITEST, v1 stream entries; a traversal descriptor of one node
at 0x21000, one triangle at 0x22000 and 8 stream entries at 0x23000 lies at 0x20000. -/
def rays (y : Word) : State :=
  let s := user (fun t => { (t.setG 4 0x20000).setG 5 y with
    budget := 16, vl := 2,
    v := (List.range 8).map (fun r => (r + 8, ⟨0x3F800000, 0x0B, 3⟩)) ++ (List.range 4).map (fun r => (r + 4, ⟨0, 0x0B, 2⟩)) ++
      [(0, ⟨0, 0x0B, 0⟩), (1, ⟨0x0000000100000000, 0x06, 0⟩)] })
  s.write none 0x20000 64 (0x21000 + 2 ^ 64 + 2 ^ 128 * 0x22000 + 2 ^ 192 + 2 ^ 256 * 0x23000 + 2 ^ 320 * 8)

/-- Node 0 and triangle 0, and the first past each bound; cursors L 0 and H 8, and cursors in the wrong order. -/
theorem witness_TraversalResults :
    (rays 0).VecReady false [4, 5] ∧ (rays 0).thr.vl.toNat ≤ 32 ∧ (rays 0).thr.vstart = 0 ∧ (rays 0).thr.region = none ∧
    boundCheck (rays 0) [0, 8] [] = .ok () ∧ boundCheck (rays 0) [4, 8] [] = .ok () ∧
    (∀ c, readRecord (rays 0) c 0x20000 64 [(0, 64)] = .ok (memNat (rays 0).mem 0x20000 64)) ∧
    descCheck (rays 0) (traversalChecks (memNat (rays 0).mem 0x20000 64)) = .ok () ∧ (rays 0).thr.maskPoisoned 2 32 2 0 = false ∧
    (∀ i ∈ [0, 1], ∀ k < 8, (rays 0).thr.elemPoisoned 8 (32 * k + i) 32 = false) ∧
    tagCheck (rays 0) 0 [(0, fun f g => f == 0x0B && g == 1 && !overlaps 0 1 8 8), (8, fun f g => f == 0x0B && g == 8)] = .ok () ∧
    tagCheck (rays 0) 0 [(4, fun f g => f == 0x0B && g == 4 && !overlaps 4 4 8 8), (8, fun f g => f == 0x0B && g == 8)] = .ok () ∧
    (fieldOf (memNat (rays 0).mem 0x20000 64) 8 4 = 1 ∧ fieldOf (memNat (rays 0).mem 0x20000 64) 0x18 4 = 1 ∧ 0 < 1 ∧ 1 ≤ 1) ∧
    (∀ c, readRecord (rays 0) c 0x21000 32 [(0, 12), (16, 12)] = .ok 0) ∧ (∀ c, readRecord (rays 0) c 0x22000 64 [(0, 36)] = .ok 0) ∧
    (let s := rays 0x800000000
     s.VecReady false [4, 5] ∧ boundCheck s [1] [] = .ok () ∧ tagCheck s 0 [(1, fun f g => f == 0x06 && g == 1)] = .ok () ∧
     (∀ i < 2, s.thr.elemPoisoned 1 i 32 = false) ∧ fieldOf (memNat s.mem 0x20000 64) 0x28 4 = 8 ∧
     runAhead (fun i => checkElem s 0 ⟨.store, false, true⟩ (0x23000 + 4 * (7 - i)) 4 false) [0, 1] =
       ([(0, ⟨0x2301C, 0, 4⟩), (1, ⟨0x23018, 0, 4⟩)], none) ∧ vecHeld s [(0, ⟨0x2301C, 0, 4⟩), (1, ⟨0x23018, 0, 4⟩)] = false) ∧
    (0x000000020#64).toNat % 2 ^ 32 > (0x20#64).toNat / 2 ^ 32 := by
  simp only [vec_ready_iff, ready_iff]
  and_intros <;> first
    | decide +kernel
    | exact of_val (by decide +kernel)
    | exact sound_of (by decide +kernel)
    | exact readRecord_at 0x20000 (by decide +kernel)
    | exact readRecord_at 0x21000 (by decide +kernel)
    | exact readRecord_at 0x22000 (by decide +kernel)

/-- A gang launch of four threads, in slot 0 of the cores of quad 0. -/
def gangLaunch : Launch :=
  { oneThreadLaunch with C := 4, gang := true, scr := 16, scrBase := [(0, 8)], cores := [0, 1, 2, 3], place := [(0, 0), (1, 16), (2, 32), (3, 48)] }

/-- The gang's threads, with a join unused or not, in the state `st`; v0 to v7 a group of FP32 and g4 and g5 values. -/
def gang (joined : Bool) (st : SlotState) (x y : Word) : State :=
  let t (i : Nat) : Thread := { (base.thr.setG 4 x).setG 5 y with
    joined := joined, st := st, tid := BitVec.ofNat 32 i, budget := 16, vl := 256,
    v := (List.range 8).map (fun r => (r, ⟨0, 0x0B, 3⟩)) ++ [(8, ⟨0, 0x0D, 1⟩), (9, ⟨0, 0x0D, 1⟩)] ++
      (List.range 4).map (fun r => (10 + r, ⟨0, 0x0D, 0⟩)) }
  { base with
    launches := [(0, gangLaunch)], threads := (List.range 4).map (fun i => (16 * i, t i)),
    cores := (List.range 4).map (fun c => (c, { Core.fresh with accOwner := some (0, 0) })) }

/-- The row numbers 63 and 64; an owner of the store and a thread that is not; MRD, MWR and MCVT at c.vl 256. -/
theorem witness_AccumulatorResults :
    (let s := gang false .running 0 63
     s.Ready false [] ∧ s.ownsAcc s.cur = true ∧ s.sliceFree s.cur 1 = true ∧ s.VecReady false [5] ∧ boundCheck s [0] [] = .ok () ∧
     (s.thr.getG 5).toNat < 64 ∧ (∀ j ∈ [0, 255], (s.core 0).accPoison.contains (accKey 1 63 j) = false) ∧
     tagCheck s 256 [(0, fun f n => f == 0x0B && n == 8)] = .ok () ∧ boundCheck s [8] [] = .ok () ∧
     tagCheck s 256 [(8, fun f n => ((f == 0x09 || f == 0x0A) && n == 4) || ((f == 0x0D || f == 0x0E) && n == 2) || (f == 0x0F && n == 1))] = .ok ()) ∧
    base.ownsAcc base.cur = false ∧ 64 ≤ ((gang false .running 0 64).thr.getG 5).toNat := by
  simp only [vec_ready_iff, ready_iff]
  and_intros <;> first
    | decide +kernel
    | exact of_val (by decide +kernel)

/-- An operation of 32 steps of a core, from registers and from scratch. -/
def part0 (src : Nat) : GangPart := ⟨false, 0, src, 0, 8, 0x8000, 0, 0x0D, 0x0D, 0x0A, 0, 0⟩

/-- The gang with all four operations captured, the step in the array and the clk at which it ends. -/
def running (step : Option Nat) (endAt clk : Nat) : State :=
  { (gang true .running 0 0).setQuad 0 { Gang.idle with parts := (List.range 4).map (fun c => (c, part0 1)), startAt := 4, step := step, endAt := endAt } with
    clk := clk }

/-- MGANG before a join, after it, and with a halted sibling; three threads arrived and a join due; an operation that may start, the
only K-step ended, with its thread held and an operand poisoned, and an operation past its last step. -/
theorem witness_GangResults :
    (let s := gang false .running 0 0
     s.Ready false [] ∧ s.ownsAcc s.cur = true ∧ s.thr.lease = none ∧ s.gangHalted s.cur = false ∧ s.thr.joined = false ∧
     (gang true .running 0 0).thr.joined = true ∧
     ({ s with launches := [(0, { gangLaunch with halted := [3] })] } : State).gangHalted s.cur = true) ∧
    (let s := { (gang false (.waiting .gang) 0 0).setQuad 0 { Gang.idle with arrived := [0, 16, 32, 48], joinAt := some 2 } with clk := 2 }
     (s.quad 0).joinAt = some 2 ∧ 2 ≤ s.clk ∧ (∀ k ∈ (s.quad 0).arrived, slotOf k = 0) ∧ (s.thread 48).st = .waiting .gang) ∧
    ((running none 0 4).quad 0).parts.length = 4 ∧ (running none 0 4).gangHeld 0 = false ∧ (∀ k ∈ (running none 0 4).gangKeys 0, (running none 0 4).sliceFree k 0 = true) ∧
    ((running (some 0) 36 36).quad 0).step = some 0 ∧ (running (some 0) 36 36).gangHeld 0 = false ∧
    (let s := running (some 0) 36 36
     (s.setThread 16 { s.thread 16 with held := true }).gangHeld 0 = true) ∧
    (∀ k ∈ (running (some 0) 36 36).gangKeys 0, isSpring k = false) ∧ ((running (some 1) 44 44).quad 0).step = some 1 ∧
    (((running (some 1) 44 44).quad 0).part 0).kc < 1 := by
  simp only [ready_iff]; decide +kernel

/-- Without poison a K-step meets none. -/
theorem stepPoison_clean {s : State} {k q : Nat} {p : GangPart} (h₁ : (s.thread k).poison = []) (h₂ : s.poison = [])
    (h₃ : (s.core (coreOf k)).accPoison = []) (h₆' : (s.core (coreOf k)).strm = []) (h₈ : (s.thread k).region = none) :
    stepPoison s k p q = none := by
  have h₄ : ∀ r i w, (s.thread k).elemPoisoned r i w = false := by simp [Thread.elemPoisoned, h₁]
  have h₅ : ∀ a n, s.badTval k a n = none := by
    simp only [State.badTval, State.firstBad, Option.map_eq_none_iff, List.find?_eq_none, Bool.not_eq_true]
    intro a n x _
    simp [State.byteBad, h₂, h₆', h₈, Tab.get?]
  have h₆ {α : Type} (l : List α) : l.find? (fun _ => false) = none := by simp
  have h₇ (l : List Nat) : l.find? [].contains = none := by simp [List.find?_eq_none]
  have h₉ {α β : Type} (l : List α) : l.findSome? (fun _ => (none : Option β)) = none := by simp
  simp only [stepPoison, h₃, h₄, h₅, h₆, h₇, h₉, Option.map_none]

/-- A K-step without poison, and one whose A operand is poisoned. -/
theorem witness_gang_poison :
    stepPoison (running (some 0) 36 36) 0 (part0 1) 0 = none ∧
    stepPoison { running (some 0) 36 36 with poison := [scratchAddr 0 0x8000] } 0 (part0 1) 0 ≠ none :=
  ⟨by apply stepPoison_clean <;> decide +kernel, by decide +kernel⟩

/-- MMA of 32 steps from scratch: with its join and without, with c.mstart past it, an address that is not a multiple of 64, one
outside the grant, a tag that does not fit, and the fourth operation with the same and with other parameters. -/
theorem witness_MatrixIssueResults :
    (let s := gang true .running 0x8000 0x8800
     s.Ready false [4, 5] ∧ s.ownsAcc s.cur = true ∧ s.thr.region = none ∧ s.unperformed s.cur = false ∧ s.thr.vq = [] ∧
     (∀ e ∈ s.thr.pend, e.isVec = false) ∧ s.thr.mstart.toNat ≤ 0 ∧ s.thr.joined = true ∧
     boundCheck s [] [] = .ok () ∧ mmaTag s.thr ⟨false, 0, 1, 0, 0x8000, 0x8800, 0, 0x0D, 0x0D, 0x0A, 0, 0⟩ = none ∧
     (∀ e ∈ GangPart.ranges ⟨false, 0, 1, 0, 0x8000, 0x8800, 0, 0x0D, 0x0D, 0x0A, 0, 0⟩, e.1 % 64 = 0) ∧
     outsideGrant (s.scratchGrant s.cur) (GangPart.ranges ⟨false, 0, 1, 0, 0x8000, 0x8800, 0, 0x0D, 0x0D, 0x0A, 0, 0⟩) = none ∧
     mmaTag s.thr ⟨true, 0, 0, 0, 0, 0x8800, 0, 0x0D, 0x0D, 0x0A, 0, 0⟩ = some 0 ∧
     outsideGrant (s.scratchGrant s.cur) (GangPart.ranges ⟨false, 0, 1, 0, 0, 0x8800, 0, 0x0D, 0x0D, 0x0A, 0, 0⟩) = some 0 ∧
     (GangPart.ranges ⟨false, 0, 1, 0, 0x8020, 0x8800, 0, 0x0D, 0x0D, 0x0A, 0, 0⟩).find? (fun e => e.1 % 64 ≠ 0) = some (0x8020, 2048) ∧
     (0 : Nat) < (s.putThr { s.thr with mstart := 1 }).thr.mstart.toNat ∧ (gang false .running 0 0).thr.joined = false ∧ base.ownsAcc base.cur = false ∧
     (∀ x ∈ s.gangKeys 0, isSpring x = false)) ∧
    (let p := part0 1
     let three : Tab GangPart := [(1, p), (2, p), (3, p)]
     4 ≤ (three.set 0 p).length ∧ (three.set 0 p).all (fun e => e.2.shared == p.shared) = true ∧ (Tab.set [] 0 p).length < 4 ∧
     (three.set 0 (part0 0)).any (fun e => e.2.shared != (part0 0).shared) = true) := by
  simp only [ready_iff]
  and_intros <;> first | decide +kernel | exact of_val (by decide +kernel)

theorem witness_KStepEffect : ((gang true .running 0 0).core (0 * 4)).accOwner = some (0, 0) ∧ (0 : Nat) < 16 ∧ (3 : Nat) < 4 ∧
    (63 : Nat) < 64 ∧ (255 : Nat) < 256 ∧ (1 : Nat) ≠ (part0 1).d ∧ (0x807FFFFF : Nat) < 2 ^ 32 := by decide +kernel

/-- An MST of two rows that are disjoint, still to start and started. -/
def mstEntry (started : Bool) : Entry :=
  ⟨5, (some 0, 0), 0, 0, 2, .mst 0 [] [(0x20000, 0, 64), (0x20040, 0, 64)] 0 (if started then (List.range 32).map (fun i => (BitVec.ofNat 32 i, false)) else []) started, 0, false⟩
def draining (started : Bool) : State := { gang false .running 0 0 with entries := [mstEntry started] }

/-- The row checks of an MST at 0x20000 with stride 0; addresses that are not multiples of 64. -/
theorem witness_MatrixDrainResults :
    (let s := gang false .running 0x20000 0
     s.ownsAcc s.cur = true ∧ s.thr.region = none ∧ s.thr.vq = [] ∧ s.unperformed s.cur = false ∧
     s.flushHeld (coreOf s.cur) = false ∧ s.Ready false [] ∧ s.Ready false [4, 5] ∧ s.outCount s.thr.owner 2 = 0 ∧ s.queueTakes 2 = true ∧
     (0x20000#64).toNat % 64 = 0 ∧ (0x0#64).toNat % 64 = 0 ∧ (0x20020#64).toNat % 64 ≠ 0 ∧ (0x3F0#64).toNat % 64 ≠ 0 ∧
     ∃ sp, mstRows s 0x20000 0 (List.range 64) = .ok sp) ∧
    ((draining false).mstOf 0 false).map (fun e => e.2.1) = some 0 ∧ ((draining true).mstOf 0 true).map (fun e => (e.1, e.2.1)) = some (mstEntry true, 0) ∧
    (draining true).spansHeld [⟨0x20000, 0, 64⟩, ⟨0x20040, 0, 64⟩] = false ∧ base.isReg 0x20000 0 = false ∧
    ([(0x20000, 0, 64), (0x20040, 0, 64)] : List (Nat × Nat × Nat)).Pairwise (fun p q => p.1 + 64 ≤ q.1 ∨ q.1 + 64 ≤ p.1) ∧
    ((List.range 32).map (fun i => (BitVec.ofNat 32 i, false))).length = 16 * 2 := by
  simp only [ready_iff]
  and_intros <;> first
    | decide +kernel
    | exact of_isOk (by decide +kernel)

/-- The 64-byte command `x` at scratch offset 0x8000 of a thread with a scratch grant there; g4 holds `off`. -/
def commanding (off : Word) (x : Nat) : State :=
  let s := user (fun t => t.setG 4 off)
  ({ s with launches := [(0, { oneThreadLaunch with scr := 16, scrBase := [(0, 8)], cores := [0] })] } : State).write none (scratchAddr 0 0x8000) 64 x

/-- A MARCH of the mesh: its descriptor at 0x20000, its buffer at `buf`, and a group of rays from v8. -/
def marching (desc buf : Word) : State :=
  let s := user (fun t => { (t.setG 4 desc).setG 5 buf with budget := 16, vl := 2, v := (List.range 8).map (fun r => (r + 8, ⟨0, 0x0B, 3⟩)) })
  s.write none 0x20000 64 (0x31000 + 2 ^ 64 * 0x30000 + 2 ^ 128 + 2 ^ 160 * 4)

/-- `base` with one engine queue entry of its thread, with its job and queue. -/
def working (q : Nat) (job : Job) : State := { base with entries := [⟨5, (some 0, 0), 0, 0, q, job, 0, false⟩] }
def workEntry (q : Nat) (job : Job) : Entry := ⟨5, (some 0, 0), 0, 0, q, job, 0, false⟩

/-- COPY and FILL of 64 bytes; a length and a reserved field out of range; a window address outside the grants; an offset outside the
grant; COLL of one member; and a MARCH with an aligned and a misaligned descriptor and buffer. -/
theorem witness_EngineInstructionResults :
    (let s := commanding 0x8000 (0x20000 + 2 ^ 64 * 0x30000 + 2 ^ 128 * 64)
     s.Ready false [4] ∧ s.Ready false [] ∧ s.thr.region = none ∧ s.unperformed s.cur = false ∧ s.thr.memQueued = false ∧
     s.flushHeld (coreOf s.cur) = false ∧ s.queueTakes 0 = true ∧ s.queueTakes 1 = true ∧
     s.scratchGrant s.cur = (0x8000, 0x10000) ∧ (s.flushStrm (coreOf s.cur) (fun _ => true)).badWord s.cur (scratchAddr 0 0x8000) 64 = none ∧
     s.badAddr s.cur 0x20000 64 = none ∧ s.badAddr s.cur 0x30000 64 = none ∧ s.badAddr s.cur winCluster 64 = some winCluster ∧
     (∀ j < 4, bitAt 3 j = true → s.queueUsed (coreOf s.cur) j < queueRoom j)) ∧
    (let x := (commanding 0x8000 (0x20000 + 2 ^ 64 * 0x30000 + 2 ^ 128 * (2 ^ 40 + 1))).read (scratchAddr 0 0x8000) 64
     2 ^ 40 < fieldOf x 0x10 8 ∧ fieldOf x 0x18 40 = 0) ∧
    (let x := (commanding 0x8000 (2 ^ 256)).read (scratchAddr 0 0x8000) 64
     fieldOf x 0x10 8 ≤ 2 ^ 40 ∧ fieldOf x 0x18 40 ≠ 0) ∧
    (0x18000 < 0x17FE0 + 64 ∧ 0x17FE0 % 64 ≠ 0 ∧ 0x18000 % 64 = 0 ∧ 0x8000 + 0x10000 < 0x18000 + 64) ∧
    (let s := commanding 0x8000 (0x20000 + 2 ^ 64 * 0x30000 + 2 ^ 128 * 4 + 2 ^ 168 * 0x0B + 2 ^ 192 * 7 + 2 ^ 256)
     let x := s.read (scratchAddr 0 0x8000) 64
     fieldOf x 0x10 4 = 4 ∧ fieldOf x 0x14 1 = 0 ∧ collType (fieldOf x 0x15 1) = true ∧ fieldOf x 0x16 1 < oneBits 128 (fieldOf x 0x20 16) ∧
     fieldOf x 0x17 1 = 0 ∧ fieldOf x 0x18 8 = 7 ∧ bitAt (fieldOf x 0x20 16) s.dev.pkg.toNat = true ∧ fieldOf x 0x30 16 = 0 ∧
     s.badAddr s.cur (fieldOf x 0 8) 16 = none ∧ s.badAddr s.cur (fieldOf x 8 8) 16 = none ∧
     (∀ p < 128, bitAt (fieldOf x 0x20 16) p = true → s.routeUp p = true) ∧ s.entries = []) ∧
    (let s := commanding 0x8000 0
     bitAt 3 1 = true ∧ s.routeUp 1 = false ∧ s.routeUp 0 = true) ∧
    (let f : Fence := ⟨(some 0, 0), 0, 3, 6⟩
     let s : State := { working 0 (.copy 0x20000 0x30000 2) with fences := [f] }
     f.owner = s.thr.owner ∧ s.fenceLive f = true ∧ bitAt f.set 1 = true) ∧
    (let s := marching 0x20000 0x22000
     s.VecReady false [4, 5] ∧ boundCheck s [] [(8, 8)] = .ok () ∧ tagCheck s 0 [(8, fun f n => f == 0x0B && n == 8)] = .ok () ∧
     s.thr.vl.toNat ≤ 32 ∧ s.queueTakes 3 = true ∧ s.thr.vq = [] ∧ s.portHeld s.cur = false ∧ s.partsHeld s.cur [⟨0x22000, 0, 64⟩, ⟨0x20000, 0, 64⟩] = false ∧
     (∀ a ∈ [0x20000, 0x22000], s.badWord s.cur a 64 = none) ∧
     (s.resolve s.cur .load false 0x20000 64 = .ok [⟨0x20000, 0, 64⟩]) ∧
     marchBuffer s 0 0x22000 = .ok ((List.range 17).map (fun i => (0x22000 + 64 * i, 0)), 0, 0) ∧
     descCheck s (meshChecks (s.loadParts s.cur [⟨0x20000, 0, 64⟩])) = .ok () ∧
     (val? (submitted s s.thr s.thr 8 0 2)).map Prod.fst = some ([0, 1].map (rayOf s.thr 8))) ∧
    (0x20020#64).toNat % 64 ≠ 0 ∧ (0x22030#64).toNat % 64 ≠ 0 := by
  simp only [vec_ready_iff, ready_iff]
  and_intros <;> first | decide +kernel | exact of_val (by decide +kernel)

/-- The mesh with a MARCH whose work is changed by `f`. -/
def taken (f : March → March) : State :=
  { mesh with entries := [workEntry 3 (.march (f ⟨1, 100, 0x31000, 0x30000, 1, 4, false, 0, [], [(0x22000, 0)], true, [meshRay 0x3F800000 0 0]⟩))] }

/-- A sum of one S32 element over `members`, and an element that another package sends. -/
def gathering (members : Nat) : Job := .coll 7 0 5 members 0 1 0x20000 0x30000
def sent (count : Nat) : RemoteColl := ⟨7, 1, 0, 5, 3, 0, count, [1, 0, 0, 0]⟩
def meeting (members : Nat) (l : List RemoteColl) : State := { working 1 (gathering members) with remote := l }

/-- A COPY of two bytes and one to an absent page; a FILL; a collective of this package alone, one whose other member has sent
nothing, what fits and what does not; a MARCH not taken and one taken, its ray in the mesh and in a mesh that is absent, and the
ray ended. -/
theorem witness_EngineEventResults :
    (let e := workEntry 0 (.copy 0x20000 0x30000 2)
     let s := working 0 (.copy 0x20000 0x30000 2)
     let ms : List Moved := [⟨⟨0x30000, 0, 1⟩, some ⟨0x20000, 0, 1⟩, 0⟩, ⟨⟨0x30001, 0, 1⟩, some ⟨0x20001, 0, 1⟩, 0⟩]
     s.copyHead 0 = some e ∧ untilFail (copyByte s e 0x20000 0x30000) (List.range 2) = (ms, none) ∧
     s.spansHeld (ms.flatMap (fun m => m.dst :: m.src.toList)) = false ∧ (∀ m ∈ ms, s.isReg m.dst.pa m.dst.attr = false) ∧
     (ms.map (fun m => m.dst.pa)).Nodup ∧
     untilFail (copyByte s e 0x20000 0x80000000) (List.range 1) = ([], some (.park 0x80000000)) ∧
     untilFail (copyByte s e winCluster 0x80000000) (List.range 1) = ([], some (.code 1)) ∧
     untilFail (fillByte s e 0x55 0x30000) (List.range 1) = ([⟨⟨0x30000, 0, 1⟩, none, 0x55⟩], none)) ∧
    (let e := workEntry 0 (.copy 0x20000 0x30000 2)
     engineByte base e .load 0x20000 = .ok ⟨0x20000, 0, 1⟩ ∧ engineByte base e .store 0x30000 = .ok ⟨0x30000, 0, 1⟩ ∧
     base.isReg 0x20000 0 = false ∧ base.poisonedAt 0x20000 1 = false ∧
     engineByte { base with poison := [0x20000] } e .load 0x20000 = .ok ⟨0x20000, 0, 1⟩ ∧
     ({ base with poison := [0x20000] } : State).poisonedAt 0x20000 1 = true) ∧
    (∀ x ∈ [(1, []), (3, []), (3, [sent 1]), (3, [sent 2])], let s := meeting x.1 x.2
     let e := workEntry 1 (gathering x.1)
     s.entries.find? (fun e => !e.finished && s.isHead e && (match e.job with
      | .coll k _ _ _ _ _ _ _ => k == (7#64).toNat
      | _ => false)) = some e ∧ s.unitHeld 1 0 = false ∧ s.routeUp 1 = false ∧ 1 = 2 ^ s.dev.pkg.toNat ∧
     s.remote.filter (fun r => r.key == 7 && [1].contains r.pkg) = x.2 ∧
     untilFail (fun i => sourceByte s e (0x20000 + i)) (List.range 4) = ((List.range 4).map (fun i => (⟨0x20000 + i, 0, 1⟩, 0)), none) ∧
     s.spansHeld ((List.range 4).map (fun i => ⟨0x20000 + i, 0, 1⟩)) = false ∧
     (List.range 4).mapM (fun i => engineByte s e .store (0x30000 + i)) = .ok ((List.range 4).map (fun i => ⟨0x30000 + i, 0, 1⟩)) ∧
     s.spansHeld ((List.range 4).map (fun i => ⟨0x30000 + i, 0, 1⟩)) = false) ∧
    ((sent 1).agrees 0 5 3 0 1 = true ∧ (sent 2).agrees 0 5 3 0 1 = false ∧
     (∀ d ∈ [(sent 1).data, [2, 0, 0, 0]], d.length = 1 * (fmtWidth 5 / 8)) ∧
     ({ base with dev := { base.dev with routes := [(1, 1)] } } : State).routeUp 1 = true) ∧
    (let s := taken (fun m => { m with taken := false })
     s.dev.tripped = false ∧ s.marchCore 0 = some 0 ∧ (s.entries.filter (fun e => clusterOf e.slot == 0 && (match e.march with
      | some m => m.taken
      | none => false))).length < 16) ∧
    (let s := taken id
     ((s.marchEntry 0 5).map (fun e => e.1.id)) = some 5 ∧ s.isHeld 2 0 (5 * 64 + 0) = false ∧
     (∀ m, (meshEntry 1 (meshRay 0x3F800000 0 0)).march = some m →
       (match rayStep s (meshEntry 1 (meshRay 0x3F800000 0 0)) m (meshRay 0x3F800000 0 0) with
        | .ray _ none _ => true
        | _ => false) = true ∧
       rayStep s (meshEntry 1 (meshRay 0x3F800000 0 0)) { m with cells := 0x80000000 } (meshRay 0x3F800000 0 0) = .park 0x80000000)) ∧
    (let s := taken (fun m => { m with rays := m.rays.map (fun r => r.stop 1 1 0) })
     ((s.marchEntry 0 5).map (fun e => (s.isHead e.1, e.2.rays.all (fun r => r.out.isSome),
       s.spansHeld (e.2.buf.map (fun p => ⟨p.1, p.2, 64⟩))))) = some (true, true, false)) := by
  and_intros <;> decide +kernel

/-- A frame of 64 × 64 pixels of one sample in RGBA8 without depth, with target `target`, rings at `ring` and 4 chunks at 0x40000. -/
def frameWords (dispatch op target ring : Nat) : Nat :=
  9 + 2 ^ 24 * dispatch + 2 ^ 32 * 63 + 2 ^ 48 * 63 + 2 ^ 64 + 2 ^ 112 * op + 2 ^ 128 * target + 2 ^ 368 * 6 + 2 ^ 384 * 0x40000 + 2 ^ 448 * 4 +
    2 ^ 512 * 0x48000 + 2 ^ 576 * 0x60000 + 2 ^ 640 * ring + 2 ^ 704 * 0x52000
def frame0 : Frame := frameOf 0 0 0 0x4F000 (frameWords 0 0 0x70000 0x50000)

/-- An entry of an agent queue, and a state whose queue `key` holds it and is bound to frame 3. -/
def item (x : Nat) : QItem := ⟨0, 5, x, false, 0⟩
def raster (f : Frame) (key x : Nat) : State :=
  { base with
    frames := [(3, f)], aqueues := [(key, ⟨some 3, 1, 0, [item x]⟩)], launches := [(0, { oneThreadLaunch with frames := [3], scr := 16, scrBase := [(0, 8)], cores := [0] })] }

/-- A thread that pushes to the queue `h` with its 64 bytes at `off`. -/
def pushing (kind : Nat) (h off : Word) : State :=
  let s := raster frame0 (aqKey kind 0 0) 0
  s.putThr ((s.thr.setG 4 h).setG 5 off)

/-- A push that is accepted, to a queue that is full, with a bad offset and one outside the grant, with a bad queue name, and to a
queue that is bound to no frame. -/
theorem witness_QueuePushResults :
    (∀ kind ∈ [0, 1, 2], let s := pushing kind 0 0x8000
      let q := s.aqueue (aqKey kind 0 0)
      s.Ready false [4, 5] ∧ s.thr.region = none ∧ q.frame = some 3 ∧ (s.launchOf s.thr).map Launch.frames = some [3] ∧
      s.scratchGrant s.cur = (0x8000, 0x10000) ∧ s.fences = [] ∧ s.portHeld s.cur = false ∧ s.thr.memQueued = false ∧
      s.flushHeld (coreOf s.cur) = false ∧ q.items.length < aqRoom kind ∧ q.next < 0xFFFFFFFF ∧
      s.badWord s.cur (scratchAddr (coreOf s.cur) 0x8000) 64 = none) ∧
    ({ pushing 0 0 0x8000 with scq := [⟨1, 16, 0, 0, 0x20000, 0, 4, 6, .store 5 false⟩] } : State).portHeld 0 = true ∧
    (let q : AgentQueue := ⟨some 3, 0xFFFFFFFF, 0, []⟩
     0xFFFFFFFF ≤ q.next) ∧
    (pushing 0 4096 0x8000).Ready false [4, 5] ∧ (pushing 2 64 0x8000).Ready false [4, 5] ∧ (64 / 64 % 16 ≠ 0 ∧ 0x8010 % 64 ≠ 0 ∧ 0x7FC0 < 0x8000) ∧
    (base.aqueue (aqKey 0 0 0)).frame = none := by
  simp only [ready_iff]
  refine ⟨?_, by decide +kernel⟩
  intro kind h
  exact ⟨by revert kind; decide +kernel, by revert kind; decide +kernel⟩

/-- A triangle with vertices (0, 0), (32, 0) and (0, 32) of depth 0, an END, a triangle of no area, and one of another frame. -/
def triangle : Nat := 1 + 2 ^ 16 * 9 + 2 ^ 160 * 0x42000000 + 2 ^ 288 * 0x42000000
def prim0 : Prim := ⟨0, 0, [(0, 0), (8192, 0), (0, 8192)], [0, 0, 0], (0, 0, 0, 0)⟩

/-- Entries of a mesh queue; a primitive stored and one whose address goes to a list. -/
theorem witness_MeshResults :
    (∀ x ∈ [triangle, 2 + 2 ^ 16 * 9, 1 + 2 ^ 16 * 9, 1 + 2 ^ 16 * 8], let s := raster frame0 (aqKey 2 0 0) x
      (s.aqueue (aqKey 2 0 0)).frame = some 3 ∧ s.frame? 3 = some frame0 ∧ (s.aqueue (aqKey 2 0 0)).head = some (item x) ∧ frame0.hand = none ∧
      frame0.ended = false ∧ frame0.state = 0 ∧ s.isHeld 4 frame0.lowest (meshTag 3) = false ∧ frame0.headed = false ∧
      isOk (s.meshWait 3 frame0 .store (writeSpans frame0.headZeros)) = true) ∧
    (∀ st ∈ [0, 3], ∀ x ∈ [triangle, 2 + 2 ^ 16 * 9, 1 + 2 ^ 16 * 8], let f : Frame := { frame0 with headed := true, state := st }
      let s := raster f (aqKey 2 0 0) x
      (s.aqueue (aqKey 2 0 0)).frame = some 3 ∧ s.frame? 3 = some f ∧ (s.aqueue (aqKey 2 0 0)).head = some (item x) ∧
      s.isHeld 4 f.lowest (meshTag 3) = false ∧ isOk (s.recordWait 4 f.lowest (meshTag 3) f) = true) ∧
    (meshBad frame0 (item triangle) = false ∧ meshBad frame0 (item (1 + 2 ^ 16 * 8)) = true) ∧
    isEnd frame0 (item (2 + 2 ^ 16 * 9)) = true ∧ isEnd frame0 (item triangle) = false ∧ snapPrim frame0 0 triangle = .prim prim0 ∧
    snapPrim frame0 0 (1 + 2 ^ 16 * 9) = .discarded ∧ (1 + 2 ^ 16 * 8) / 2 ^ 16 ≠ frame0.number ∧
    (let h : InHand := ⟨prim0, triangle, some 0x40000, [], none, none⟩
     let s := raster { frame0 with hand := some h } (aqKey 2 0 0) triangle
     s.frame? 3 = some { frame0 with hand := some h } ∧ h.place.isSome = true ∧ h.todo = [] ∧
     (match frame0.append 0 0x40000 none with
      | .ok _ ws _ => isOk (s.meshWait 3 frame0 .store (writeSpans ws))
      | .full _ => false) = true) := by decide +kernel

/-- A tile of a frame without data, and a unit that renders bin 0 of frame 3. -/
def tileAt (t place : Nat) : Tile := ⟨3, t, place, false, [], [], []⟩
def unit0 : TileUnit := { TileUnit.idle with bin := some (3, 0, none) }
def rendering (f : Frame) (u : TileUnit) : State := { raster f (aqKey 0 0 0) (1 + 2 ^ 16 * 9) with tiles := [(0, u)] }

theorem nextPixel_one {s : State} {u : TileUnit} {p : Nat × Nat} (h : u.pixels = [p]) : s.nextPixel u = p := by
  simp [State.nextPixel, h, Nat.mod_one]

/-- Jobs of a bin rendered and not yet rendered, an entry of another frame, a mark; a unit without a bin, with a bin, with a
primitive to come and with a pixel of one, which it covers. -/
theorem witness_TileResults :
    (let f : Frame := { frame0 with words := frameWords 1 0 0x70000 0x50000, state := 1 }
     ∀ x ∈ [1 + 2 ^ 16 * 9, 2 + 2 ^ 16 * 9, 1 + 2 ^ 16 * 8], let s := raster f (aqKey 0 0 0) x
      s.queueHead (aqKey 0 0 0) = some (3, f, item x) ∧ f.number = 9 ∧ f.byJobs = true ∧ 0 < f.bins ∧ s.binTaken 3 f 0 = false ∧
      s.binTaken 3 { f with rendered := [0] } 0 = true ∧ (s.tile 0).bin = none ∧ (s.aqueue (aqKey 0 0 0)).items = [item x] ∧
      s.dev.tripped = false ∧ s.isHeld 3 0 tagJob = false ∧ val? (readList s f 0) = some [] ∧ val? (readList s f f.wide) = some [] ∧
      isOk (s.startBin 0 tagJob 3 f 0 (some (aqKey 0 0 0, 0))) = true) ∧
    (let f := frameOf 0 0 0 0x4F000 (frameWords 1 0 0x70000 0x50000 + 2 ^ 512 * (0x80000000 - 0x48000))
     err? (readBin (raster f (aqKey 0 0 0) (1 + 2 ^ 16 * 9)) f 0) = some (.page 0x80000000)) ∧
    (let f : Frame := { frame0 with state := 1 }
     ((rendering f TileUnit.idle).autoBin 0) = some (3, f, 0) ∧ (rendering f unit0).frame? 3 = some f ∧ unit0.frag = none ∧
     (rendering f unit0).isHeld 3 0 tagLoad = false ∧ unit0.pixels = [] ∧ unit0.prims = []) ∧
    (let u : TileUnit := { unit0 with cur := some prim0, pixels := [(1, 1)], tiles := [tileAt 0 0] }
     (rendering frame0 u).tile 0 = u ∧ u.find 3 (frame0.tileOf 1 1) = some (tileAt 0 0) ∧ (tileAt 0 0).place = 0) ∧
    (1, 1) ∈ coveredPixels frame0 0 prim0 ∧ (0 < frame0.samples ∧ frame0.samples ∈ [1, 2, 4, 8]) ∧
    (shadePixel frame0 prim0 1 1 (tileAt 0 0)).2.testBit 0 = true := by decide +kernel

/-- A fragment of frame 3 at pixel (1, 1) with index 0, shaded or not. -/
def frag0 (shade : Option (Nat × Nat)) : Frag := ⟨3, 0, 1, 1, 1, 0, 0, 0, 0, 0, shade, none⟩

/-- A fragment to be written, to a ring and to an absent page; four resident tiles that are not the pixel's; a tile to be written back. -/
theorem witness_TileMemoryResults :
    (let u : TileUnit := { TileUnit.idle with frag := some (frag0 none) }
     let ws (r : Nat) : List (Nat × Nat) := [(r, 32), (0x52008, 8)]
     (rendering frame0 u).tile 0 = u ∧ (rendering frame0 u).frame? 3 = some frame0 ∧ u.frags = [] ∧ (rendering frame0 u).isHeld 3 0 tagFrag = false ∧
     (rendering frame0 u).firstPark 0 .store (ws 0x80000000) = some 0x80000000 ∧
     isOk ((rendering frame0 u).agentWait 3 0 0 tagFrag .store (ws 0x50000)) = true) ∧
    (let u : TileUnit := { unit0 with pixels := [(1, 1)], tiles := [tileAt 10 0, tileAt 11 0, tileAt 12 0, tileAt 13 0] }
     let s := rendering frame0 u
     s.tile 0 = u ∧ u.resident.length = 4 ∧ u.find 3 (frame0.tileOf 1 1) = none ∧ s.isHeld 3 0 tagSpill = false ∧
     (u.resident.findSome? (fun b => match s.frame? b.frame with
       | some g => if u.busy g b.frame b.t then none else some (g, b)
       | none => none)) = some (frame0, tileAt 10 0) ∧
     isOk (s.agentWait 3 0 0 tagSpill .store (writeSpans (slotWrites frame0 (tileAt 10 0)))) = true) ∧
    (let f : Frame := { frame0 with words := frameWords 0 1 0x70000 0x50000 }
     let b : Tile := { tileAt 0 0 with done := true }
     let s := rendering f { TileUnit.idle with tiles := [b] }
     (s.tile 0).tiles[0]? = some b ∧ s.frame? 3 = some f ∧ (s.tile 0).busy f 3 0 = false ∧ s.isHeld 3 0 tagBack = false ∧
     isOk ((s.retry 3 0 tagBack).agentWait 3 0 0 tagBack .store (writeSpans (backWrites f b))) = true) := by
  and_intros <;> decide +kernel

/-- An ORDERED and a DIRECT entry of one pixel at 0x21000, whose record names fragment 0 or a pixel; a malformed entry; a shaded
fragment; a frame whose bin is rendered, and one that is done. -/
theorem witness_BlendResults :
    (let x := 1 + 2 ^ 8 + 2 ^ 16 * 9 + 2 ^ 64 * 0x21000
     let s := { raster frame0 (aqKey 1 0 0) x with tiles := [(0, { TileUnit.idle with frags := [frag0 none] })] }
     s.queueHead (aqKey 1 0 0) = some (3, frame0, item x) ∧ s.isHeld 3 0 tagBlend = false ∧ blendBad frame0 x = false ∧ blendBad frame0 0 = true ∧
     fieldOf x 0 1 = 1 ∧ pixelAddrs x = [0x21000] ∧ s.reach 0 .load 0x21000 32 = .ok 0x21000 0 ∧
     ((∃ g ∈ (s.tile 0).frags, g.frame = 3 ∧ g.i = fieldOf (s.peek 0 0x21000 32) 8 4 ∧ g.shade = none) ∧
      (frag0 (some (1, 2))).shade ≠ none)) ∧
    (let x := 2 + 2 ^ 8 + 2 ^ 16 * 9 + 2 ^ 64 * 0x21000
     let s := (raster frame0 (aqKey 1 0 0) x).write none 0x21000 32 (2 ^ 32)
     let v := (raster frame0 (aqKey 1 0 0) x).write none 0x21000 32 64
     s.queueHead (aqKey 1 0 0) = some (3, frame0, item x) ∧ (∀ r ∈ readablePixels s frame0 x, s.tileHeld 3 frame0 (fieldOf r 0 2) (fieldOf r 2 2) = false) ∧
     fieldOf x 1 1 = 1 ∧ (item x).left = 0 ∧ fieldOf (s.peek 0 0x21000 32) 0 2 < frame0.w ∧ frame0.w ≤ fieldOf (v.peek 0 0x21000 32) 0 2 ∧
     directTargets frame0 (s.peek 0 0x21000 32) = [(0x70000, 4)] ∧ s.reach 0 .update 0x70000 4 = .ok 0x70000 0) ∧
    (let g := frag0 (some (1, 2))
     let s := rendering frame0 { TileUnit.idle with frags := [g] }
     (s.tile 0).frags[0]? = some g ∧ g.shade = some (1, 2) ∧ s.frame? g.frame = some frame0 ∧ s.isHeld 3 0 tagBlend = false) ∧
    (let f : Frame := { frame0 with state := 1, ended := true, rendered := [0] }
     let s := raster f (aqKey 2 0 0) 0
     s.frame? 3 = some f ∧ s.phaseOver 3 f = true ∧ f.fld 0x60 8 = 0 ∧ s.agentHeld 0 .update [] = false ∧
     (∀ e ∈ ({ s with launches := [] } : State).launches, e.2.done = true ∨ 3 ∉ e.2.frames)) := by
  refine ⟨⟨?_, ?_, ?_, ?_, ?_, ?_, ?_, ?_⟩, ⟨?_, ?_, ?_, ?_, ?_, ?_, ?_, ?_⟩, ?_, ?_⟩ <;> decide +kernel

/-- Partition 0 with cluster 0 and its queue 0, whose ring lies at 0x24000 with the packet `x` at its head; its descriptor lies at 0x26000,
its code table at 0x27000 with one loaded object, of one kernel. -/
def queue0 : HQueue := { HQueue.disabled with state := 1, base := 0x24000, lsize := 4, wr := 1 }
def packets (h : HQueue) (x : Nat) : State :=
  let s := base.setPart 0 { base.part 0 with qtab := 0x26000, ctab := 0x27000, clus := 1, queues := [(0, h)] }
  (((s.write none 0x24000 64 x).write none 0x26000 64 (0x24000 + 2 ^ 64 * 4 + 2 ^ 80)).write none 0x27000 32
    (0x40000 + 2 ^ 64 * 4096 + 2 ^ 128 * 0x29000 + 2 ^ 192 + 2 ^ 208)).write none 0x29000 32 (2 ^ 104)

/-- A COPY, a BARRIER on the signal at 0x25000, a SIGNAL of it, a FRAME with its record at 0x28000, and a LAUNCH. -/
def copyPacket : Nat := 3 + 2 ^ 128 * 0x20000 + 2 ^ 192 * 0x30000 + 2 ^ 256 * 64
def barrierPacket : Nat := 2 + 2 ^ 128 + 2 ^ 192 * 0x25000
def signalPacket : Nat := 4 + 2 ^ 128 * 0x25000 + 2 ^ 256
def framePacket : Nat := 5 + 2 ^ 128 * 0x28000
def launchPacket : Nat := 1 + 2 ^ 192 + 2 ^ 200 + 2 ^ 208 + 2 ^ 216

/-- What every packet needs to start. -/
def due (x : Nat) (touch : List (Nat × Nat)) : Prop :=
  let s := packets queue0 x
  (s.die 0).nextStart ≤ s.clk ∧ (s.die 0).inReset = false ∧ s.seqPick 0 = some 0 ∧ s.agentHeld 0 .load [(queue0.packetAddr 0, 64)] = false ∧
    s.bytes? 0 (queue0.packetAddr 0) 64 = some x ∧ s.agentHeld 0 .update touch = false ∧ s.descHeld 0 0 = false

theorem packets_due : due 0 [] ∧ due 16 [] ∧ due copyPacket [] ∧ due barrierPacket [] ∧ due signalPacket [(0x25000, 8)] ∧ due framePacket [] ∧
    due launchPacket [] := by
  refine ⟨?_, ?_, ?_, ?_, ?_, ?_, ?_⟩ <;> (unfold due; decide +kernel)

/-- The packets' bodies; a signal that can be reached and one that cannot; a barrier's signal at 0, 5 and −1; a COPY packet's entry
that has ended. -/
theorem witness_packets :
    (headerOk 0 = true ∧ headerOk (2 ^ 64) = false ∧ headerOk barrierPacket = true ∧ barrierOk barrierPacket = true ∧ headerOk copyPacket = true ∧
      fieldOf copyPacket 0x20 8 ≤ 2 ^ 40 ∧ fieldOf copyPacket 0x28 24 = 0) ∧
    (headerOk signalPacket = true ∧ fieldOf signalPacket 0x10 8 = 0x25000 ∧ fieldOf signalPacket 0x18 1 ≤ 1 ∧ fieldOf signalPacket 0x19 7 = 0 ∧
      fieldOf signalPacket 0x28 24 = 0 ∧ base.reach 0 .update 0x25000 8 = .ok 0x25000 0 ∧ base.reach 0 .update 0x80000000 8 = .park) ∧
    (let s := (packets queue0 framePacket).write none 0x28000 256 (frameWords 0 0 0x70000 0x50000)
     headerOk framePacket = true ∧ fieldOf framePacket 0x10 8 = 0x28000 ∧ fieldOf framePacket 0x18 40 = 0 ∧ queue0.started = [] ∧
     s.bytes? 0 0x28000 256 = some (frameWords 0 0 0x70000 0x50000) ∧ frameOk (frameWords 0 0 0x70000 0x50000) = true ∧
     (∀ k ∈ frame0.queues, (s.aqueue k).frame = none)) ∧
    (∀ v ∈ [0, 5, 2 ^ 64 - 1], let x : Started := ⟨0, barrierPacket, none⟩
     let s := (packets { queue0 with started := [x] } 0).write none 0x25000 8 v
     (s.hq 0 0).started.filter (fun y => y.type == 2) = [x] ∧ s.agentHeld 0 .load ((barrierSignals x.bytes).map (fun a => (a, 8))) = false ∧
     s.agentHeld 0 .update x.sigSpans = false ∧ s.descHeld 0 0 = false ∧
     (barrierSignals x.bytes).mapM (fun a => s.bytes? 0 a 8) = some [v]) ∧
    (let e : Entry := ⟨5, (none, 5), 0, 0, 5, .copy 0 0 0, 0, true⟩
     let s := { packets { queue0 with started := [⟨0, copyPacket, some 5⟩] } 0 with entries := [e] }
     s.entries.find? (fun e => e.id == 5 && e.finished) = some e ∧ s.copyPacket e = some (0, ⟨0, copyPacket, some 5⟩) ∧
     s.agentHeld 0 .update [] = false ∧ s.descHeld 0 0 = false ∧ (workEntry 0 (.fill 0 0 0)).q ≠ 5) ∧
    (let s := { packets HQueue.disabled 0 with reqs := [.doorbell 0 0 3] }
     s.firstRing 0 0 = some (.doorbell 0 0 3) ∧ (s.hq 0 0).state = 0 ∧ (s.bytes? 0 (s.descAddr 0 0) 64).map descOn = some true ∧
     HQueue.disabled.seen = false ∧ descOn 0 = false ∧
     ({ packets queue0 0 with reqs := [.doorbell 0 0 3] } : State).firstRing 0 0 = some (.doorbell 0 0 3) ∧ queue0.state ≠ 0) := by
  refine ⟨?_, ?_, ?_, ?_, ?_, ?_⟩ <;> decide +kernel

/-- The ends of a packet: no signal, one that can be written, and one that cannot, in a queue that is not in ERROR. -/
theorem witness_PacketEnds :
    let s := packets queue0 0
    (⟨0, 0, none⟩ : Started).signal = 0 ∧ (⟨0, 2 ^ 64 * 0x25000, none⟩ : Started).signal = 0x25000 ∧
    (⟨0, 2 ^ 64 * 0x80000000, none⟩ : Started).signal = 0x80000000 ∧ (s.dropPacket 0 0 0).reach 0 .update 0x25000 8 = .ok 0x25000 0 ∧
    (s.dropPacket 0 0 0).reach 0 .update 0x80000000 8 = .park ∧ ((s.dropPacket 0 0 0).hq 0 0).state ≠ 2 ∧
    (((s.dropPacket 0 0 0).poke 0 0x25000 8 5).hq 0 0).state ≠ 2 := by decide +kernel

/-- A waiting launch of one thread, and one that wants every slot of a cluster, before the launch 0 that stands in slot 0. -/
def waiting1 (S Q C : Nat) : State :=
  let w : Launch := { oneThreadLaunch with num := 1, prio := 1, S := S, C := C, Q := Q, place := [] }
  let s := packets { queue0 with flags := 3, waiting := some ⟨0, launchPacket, some 1⟩ } 0
  { s with launches := [(0, { oneThreadLaunch with place := [(0, 0)] }), (1, w)] }

/-- A LAUNCH that fits and one whose kernel needs more; a launch that waits and fits; one that is over; and one for which another
is pre-empted. -/
theorem witness_LaunchResults :
    (headerOk launchPacket = true ∧ startOk launchPacket = true ∧ startOk 1 = false ∧
      (packets queue0 launchPacket).kernelOf 0 launchPacket = some (0x40000, 2 ^ 104) ∧ base.kernelOf 0 launchPacket = none) ∧
    ((packets queue0 launchPacket).shadows 0 launchPacket (2 ^ 104) = some [0, 0, 0, 0, 0] ∧ kernelOk launchPacket (2 ^ 104) = true ∧
      kernelOk launchPacket 0 = false ∧ (packets queue0 launchPacket).fitsEmpty (makeLaunch 0 0 0 0 0 launchPacket 0x40000 (2 ^ 104) [0, 0, 0, 0, 0]) = true ∧
      (packets queue0 launchPacket).fitsEmpty (makeLaunch 0 0 0 0 0 (launchPacket + 2 ^ 216) 0x40000 (2 ^ 104) [0, 0, 0, 0, 0]) = false) ∧
    (let s := waiting1 1 1 1
     (s.waitingFirst 0).map (fun e => (e.1, e.2.1)) = [(0, 1)] ∧ s.resumeFirst 0 1 = false ∧ s.dev.tripped = false ∧
     ((s.launches.get? 1).bind s.plan) = some [(0, 0, [(0, [1])])]) ∧
    (let l : Launch := { oneThreadLaunch with halted := [0] }
     let s := { packets { queue0 with started := [⟨0, launchPacket, some 0⟩] } 0 with launches := [(0, l)] }
     s.launches.get? 0 = some l ∧ s.launchOver 0 l = true ∧ s.launchPacket 0 l = some ⟨0, launchPacket, some 0⟩ ∧ s.agentHeld 0 .update [] = false ∧
     s.flushPartHeld l.part = false ∧ s.descHeld 0 l.queue = false ∧ fieldOf launchPacket 3 1 = 0) ∧
    (let s := waiting1 16 8 4
     ((s.waitingFirst 0).find? (fun e => bitAt (s.hq 0 e.1).flags 1)).map (fun e => (e.1, e.2.1)) = some (0, 1) ∧
     (s.lower 0 1).map Prod.fst = [0] ∧ (s.lower 0 1).filter (fun e => s.allHeld e.1 e.2) = [] ∧
     ((s.launches.get? 1).bind (s.without [].contains).plan) = none ∧
     (((s.launches.get? 1).bind (s.without [0].contains).plan).map List.length) = some 1 ∧
     nextVictim ((s.lower 0 1).filter (fun e => !s.allHeld e.1 e.2)) = some 0) := by
  refine ⟨?_, ?_, ?_, ?_, ?_⟩ <;> decide +kernel

/-- A load, an unload and a forced unload of object 0, which no thread pins, of one that the thread in slot 0 pins, and an entry with
a bad state. -/
theorem witness_CodeCommandResults :
    (∀ v ∈ [0, 2 ^ 32, 2 ^ 32 + 2 ^ 36], let s := { packets queue0 0 with reqs := [.code 0 (BitVec.ofNat 64 v)] }
     s.codeReq 0 = some (BitVec.ofNat 64 v) ∧ (BitVec.ofNat 64 v).toNat % 1024 = 0 ∧
     (s.codeEntry 0 0).map (fun x => (s.pins 0 x, fieldOf x 0x1A 1, fieldOf x 0x1B 1)) = some (0, 1, 0)) ∧
    (let s := { (packets queue0 0).write none 0x27000 8 0x10000 with reqs := [.code 0 (2 ^ 32)] }
     (s.codeEntry 0 0).map (s.pins 0) = some 1) ∧ 1 < fieldOf (2 ^ 209) 0x1A 1 := by decide +kernel

/-- A record. -/
def record0 : Rec := ⟨0x10000, 0x10004, 99, 0x18, 0, 0, 0, 0, 0, 0, 0, 0, 0⟩

/-- Commands left in a queue, of each kind that is stated on its own, and one of a thread that is not ready; a record that waits for a
free place; and one that no Spring slot has taken. -/
theorem witness_SupervisorEventResults :
    (∀ op ∈ [VOp.splat, .mbound, .put], let c : VCmd := ⟨op, 2, 4, 0, 0, 0, 7, 0, 2, 0, 0, 0x10000, 0, [(2, 5)]⟩
     let s := (vecs 5 0 0 2).putThr { (vecs 5 0 0 2).thr with vq := [c] }
     s.readySlot 0 = some 0 ∧ (s.thread 0).vq = [c] ∧ c.d ≠ 0 ∧ (∀ p ∈ (s.thread 0).pend, p.isVec = false) ∧
     isOk (runCmd (({ s with cur := 0 } : State).putThr ((s.thread 0).forCmd c [])) c) = true) ∧
    (let c : VCmd := ⟨.splat, 2, 4, 0, 0, 0, 7, 0, 2, 0, 0, 0x10000, 0, [(2, 5)]⟩
     base.readySlot 0 = none ∧ ((base.putThr { base.thr with vq := [c] }).setCore 0 { Core.fresh with vfree := 9 }).readySlot 0 = none) ∧
    ((base.setCluster 0 { Cluster.fresh with waitRecs := [(none, record0)] }).cluster 0).waitRecs = [(none, record0)] ∧
    (Cluster.fresh.nextPlace ∉ Cluster.fresh.ring) ∧
    (let s := base.setCluster 0 { Cluster.fresh with undelivered := [(0, record0)] }
     (s.cluster 0).undelivered = [(0, record0)] ∧ s.emptySpring 0 = some 32768 ∧ (s.part (s.partOfCluster 0)).state = 1 ∧
     s.dev.tripped = false) := by
  decide +kernel

/-- A queue reset posted; an engine reset posted; a seal in progress and none; a die in reset. -/
theorem witness_ResetResults :
    (let s := { packets queue0 0 with reqs := [.qreset 0 0, .ereset 0 0 0] }
     Req.qreset 0 0 ∈ s.reqs ∧ Req.ereset 0 0 0 ∈ s.reqs ∧ s.agentHeld 0 .update ((s.openPackets 0 0).flatMap Started.sigSpans) = false ∧
     s.flushPartHeld 0 = false) ∧
    (let s := base.setCore 0 { Core.fresh with strm := [(0x20000, 1)] }
     (∀ i < 16, ∀ c ∈ clusterCores (16 * 0 + i), base.flushHeld c = false) ∧ 0 ∈ clusterCores 0 ∧
       (s.setDie 0 { s.die 0 with inReset := true }).flushHeld 0 = true) ∧
    base.dev.sealing = false ∧ ({ base.dev with sealing := true } : Device).sealing = true ∧ base.dev.keep = false ∧ base.dev.stage ≠ 6 ∧
    ({ base.dev with stage := 6 } : Device).stage = 6 ∧ ((base.setDie 0 { base.die 0 with inReset := true }).die 0).inReset = true ∧
    base.ownCell 0x20000 = true := by decide +kernel

/-- A package with a sealed image under its own key, and one without a key. -/
def imaged : State :=
  { base with
    image := some ⟨1, some 0, [(0x20000, 7)], [], [(0, [(0, 5)], [])], [(0, [(3, 9)], [])], []⟩, reqs := [.startSeal, .restore, .mailbox], dev := { base.dev with sealed := true } }

theorem witness_SealAndMailboxResults :
    (Req.startSeal ∈ imaged.reqs ∧ imaged.dev.sealing = false ∧ imaged.dev.rung6Held = false ∧ Memory.wf imaged.mem = true ∧
      Memory.wf [(0x20000, 7)] = true ∧ Req.restore ∈ imaged.reqs ∧ imaged.image.map Image.key = some imaged.dev.sealKey ∧
      imaged.dev.sealKey ≠ none ∧ imaged.dev.sealed = true ∧ imaged.sealedPlace 0x20000 = true ∧ imaged.sealedPlace (2 ^ 50) = false ∧
      imaged.image.map Image.foreign = some [] ∧ (imaged.image.map (fun i => i.accs.map Prod.fst)) = some [0] ∧
      (imaged.image.map (fun i => i.files.map Prod.fst)) = some [0]) ∧
    (let s := { base with dev := { base.dev with sealing := true } }
     s.dev.sealing = true ∧ s.dev.rung6Held = false) ∧
    imaged.dev.keep = false ∧ Req.mailbox ∈ imaged.reqs ∧
    (∀ v ∈ [0, 1, 2, 3, 4, 5], (BitVec.ofNat 64 v).toNat % 256 = v) ∧
    ((0x302#64).extractLsb' 8 2).toNat ≤ (3#2).toNat ∧ imaged.dev.lc.toNat < ((0x302#64).extractLsb' 8 2).toNat ∧ imaged.dev.lc ≠ 0 := by
  and_intros <;> decide +kernel

/-- Values and places of register writes; an access in the aperture and one past it; a link, its far end and its loss; a clock that
follows; a region that was counted; a line without poison; words of a slot and of storage that take an error. -/
theorem witness_DeviceBoundaryResults :
    ((0 : Nat) < 8 ∧ State.reset.dev.stage.toNat = 8 ∧ ({ base.dev with stage := 6 } : Device).stage.toNat < 7 ∧ (State.reset.part 0).state ≠ 1 ∧
      ((0#64).getLsbD 0 = base.dev.master ∧ (1#64).getLsbD 0 ≠ base.dev.master) ∧
      (∀ k < 4, let n := (0x020202F2#64).toNat / 256 ^ k % 16
        n ≤ 10 ∧ State.reset.sharesBut 8 k ≤ n * 512 ∧ State.reset.dieScratchHeld k = false) ∧ (∃ k < 4, 10 < (11#64).toNat / 256 ^ k % 16) ∧
      ∀ q, q < 8 → q ≠ 0 → (State.reset.part q).clus &&& 3 = 0) ∧
    (0x6000000000 < 0x5FFFFFFFFC + 8 ∧ 0x20000 + 8 ≤ 0x6000000000 ∧ base.spansHeld [⟨0x20000, 2, 8⟩] = false) ∧
    (paPkg 0x20000 = base.dev.pkg.toNat ∧ paReserved 0x20000 = false ∧ base.isReg 0x20000 2 = false ∧ base.image = none) ∧
    ((5 : Nat) % 128 ≠ base.dev.pkg.toNat ∧ 128 % 128 = base.dev.pkg.toNat ∧ ([] : Tab Nat) = Tab.erase ([(3, 5)] : Tab Nat) 3) ∧
    (({ base.dev with links := [(3, 5)] } : Device).links ≠ [] ∧ base.dev.master = false) ∧
    (let s := base.setPart 0 { base.part 0 with hot := 0x100000 }
     (∀ p < 8, (base.part p).hot = 0) ∧ (s.part (5 / 2 ^ 32)).hot ≠ 0 ∧ paReserved (0x100000 + 8 * hotIndex 5) = false ∧ s.hotOut = [] ∧ epochAt s.clk = 0) ∧
    (∀ b ∈ base.poison, b / 64 ≠ 0x20000 / 64) ∧ ((31 : Nat) < 100 ∧ 100 < 2 ^ 20 ∧ (base.thread 0).st ≠ .empty) := by
  and_intros <;> decide +kernel

/-- A register with a pending result, with and without c.debug bit 0, and a poisoned one. -/
theorem witness_OperandHazards :
    (let t := (user (fun t => { t with pend := [.vals [(4, 7)]], dbg := 1 })).thr
     (4 : BitVec 5) ≠ 0 ∧ 4 ∉ t.poison ∧ pendingOf t.pend (codePoison + 4) = none ∧ pendingOf t.pend 4 = some (some 7) ∧ t.dbg.getLsbD 0 = true) ∧
    base.thr.dbg.getLsbD 0 = false ∧ 4 ∈ (user (fun t => { t with poison := [4] })).thr.poison ∧
    pendingOf (user (fun t => { t with poison := [4] })).thr.pend 4 = none := by decide +kernel

/-- The operands of the frames: readable registers, and a relaxed store in plain storage outside a lease region. -/
theorem witness_Frames :
    mem8.Ready false [4, 5] ∧ mem8.Admits .store (lsOrder 0) 0x20000 8 [⟨0x20000, 0, 8⟩] ∧ mem8.unpending 5 ∧
    (mem8.isReg 0x20000 0 = false ∧ mem8.thr.lease = none ∧ ((mem8.core (coreOf mem8.cur)).strm.map Prod.fst).Nodup) ∧
    (pendingOf base.thr.pend 4 = none ∧ ∀ k, k ≠ 0 → k ≠ base.cur) := by
  refine ⟨by simp only [ready_iff]; decide +kernel, ?_, .inr (by decide +kernel), by decide +kernel, by decide +kernel, ?_⟩
  · exact ⟨of_val (by decide +kernel), fun h => absurd h (by decide +kernel)⟩
  · rw [show base.cur = 0 by decide +kernel]
    exact fun _ h => h

/-- Numbers of each kind, and zeros. -/
theorem witness_ArithmeticResults :
    IsNumber (.fin true 3 2) ∧ IsNumber (.zero true) ∧ numberOf (.zero true) = 0 ∧ numberOf (.fin true 3 2) < 0 ∧
    numberOf (.fin true 3 2) + numberOf (.fin false 3 2) = 0 ∧ (7 : ℝ) / 2 ≤ 4000 ∧ ((2 : Nat) ∣ 4 ∧ (0 : Nat) < 4) := by
  refine ⟨.inr ⟨true, 3, 2, by decide, by decide, rfl⟩, .inl ⟨true, rfl⟩, ?_, ?_, ?_, by norm_num, by decide⟩ <;>
    norm_num [numberOf, Val.numer, Val.denom]

/-- A format and a mode, codes at the ends of the grid, and an integer width. -/
theorem witness_RoundingResults :
    Fp.fp32 ∈ [Fp.fp16, Fp.bf16, Fp.fp32, Fp.fp64, Fp.e4m3, Fp.e5m2, Fp.e2m1] ∧ RMode.rup ∈ [RMode.rne, .rtz, .rdn, .rup] ∧
    (0 < 1 ∧ 1 ≤ Fp.fp32.maxCode) ∧ Fp.fp32.hasInf = true ∧ (8 : Nat) ∈ [8, 16, 32, 64] := by decide

/-- The state that a placed instruction runs in: its slot's turn comes, its bytes are fetched and decode to the instruction. -/
theorem witness_StepRunsDecoded :
    (let s := State.reset.withFetchWord 32 0x02321400
     s.agenda = [.issue 0] ∧ ({ s with agenda := [] } : State).mayIssue 0 = true ∧ ({ s with agenda := [] } : State).mayIssue 16 = false ∧
     (({ s with agenda := [] } : State).takeTurn 0).fetchWords 0 = .ok (0x02321400, 0) ∧ decodeWord 0x02321400 0 = .ok (.add false 3 4 5) ∧
     decodeWord 0 0 = .error .permanentlyIllegal) ∧
    (let s := { State.reset.withFetchWord 32 0x02321400 with agenda := [] }
     s.nextTurn = some 0 ∧ (firstMove s s.agentEvents).isNone = true ∧ s.mayIssue 0 = true ∧ s.turnOf 0 ≤ s.clk ∧ s.walkFor 0 .fetch 0x10000 = .ok 0x10000 0 ∧ isXl (BitVec.ofNat 32 (memNat s.mem 0x10000 4)) = false) ∧
    (∀ e ∈ base.parts, (base.part e.1).loaded = [] ∧ (base.part e.1).goneCode = []) ∧
    ({ base with agenda := [.coll (sent 1), .event (.frameDone 0)] } : State).agenda = [.coll (sent 1), .event (.frameDone 0)] ∧
    ((base.thread 0).launch = some 0 ∧ (base.launches.get? 0).isSome = true) ∧
    ((base.putThr { base.thr with pc := 0x80000000 }).fetchWords 0 = .error (.park 0x80000000)) := by
  and_intros <;> decide +kernel

/-- An instruction of each length that has an encoding; a state with canonical storage and its step. -/
theorem witness_DecodeEncode : (Instr.add false 3 4 5).wf = true ∧ (Instr.add false 3 4 5).fields ≠ none ∧
    (Instr.addiL false 6 0 0x12345678).wf = true ∧ (Instr.addiL false 6 0 0x12345678).fields ≠ none := by decide +kernel

theorem witness_StorageForm :
    (State.reset.withFetchWord 32 0x02321400).Ok ∧ (match step (State.reset.withFetchWord 32 0x02321400) with
      | .next _ => true
      | _ => false) = true := by
  unfold State.Ok; decide +kernel

/-- Two triangles that share an edge, which they traverse in opposite directions. -/
theorem witness_SampleCoverage :
    (let p' : Prim := { prim0 with xs := [(8192, 0), (0, 0), (8192, -8192)] }
     p'.vert 0 = prim0.vert 1 ∧ p'.vert 1 = prim0.vert 0 ∧ prim0.vert 0 ≠ prim0.vert 1) := by decide +kernel

/-- A seed that is written, and one with a reserved bit. -/
theorem witness_GeneratorSeeds :
    (regs 4 5 5 0).Ready false [4] ∧ ((regs 4 5 5 0).thr.getG 4).toNat < 2 ^ 32 ∧ (regs 4 (2 ^ 32) 5 0).Ready false [4] ∧
    2 ^ 32 ≤ ((regs 4 (2 ^ 32) 5 0).thr.getG 4).toNat ∧ (31 : Nat) < 32 := by
  simp only [ready_iff]; decide +kernel

/-- A ray in the mesh, whose cell's vertices are below vcount 4 and not below 3; a polyhedron record with fcount 9; and planes that are
not finite, of no direction, and sound. -/
theorem witness_CellChecks :
    (let r := meshRay 0x3F800000 0 0
     let e := meshEntry 1 r
     let m : March := ⟨1, 100, 0x31000, 0x30000, 1, 4, false, 0, [], [], true, [r]⟩
     let x := memNat mesh.mem 0x31000 32
     (r.o.bad = false ∧ r.d.bad = false ∧ (fp r.tmax).bad = false ∧ r.d.isZero = false ∧ r.cell < m.ccount ∧
       Val.le (fp r.tmax) (.zero false) = false ∧ r.steps ≠ m.limit) ∧
     (m.poly = false ∧ meshRead mesh e 0x31000 32 (fun _ => [(0, 32)]) = .ok x ∧ (∀ k < 4, fieldOf x (4 * k) 4 < 4) ∧ ∃ k < 4, 3 ≤ fieldOf x (4 * k) 4) ∧
     (∃ vs, readVerts mesh e m [fieldOf x 0 4, fieldOf x 4 4, fieldOf x 8 4, fieldOf x 12 4] = .ok vs) ∧
     (meshRead (mesh.write none 0x32000 4 9) e 0x32000 256 polyUsed = .ok 9 ∧ 8 < fieldOf 9 0 4)) ∧
    (V3.mk (fp 0x7F800000) (fp 0) (fp 0)).bad = true ∧ (V3.mk (fp 0) (fp 0) (fp 0)).isZero = true ∧ (fp 0x7FC00000).bad = true ∧
    ((V3.mk (fp 0x3F800000) (fp 0) (fp 0)).bad = false ∧ (V3.mk (fp 0x3F800000) (fp 0) (fp 0)).isZero = false) := by
  and_intros <;> first | decide +kernel | exact of_val (by decide +kernel) | exact of_isOk (by decide +kernel)

/-! ### Clauses on what waits, on empty ranges, on places and on a cell's arithmetic -/

/-- `base` with another entry for its second GiB, which it leaves absent. -/
def secondPage (e : Nat) : State := { base with mem := memPut base.mem 0x3008 8 e }

/-- Scoped accesses that are misaligned, relaxed and acquiring; a relaxed one over two pages, of which the second or the first is absent
or forbids the access; and what a walk may end in. -/
theorem witness_misaligned :
    ((os5Order 7).isRelaxed = true ∧ (os5Order 3).isRelaxed = false ∧ 0x20001 % 2 ^ (3 % 4) ≠ 0 ∧ 0x20001 + 8 ≤ (0x20001 / 4096 + 1) * 4096 ∧
      mem8.window 0 (winBase + 1) 8 = none ∧ (commanding 0 0).window 0 (winBase + 0x8001) 8 ≠ none) ∧
    ((0x3FFFFFFF / 4096 + 1) * 4096 = 0x40000000 ∧ 0x40000000 < 0x3FFFFFFF + 2 ∧ base.walkFor 0 .store 0x3FFFFFFF = .ok 0x3FFFFFFF 0 ∧
      base.walkFor 0 .store 0x40000000 = .park ∧ base.walkFor 0 .store 0x7FFFFFFF = .park ∧ base.walkFor 0 .store 0x80000000 = .park ∧
      (secondPage 0x97).walkFor 0 .store 0x40000000 = .denied ∧ (State.reset.withFetchWord 32 0).walkFor 0 .store 0x20FFF = .denied ∧
      (State.reset.withFetchWord 32 0).walkFor 0 .store 0x21000 = .denied) ∧
    ((secondPage (2 ^ 45 + 0x97)).walkFor 0 .load 0x40000000 = .bad ∧ (secondPage (2 ^ 45 + 0xD7)).walkFor 0 .load 0x40000000 = .noRoute ∧
      (base.setDie 0 { base.die 0 with inReset := true }).walkFor 0 .load 0x20000 = .held) := by decide +kernel

/-- Lines whose homes are up at a grant; the block of a saved thread whose home is up and in reset. -/
theorem witness_homes :
    (∀ x ∈ [0x800, 0x801], (leasing [0x801]).homeDown (x * 64) 0 = false) ∧
    (oneAway true).latchHeld 1 = false ∧
    (let s := { oneAway true with parts := [(0, { (oneAway true).part 0 with sEff := 0x1001 })] }
     s.latchHeld 1 = false ∧ (s.setDie 0 { s.die 0 with inReset := true }).latchHeld 1 = true) := by decide +kernel

/-- Announced accesses that may be performed, one that a lease of another slot holds, one homed on a die in reset, and an AMO behind a
request of its line. -/
theorem witness_ranked_waits :
    (∀ k ∈ [ScKind.store 5 false, .load true, .amo 0 1 0 false, .done], let e : ScAccess := ⟨3, 0, 1, 0, 0x20000, 0, 4, 6, k⟩
      (ranked k).scHeld e = false ∧ (ranked k).scBehind e = false) ∧
    (let e : ScAccess := ⟨3, 0, 1, 0, 0x20000, 0, 4, 6, .load true⟩
     let s := (ranked (.load true)).setThread 1 { base.thr with lease := some { lease0 with granted := some 56 } }
     s.scHeld e = true ∧ ((ranked (.load true)).setDie 0 { base.die 0 with inReset := true }).scHeld e = true) ∧
    (let e : ScAccess := ⟨3, 0, 1, 0, 0x20000, 0, 4, 6, .amo 0 1 0 false⟩
     let r : AmoReq := { id := 7, slot := 1, core := 0, pa := 0x20000, attr := 0, n := 8, d := 6, kind := .claim 3 }
     ({ ranked (.amo 0 1 0 false) with amoq := [r], homes := [(0x800, [2 ^ 32 + 7])] } : State).scBehind e = true) := by decide +kernel

/-- A Spring slot's register that is not listed; a queue that is empty and one that is not. -/
theorem witness_registers :
    isSpring (spring id).cur = true ∧ (spring id).Ready false [4] ∧ cregKnown 0xFFF = false ∧ (spring id).thr.vq = [] ∧ queued.thr.vq = [] ∧
    (regs 4 5 5 0).thr.vq = [] ∧ (user (fun t => { (t.setG 4 5) with vq := [mkCmd base .mv 0 1 0 0 1 0] })).thr.vq ≠ [] ∧
    (user (fun t => { (t.setG 4 5) with vq := [mkCmd base .mv 0 1 0 0 1 0] })).Ready false [4] := by
  simp only [ready_iff]; decide +kernel

/-- SLOTCTL of an EMPTY slot and of a whole core; a value that no core may have as c.pool, and one that the named core refuses. -/
theorem witness_slotctl :
    (let s := seen id 1 2
     s.Ready false [4, 5] ∧ sidCheck s 1 = .ok () ∧ (1#64).getLsbD 22 = false ∧ (s.thread 1).st = .empty) ∧
    (∀ op ∈ [0, 1, 2, 3, 4], let s := seen id 0x400000 (BitVec.ofNat 64 op)
     s.Ready false [4, 5] ∧ val? (sidCheck s 0x400000) = some () ∧ (0x400000#64).getLsbD 22 = true ∧ isSpring 0 = false ∧ (s.thread 0).launch = some 0) ∧
    poolForm 0x804010 = true ∧ poolForm 0x104080 = false ∧
    poolForm 0x804000 = true ∧ (seen id 0x400000 4).poolOk 0 0x804000 = false := by
  simp only [ready_iff]
  and_intros <;> first
    | decide +kernel
    | exact of_val (by decide +kernel)

/-- CTXSAVE of a thread that an earlier pass of it holds, and of a core whose dirty bytes can go home and cannot. -/
theorem witness_saving :
    (let s := seen (fun t => { t with saving := true, held := true }) 0 0x20001
     s.Ready false [4, 5] ∧ sidCheck s 0 = .ok () ∧ (s.thread 0).saving = true ∧ (s.thread 0).st = .running) ∧
    (let s := (seen id 0 0x20000).setCore 0 { Core.fresh with strm := [(0x20000, 1)] }
     s.flushHeld 0 = false ∧ (s.setDie 0 { s.die 0 with inReset := true }).flushHeld 0 = true) := by
  simp only [ready_iff]
  and_intros <;> first
    | decide +kernel
    | exact of_val (by decide +kernel)

/-- The reads of a VWAIT are sound, and log nothing. -/
theorem witness_flag_reads :
    ∀ x ∈ [0, 1], let t := flags x
      let fl : List ERead := [⟨0, 0, 64⟩, ⟨0, 1, 64⟩]
      let wa : List ERead := [⟨1, 0, 32⟩, ⟨1, 1, 32⟩]
      (∀ e ∈ fl ++ wa, t.thr.elemPoisoned e.r e.i e.w = false) ∧ (t.logDeferred fl).logDeferredOf t.thr wa = t := by decide +kernel

/-- `vec` with `n` commands in its thread's queue. -/
def behind (n : Nat) : State :=
  (vec 5 0 32).putThr { (vec 5 0 32).thr with vq := List.replicate n (mkCmd base .mv 0 1 0 0 1 0) }

/-- VCFG, VGRANT and VTAG with the unit free, behind a queued instruction, and with the queue full; the tags of VPICK and VPACK, and of
VGET and of a VST of VF4 elements. -/
theorem witness_queue_places :
    (∀ n ∈ [0, 1, 8], (behind n).Ready false [] ∧ 7 + 2 ^ 0 ≤ (behind n).thr.budget ∧ (behind n).readable 4 ∧ 7 < (behind n).thr.budget ∧
      (behind n).thr.ew 7 ≠ 0 ∧ (behind n).thr.fmt 7 ≠ 0 ∧ ((behind n).thr.vq.length < 8 ↔ n < 8) ∧ (behind n).startsNow = (n == 0)) ∧
    (let s := (vec 5 0 32).putThr ((vec 5 0 32).thr.setV 1 ⟨0x1F, 6, 0⟩)
     tagCheck s 32 [(2, fun _ _ => !overlaps 2 (s.thr.grp 2) 1 (s.thr.grp 1)),
       (0, fun x y => x == s.thr.fmt 2 && y == s.thr.grp 2 && x != 0x10), (1, fun x _ => fmtIsInt x && x % 2 == 0)] = .ok () ∧
     tagCheck s 32 [(2, fun _ _ => !overlaps 2 (s.thr.grp 2) 0 (s.thr.grp 0)),
       (0, fun x y => x == s.thr.fmt 2 && y == s.thr.grp 2 && x != 0x10)] = .ok () ∧ s.thr.fmt 7 ≠ 0x10) ∧
    (let s := vec 0x10 0 32
     s.VecReady false [4, 5] ∧ boundCheck s [2, 1] [] = .ok () ∧ s.thr.fmt 2 = 0x10) ∧
    tagCheck (vmem 0x20000 3) 3 [(2, fun f _ => fmtWidth f ≥ 8 && (f != 0x10 || !true))] = .ok () := by
  simp only [vec_ready_iff, ready_iff, State.readable]
  and_intros <;> first
    | decide +kernel
    | exact of_val (by decide +kernel)

/-- SAMPLE, BOXTEST, TRITEST and PARTITION of no element. -/
theorem witness_no_elements :
    (let s := texels.putThr { texels.thr with vl := 0 }
     s.VecReady false [4] ∧ boundCheck s [0, 4] [] = .ok () ∧ s.thr.vl ≤ s.thr.vstart ∧ s.thr.region = none ∧
     tagCheck s 0 [(0, fun f g => f == 0x0B && g == 4), (4, fun f g => f == 0x0B && g == 4)] = .ok () ∧ texels.thr.vstart < texels.thr.vl) ∧
    (let s := (rays 0).putThr { (rays 0).thr with vl := 0 }
     s.VecReady false [4, 5] ∧ s.thr.vl = 0 ∧ s.thr.vstart = 0 ∧ s.thr.region = none ∧ boundCheck s [0, 8] [] = .ok () ∧
     boundCheck s [4, 8] [] = .ok () ∧ boundCheck s [1] [] = .ok () ∧ tagCheck s 0 [(1, fun f g => f == 0x06 && g == 1)] = .ok () ∧
     tagCheck s 0 [(0, fun f g => f == 0x0B && g == 1 && !overlaps 0 1 8 8), (8, fun f g => f == 0x0B && g == 8)] = .ok () ∧
     tagCheck s 0 [(4, fun f g => f == 0x0B && g == 4 && !overlaps 4 4 8 8), (8, fun f g => f == 0x0B && g == 8)] = .ok () ∧
     0 < (rays 0).thr.vl.toNat) := by
  simp only [vec_ready_iff, ready_iff]
  and_intros <;> first
    | decide +kernel
    | exact of_val (by decide +kernel)

/-- The accumulator instructions in a slot whose quad's store no gang holds; a join that finds a thread held. -/
theorem witness_gang_away :
    (let s : State := { gang false .running 0 63 with cores := [] }
     s.Ready false [] ∧ s.VecReady false [] ∧ s.ownsAcc s.cur = false ∧ boundCheck s [0] [] = .ok () ∧ boundCheck s [8] [] = .ok () ∧
     tagCheck s 256 [(0, fun f n => f == 0x0B && n == 8)] = .ok () ∧ s.thr.vl = 256 ∧
     tagCheck s 256 [(8, fun f n => ((f == 0x09 || f == 0x0A) && n == 4) || ((f == 0x0D || f == 0x0E) && n == 2) || (f == 0x0F && n == 1))] = .ok ()) ∧
    (let s := (gang false .running 0 64).putThr (gang false .running 0 64).thr
     s.VecReady false [5] ∧ s.ownsAcc s.cur = true ∧ boundCheck s [0] [] = .ok () ∧ 64 ≤ (s.thr.getG 5).toNat ∧
     tagCheck s 256 [(0, fun f n => f == 0x0B && n == 8)] = .ok ()) ∧
    (let s := { (gang false (.waiting .gang) 0 0).setQuad 0 { Gang.idle with arrived := [0, 16, 32, 48], joinAt := some 2 } with clk := 2 }
     (∀ k ∈ (s.quad 0).arrived, (s.thread k).held = false) ∧
     (let h := s.setThread 16 { s.thread 16 with held := true }
      (h.quad 0).joinAt = some 2 ∧ (∀ k ∈ (h.quad 0).arrived, slotOf k = 0) ∧ (∃ k ∈ (h.quad 0).arrived, (h.thread k).held = true) ∧
      (h.thread 16).st = .waiting .gang)) := by
  simp only [vec_ready_iff, ready_iff]
  and_intros <;> first
    | decide +kernel
    | exact of_val (by decide +kernel)

/-- A BCAST whose root is the other member, which has sent its data; an entry whose buffer's route is up and down; a ray that waits. -/
theorem witness_engine_waits :
    (let e := workEntry 1 (.coll 7 3 5 3 1 1 0x20000 0x30000)
     let s : State := { working 1 (.coll 7 3 5 3 1 1 0x20000 0x30000) with remote := [⟨7, 1, 3, 5, 3, 1, 1, [1, 0, 0, 0]⟩] }
     rankOf 3 s.dev.pkg.toNat ≠ 1 ∧ s.unitHeld 1 0 = false ∧ (∀ r ∈ s.remote, r.agrees 3 5 3 1 1 = true) ∧
     untilFail (fun i => sourceByte s e (0x20000 + i)) (List.range 0) = ([], none) ∧ s.spansHeld [] = false) ∧
    ((∀ p ∈ [((0x22000 : Nat), (0 : Nat))], p.2 ≠ 3 → base.routeUp (paPkg p.1) = true) ∧ base.routeUp (paPkg (2 ^ 45)) = false) ∧
    (let s := taken id
     rayStep (s.setDie 0 { s.die 0 with inReset := true }) (meshEntry 1 (meshRay 0x3F800000 0 0))
       ⟨1, 100, 0x31000, 0x30000, 1, 4, false, 0, [], [(0x22000, 0)], true, [meshRay 0x3F800000 0 0]⟩ (meshRay 0x3F800000 0 0) = .hold) := by
  and_intros <;> decide +kernel

/-- A bin while a primitive is in hand, and a fragment record over two pages. -/
theorem witness_bin_in_hand :
    (let h : InHand := ⟨prim0, triangle, some 0x40000, [], none, none⟩
     let f := { frame0 with hand := some h }
     val? (readList (raster f (aqKey 0 0 0) 0) f 0) = some [] ∧ h.prim.seq = prim0.seq) ∧
    pageCuts 0x50FF0 32 = [(0x50FF0, 16), (0x51000, 16)] ∧
    isOk ((rendering frame0 { TileUnit.idle with frag := some (frag0 none) }).agentWait 3 0 0 tagFrag .store
      (writeSpans ((pageCuts 0x50FF0 32).map (fun e => (e.1, e.2, (frag0 none).bytes / 256 ^ (e.1 - 0x50FF0) % 256 ^ e.2)) ++ cutWrite 0x52008 8 1))) =
      true := by and_intros <;> decide +kernel

/-- What packets, code commands and resets access: nothing of it held, and all of it homed on a die in reset. -/
theorem witness_host_waits :
    (let s := packets queue0 launchPacket
     let d := s.setDie 0 { s.die 0 with inReset := true }
     s.descHeld 0 0 = false ∧ d.descHeld 0 0 = true ∧ s.launchAway 0 launchPacket = false ∧ s.codeAway 0 0 = false ∧ d.codeAway 0 0 = true ∧
     s.ringHeld 0 0 = false ∧ d.ringHeld 0 0 = true ∧ s.queueAway 0 0 = false ∧ d.queueAway 0 0 = true ∧ s.partAway 0 = false ∧
     d.partAway 0 = true ∧ s.dieAway 0 = false) ∧
    (packets queue0 signalPacket).agentHeld 0 .update [(0x25000, 8)] = false ∧ (packets queue0 framePacket).frameAway 0 framePacket = false ∧
    (let s := raster { frame0 with state := 1 } (aqKey 2 0 0) 0
     let d := s.setDie 0 { s.die 0 with inReset := true }
     s.framesAway (endsFrame 3 0) = false ∧ d.framesAway (endsFrame 3 0) = true ∧ s.dieAway 0 = false ∧ d.dieAway 0 = true) ∧
    (Req.qreset 0 0 ∉ base.reqs ∧ Req.ereset 0 0 0 ∉ base.reqs) ∧
    (let l : Launch := { oneThreadLaunch with halted := [0], killed := [0] }
     let s := { base with launches := [(0, l)] }
     s.launches.get? 0 = some l ∧ l.outcome = none ∧ l.halted.getLast? = some 0 ∧ 0 ∈ l.killed) ∧
    (let e : HotEntry := ⟨0, 0, 5, 0, 1, 0, 0⟩
     (base.setPart 0 { base.part 0 with hot := 0x100000 }).hotHeld e = false) := by decide +kernel

/-- A load of two elements at the address `x`, left in its thread's queue; a word of v0 is poisoned, and slot 1 holds `l`. -/
def loading (op : VOp) (x : Word) (l : Option Lease) : State :=
  let c : VCmd := ⟨op, 2, 0, 1, 0, 0, x, 0, 2, 0, 0, 0x10000, 0, [(0, 5), (1, 5), (2, 5)]⟩
  ((vecs 5 0 0 2).putThr { (vecs 5 0 0 2).thr with vq := [c], poison := [0x10000] }).setThread 1 { base.thr with lease := l }

/-- Why the queued command stops, where it does. -/
def stops (s : State) : Option Why :=
  match (s.thread 0).vq with
  | [] => none
  | c :: rest => (err? (runCmd (({ s with cur := 0 } : State).putThr ((s.thread 0).forCmd c rest)) c)).map Stop.why

/-- A queued command that meets poison, one that traps, one whose page is absent and one whose line another slot's lease holds; a record
of a thread whose results have landed, one of a thread that waits, and a taken place. -/
theorem witness_command_ends :
    (∀ e ∈ [(VOp.int 0, (0 : Word), none), (.load 0, 0x20002, none), (.load 0, 0x80000000, none),
        (.load 0, 0x20000, some { lease0 with granted := some 0 })],
      (loading e.1 e.2.1 e.2.2).readySlot 0 = some 0 ∧ ((loading e.1 e.2.1 e.2.2).thread 0).vq.length = 1) ∧
    (match stops (loading (.int 0) 0 none) with
      | some (.held v _) => v == 0x0200000000000020
      | _ => false) = true ∧ stops (loading (.load 0) 0x20002 none) = some (.trap 0x07 0 none) ∧
    stops (loading (.load 0) 0x80000000 none) = some (.park 0x80000000) ∧
    stops (loading (.load 0) 0x20000 (some { lease0 with granted := some 0 })) = some .stall ∧
    (let s := base.setCluster 0 { Cluster.fresh with waitRecs := [(some 0, record0)] }
     (s.cluster 0).waitRecs = [(some 0, record0)] ∧ (s.thread 0).pendDone = true ∧ (s.cluster 0).nextPlace ∉ (s.cluster 0).ring) ∧
    (let s := (user (fun t => { t with pend := [.vals [(3, 41)]] })).setCluster 0 { Cluster.fresh with ring := [0], waitRecs := [(some 0, record0)] }
     (s.thread 0).pendDone = false ∧ (s.cluster 0).nextPlace ∈ (s.cluster 0).ring) := by decide +kernel

/-- The cell of `mesh`, its ray's origin and direction, a flat cell, and a polyhedron with one plane. -/
def cell0 : Cell :=
  .tet [(⟨fp 0, fp 0, fp 0⟩, fp 0x3F800000), (⟨fp 0x3F800000, fp 0, fp 0⟩, fp 0x3F800000), (⟨fp 0, fp 0x3F800000, fp 0⟩, fp 0x40000000),
    (⟨fp 0, fp 0, fp 0x3F800000⟩, fp 0x40800000)] [0xFFFFFFFF, 0, 1, 2]
def from0 : V3 := ⟨fp 0x3E800000, fp 0x3E800000, fp 0x3E800000⟩
def along : V3 := ⟨fp 0x3F800000, fp 0, fp 0⟩
def flat : Cell := .tet [(from0, fp 0), (from0, fp 0), (from0, fp 0), (from0, fp 0)] []
def poly0 : Cell := .poly (fp 0) from0 along [(along, fp 0x3F800000)] [0]

/-- A ray that leaves its cell through a face, before and after its tmax; cells that give no face: a flat one, and one that no ray leaves
for want of a direction. -/
theorem witness_CellMarchArithmetic :
    ((cell0.faces from0 along).isSome = true ∧ cell0.exit from0 along 0 = some (0, 0x3E800000) ∧
      Val.lt (.zero false) (fp 0x3F800000) = true ∧ rndV ((fp 0x3E800000).over (fp 0x3F800000)) ≠ .nan ∧
      (cell0.faces from0 ⟨fp 0, fp 0, fp 0⟩).isSome = true ∧ cell0.exit from0 ⟨fp 0, fp 0, fp 0⟩ 0 = none ∧
      flat.faces from0 along = none ∧ poly0.exit from0 along 0 = some (0, 0x3F400000)) ∧
    (fp 0x3E800000).bad = false ∧ rndV ((fp 0x7F7FFFFF).plus ((fp 0x7F7FFFFF).times (fp 0x7F7FFFFF))) = .inf false ∧ (Val.inf false).bad = true ∧
    (let r := meshRay 0x3F800000 0 0
     cell0.exit r.o r.d r.t = some (0, 0x3E800000) ∧ Val.le (fp r.tmax) (fp 0x3E800000) = false ∧
     Val.le (fp { r with tmax := 0x3E800000 }.tmax) (fp 0x3E800000) = true ∧ cell0.nb 0 = 0xFFFFFFFF ∧ cell0.nb 1 ≠ 0xFFFFFFFF ∧
     cell0.nb 1 < 1 ∧ 1 ≤ cell0.nb 2) := by decide +kernel

theorem fp_zero : fp 0 = .zero false := by decide +kernel
theorem fp_one : fp 0x3F800000 = .fin false 1 1 := by decide +kernel
theorem fp_quarter : fp 0x3E800000 = .fin false 1 4 := by decide +kernel

/-- The vertices of `cell0` span a volume, and a point in it has its barycentric coordinates; the polyhedron's fields are numbers. -/
theorem witness_cell_weights :
    let x (k : Nat) : V3 := ⟨fp (if k = 1 then 0x3F800000 else 0), fp (if k = 2 then 0x3F800000 else 0), fp (if k = 3 then 0x3F800000 else 0)⟩
    let e (k : Nat) (q : V3 → Val) : ℝ := numberOf (q (x k)) - numberOf (q (x 0))
    (∀ k < 4, IsNumber (x k).x ∧ IsNumber (x k).y ∧ IsNumber (x k).z) ∧ IsNumber (fp 0x3E800000) ∧
    e 1 V3.x * (e 2 V3.y * e 3 V3.z - e 2 V3.z * e 3 V3.y) - e 1 V3.y * (e 2 V3.x * e 3 V3.z - e 2 V3.z * e 3 V3.x) +
      e 1 V3.z * (e 2 V3.x * e 3 V3.y - e 2 V3.y * e 3 V3.x) ≠ 0 ∧
    ∃ l : Nat → ℝ, l 0 + l 1 + l 2 + l 3 = 1 ∧
      ∀ q v, (q, v) ∈ [(V3.x, fp 0x3E800000), (V3.y, fp 0x3E800000), (V3.z, fp 0x3E800000)] →
        l 0 * numberOf (q (x 0)) + l 1 * numberOf (q (x 1)) + l 2 * numberOf (q (x 2)) + l 3 * numberOf (q (x 3)) = numberOf v := by
  have h0 : IsNumber (fp 0) := by rw [fp_zero]; exact .inl ⟨_, rfl⟩
  have h1 : IsNumber (fp 0x3F800000) := by rw [fp_one]; exact .inr ⟨false, 1, 1, by decide, by decide, rfl⟩
  have h (b : Prop) [Decidable b] : IsNumber (fp (if b then 0x3F800000 else 0)) := by split <;> assumption
  refine ⟨fun k _ => ⟨h _, h _, h _⟩, ?_, ?_, fun _ => 1 / 4, by norm_num, ?_⟩
  · rw [fp_quarter]; exact .inr ⟨false, 1, 4, by decide, by decide, rfl⟩
  · norm_num [numberOf, fp_zero, fp_one, Val.numer, Val.denom]
  · intro q v m
    simp only [List.mem_cons, Prod.mk.injEq, List.not_mem_nil, or_false] at m
    rcases m with ⟨rfl, rfl⟩ | ⟨rfl, rfl⟩ | ⟨rfl, rfl⟩ <;> norm_num [numberOf, fp_zero, fp_one, fp_quarter, Val.numer, Val.denom]

end Sys2Proof.Tests
end

section
/-! The general registers: what a write of g[d] leaves pending and poisoned, and that the register can then be read. -/
namespace Sys2Proof.Machine

/-- The register codes that `Pend.drop r` takes away are g[r] and its poison: an entry so cut holds a write of neither. -/
theorem pendingOf_cons_drop {r c : Nat} (hr : r ≠ 0) (hc : c = r ∨ c = codePoison + r) (p : Pend) (ps : List Pend) :
    pendingOf (p.drop r :: ps) c = pendingOf ps c := by
  have hc0 : c ≠ 0 := by omega
  cases p with
  | vals rs =>
    have hnone : (rs.filter (fun e => e.1 != r && e.1 != codePoison + r)).find? (fun e => e.1 == c) = none := by
      simp only [List.find?_eq_none, List.mem_filter]
      rcases hc with rfl | rfl <;> simp +contextual
    simp [Pend.drop, pendingOf, hnone]
  | qwait d q b =>
    have hne : (if d = r || d = codePoison + r then 0 else d) ≠ c := by
      split
      · exact hc0.symm
      · rcases hc with rfl | rfl <;> simp_all
    simp only [Pend.drop, pendingOf, hne, if_false]
  | sc id rs =>
    have hnot : c ∉ rs.filter (fun e => e != r && e != codePoison + r) := by
      rcases hc with rfl | rfl <;> simp
    simp only [Pend.drop, pendingOf, List.contains_eq_mem, hnot, decide_false, Bool.false_eq_true, if_false]
  | vec => rfl
  | mask => rfl

/-- R23: neither a register taken away from the pending results nor its poison has a pending write. -/
theorem pendingOf_map_drop {r c : Nat} (hr : r ≠ 0) (hc : c = r ∨ c = codePoison + r) (ps : List Pend) :
    pendingOf (ps.map (Pend.drop r)) c = none := by
  induction ps with
  | nil => rfl
  | cons p ps ih => rw [List.map_cons, pendingOf_cons_drop hr hc, ih]

@[simp] theorem Thread.getG_zero (t : Thread) : t.getG 0 = 0 := rfl

@[simp] theorem Thread.setG_zero (t : Thread) (v : Word) : t.setG 0 v = t := rfl

@[simp] theorem State.thr_setG (s : State) (d : Nat) (v : Word) : (s.setG d v).thr = s.thr.setG d v :=
  thr_putThr s (s.thr.setG d v)

theorem Thread.getG_setG_self {d : Nat} (hd : d ≠ 0) (t : Thread) (v : Word) : (t.setG d v).getG d = v := by
  simp [Thread.getG_setG, hd]

theorem Thread.getG_setG_of_ne {d r : Nat} (hr : r ≠ d) (t : Thread) (v : Word) : (t.setG d v).getG r = t.getG r := by
  by_cases h0 : r = 0
  · simp [h0]
  · simp [Thread.getG_setG, h0, hr]

theorem Thread.pend_setG {d : Nat} (hd : d ≠ 0) (t : Thread) (v : Word) :
    (t.setG d v).pend = t.pend.map (Pend.drop d) := by
  simp [Thread.setG, hd]

theorem Thread.not_mem_poison_setG {d : Nat} (hd : d ≠ 0) (t : Thread) (v : Word) : d ∉ (t.setG d v).poison := by
  simp [Thread.setG, hd]

/-- A register that has just been written can be read: its older pending results and its poison are gone (R23, R281). -/
theorem State.readable_setG (s : State) (d : Nat) (v : Word) : (s.setG d v).readable d := by
  by_cases hd : d = 0
  · exact .inl hd
  · refine .inr ?_
    rw [State.thr_setG, Thread.pend_setG hd]
    exact ⟨Thread.not_mem_poison_setG hd _ _, pendingOf_map_drop hd (.inl rfl) _, pendingOf_map_drop hd (.inr rfl) _⟩

/-- An instruction without the W marker that reads one readable register can issue. -/
theorem State.ready_singleton {s : State} {r : Nat} (h : s.readable r) : s.Ready false [r] :=
  ⟨nofun, fun q hq => by rwa [List.mem_singleton.1 hq]⟩

end Sys2Proof.Machine

open Sys2Proof Sys2Proof.Machine

/-- Settles O1: reads of registers by what the last write of g[d] stored, the next issue by what it drops. -/
theorem generalRegisterWrite : Obligations.GeneralRegisterWrite := by
  intro t d v
  refine ⟨t.getG_zero, t.setG_zero v, fun hd => t.getG_setG_self hd v, fun r hr => t.getG_setG_of_ne hr v, ?_⟩
  rintro s rfl
  exact ⟨State.ready_singleton (s.readable_setG d v), s.thr_setG d v⟩
end

section
/-! MFS and MTS (R222): the ways in which each ends once its register is reachable and its operand is read. The lane generators'
seeds (R48). -/
namespace Sys2Proof

/-- A table filled from its numbers holds under each of them what it was filled with. -/
theorem Tab.get?_map_mk {α : Type} (f : Nat → α) {l : List Nat} {k : Nat} (hk : k ∈ l) :
    Tab.get? (l.map (fun i => (i, f i))) k = some (f k) := by
  induction l with
  | nil => cases hk
  | cons i l ih =>
    simp only [List.map_cons, Tab.get?]
    split
    · next h => rw [h]
    · next h => exact ih ((List.mem_cons.1 hk).resolve_left (Ne.symm h))

namespace Machine

@[simp] theorem finish_ok (s t : State) : finish s (.ok t) = .next t := rfl

@[simp] theorem finish_stall (s t : State) : finish s (stall t) = .next s := rfl

/-- A trap with the PC itself as its resume PC waits for the vector instructions before it (R227). -/
@[simp] theorem finish_trapNow (s t : State) (cause : Nat) (v : Word) : finish s (trapNow t cause v) = s.trapAfter t cause v := by
  cases h : t.thr.vq <;> simp [finish, trapNow, State.trapAfter, h]

@[simp] theorem finish_illegal (s t : State) : finish s (illegal t) = s.trapAfter t 0x01 t.wordAtPc := finish_trapNow s t _ _

/-- R24: an index of the list below 0x800 is open to every thread. -/
theorem checkCreg_user (s : State) {i : Nat} (hk : cregKnown i = true) (hi : i < 0x800) : checkCreg s i = .ok () := by
  simp [checkCreg, hk, hi]

@[simp] theorem thr_setThread_cur (s : State) (t : Thread) : (s.setThread s.cur t).thr = t := thr_putThr s t

theorem State.thr_advance (s : State) (n : Nat) : (s.advance n).thr = { s.thr with pc := s.thr.pc + BitVec.ofNat 64 n } :=
  thr_putThr s _

/-! ### MFS -/

section Mfs
variable {s : State} {w : Bool} {rs : List Nat} {c : BitVec 12} {i : Nat}

theorem execMfs_of_busy (h : s.Ready w rs) (d : BitVec 5) (hi : c.toNat = i) (hc : checkCreg (s.afterW w) i = .ok ())
    (hbusy : (s.afterW w).cregBusy i = true) : execMfs w d c s = .next s := by
  simp [execMfs, h.waitW, hi, hc, hbusy, bind, Except.bind]

theorem execMfs_of_read (h : s.Ready w rs) (d : BitVec 5) (hi : c.toNat = i) (hc : checkCreg (s.afterW w) i = .ok ())
    (hbusy : (s.afterW w).cregBusy i = false) {v : Word} {u : State} (hr : readCreg (s.afterW w) i = .ok (v, u)) :
    execMfs w d c s = .next ((u.setG d.toNat v).advance 4) := by
  simp [execMfs, h.waitW, hi, hc, hbusy, hr, bind, Except.bind]

end Mfs

/-! ### MTS of a register that the thread may write, other than c.pool -/

section Mts
variable {s : State} {w : Bool} {a : BitVec 5} {c : BitVec 12} {i : Nat}

theorem execMts_of_rejected (h : s.Ready w [a.toNat]) (hi : c.toNat = i) (hc : checkCreg (s.afterW w) i = .ok ())
    (hro : cregReadOnly (isSpring (s.afterW w).cur) i = false)
    (hv : cregAccepts i ((s.afterW w).thr.getG a.toNat).toNat = false) :
    execMts w a c s = s.trapAfter (s.afterW w) 0x01 (s.afterW w).wordAtPc := by
  simp [execMts, h.waitW, h.read, hi, hc, hro, hv, bind, Except.bind]

theorem execMts_of_busy (h : s.Ready w [a.toNat]) (hi : c.toNat = i) (hc : checkCreg (s.afterW w) i = .ok ())
    (hro : cregReadOnly (isSpring (s.afterW w).cur) i = false)
    (hv : cregAccepts i ((s.afterW w).thr.getG a.toNat).toNat = true) (hpool : i ≠ 0x022)
    (hbusy : (s.afterW w).cregBusy i = true) : execMts w a c s = .next s := by
  simp [execMts, h.waitW, h.read, hi, hc, hro, hv, hpool, hbusy, bind, Except.bind]

theorem execMts_of_accepted (h : s.Ready w [a.toNat]) (hi : c.toNat = i) (hc : checkCreg (s.afterW w) i = .ok ())
    (hro : cregReadOnly (isSpring (s.afterW w).cur) i = false)
    (hv : cregAccepts i ((s.afterW w).thr.getG a.toNat).toNat = true) (hpool : i ≠ 0x022)
    (hbusy : (s.afterW w).cregBusy i = false) :
    execMts w a c s = .next (((s.afterW w).setCreg (s.afterW w).cur i ((s.afterW w).thr.getG a.toNat)).advance 4) := by
  simp [execMts, h.waitW, h.read, hi, hc, hro, hv, hpool, hbusy, bind, Except.bind]

end Mts

/-! ### c.srseed -/

theorem checkCreg_srseed (s : State) : checkCreg s 0x012 = .ok () := checkCreg_user s (by decide) (by decide)

theorem not_cregReadOnly_srseed (spring : Bool) : cregReadOnly spring 0x012 = false := by cases spring <;> decide

/-- R7, R24: bits [63:32] of c.srseed are reserved. -/
theorem cregAccepts_srseed (v : Nat) : cregAccepts 0x012 v = decide (v < 2 ^ 32) := rfl

theorem cregBusy_srseed_iff (s : State) : s.cregBusy 0x012 = true ↔ s.thr.vq ≠ [] := by simp [State.cregBusy]

theorem cregBusy_srseed_of_nil {s : State} (h : s.thr.vq = []) : s.cregBusy 0x012 = false := by simp [State.cregBusy, h]

theorem readCreg_srseed (s : State) : readCreg s 0x012 = .ok (s.thr.srseed, s) := rfl

/-- R48: a write of c.srseed seeds every lane. -/
theorem State.thr_setCreg_srseed (s : State) (v : Word) :
    (s.setCreg s.cur 0x012 v).thr = { s.thr with srseed := v, lfsr := seedLfsr v } := thr_setThread_cur s _

theorem seedLfsr_get? (seed : Word) {lane : Nat} (h : lane < 32) : (seedLfsr seed).get? lane = some (lfsrSeed seed lane) :=
  Tab.get?_map_mk (lfsrSeed seed) (List.mem_range.2 h)

theorem startThread_srseed (l : Launch) (lid tid now : Nat) : (startThread l lid tid now).srseed = 0 := rfl

/-- A dispatched thread's lanes have drawn nothing: no lane is in its table of generators, so each reads as what it starts from. -/
theorem startThread_lfsr_getD (l : Launch) (lid tid now lane : Nat) (x : BitVec 32) :
    (startThread l lid tid now).lfsr.getD lane x = x := rfl

end Machine
end Sys2Proof

open Sys2Proof Sys2Proof.Machine

/-- Settles O28: the endings of MFS and MTS at c.srseed, whose write fills the table of seeds; a dispatched thread has no table yet,
and its lanes stand at the seeds of 0. -/
theorem generatorSeeds : Obligations.GeneratorSeeds := by
  refine ⟨fun _ _ _ => rfl, fun l lid tid now lane _ =>
    ⟨startThread_srseed l lid tid now, startThread_lfsr_getD l lid tid now lane _⟩, ?_⟩
  intro s w d a hready t x
  simp only [exec_mfs, exec_mts]
  have hindex : (0x012 : BitVec 12).toNat = 0x012 := rfl
  have hcheck := checkCreg_srseed t
  have hwritable := not_cregReadOnly_srseed (isSpring t.cur)
  have haccepts (hx : x.toNat < 2 ^ 32) : cregAccepts 0x012 x.toNat = true :=
    (cregAccepts_srseed _).trans (decide_eq_true hx)
  refine ⟨fun hvq => ?_, fun hvq hx => ?_, fun hx => ?_, fun hvq => ?_⟩
  · have hbusy : t.cregBusy 0x012 = true := (cregBusy_srseed_iff t).2 hvq
    exact ⟨execMfs_of_busy hready d hindex hcheck hbusy,
      fun hx => execMts_of_busy hready hindex hcheck hwritable (haccepts hx) (by decide) hbusy⟩
  · have hmts := execMts_of_accepted hready hindex hcheck hwritable (haccepts hx) (by decide) (cregBusy_srseed_of_nil hvq)
    refine ⟨_, hmts, ?_⟩
    rw [State.thr_advance, State.thr_setCreg_srseed]
    exact ⟨rfl, fun lane hl => seedLfsr_get? x hl⟩
  · have hrejects : cregAccepts 0x012 x.toNat = false := (cregAccepts_srseed _).trans (decide_eq_false (Nat.not_lt.2 hx))
    exact execMts_of_rejected hready hindex hcheck hwritable hrejects
  · exact execMfs_of_read hready d hindex hcheck (cregBusy_srseed_of_nil hvq) (readCreg_srseed t)
end

section
/-! The cell-march unit (ch. 12): what the check of each kind of cell record ends a ray with or goes on to (R292), and the faces of a
polyhedron (R294). -/
namespace Sys2Proof.Machine

/-! ### The checks of a cell record -/

section Reads
variable {s : State} {e : Entry} {m : March} {c x : Nat}

theorem readCell_of_vertex_ge (hp : m.poly = false) (hr : meshRead s e (m.cells + 32 * c) 32 (fun _ => [(0, 32)]) = .ok x)
    (hv : ∃ k < 4, m.vcount ≤ fieldOf x (4 * k) 4) : readCell s e m c = .error (.bad 2 none) := by
  have hany : ((List.range 4).map (fun k => fieldOf x (4 * k) 4)).any (fun v => v ≥ m.vcount) = true := by simpa using hv
  simp only [readCell, hp, hr, hany, if_true, Bool.false_eq_true, if_false]

theorem readCell_of_vertices_lt (hp : m.poly = false) (hr : meshRead s e (m.cells + 32 * c) 32 (fun _ => [(0, 32)]) = .ok x)
    (hv : ∀ k < 4, fieldOf x (4 * k) 4 < m.vcount) {vs : List (V3 × Val)}
    (hvs : readVerts s e m ((List.range 4).map (fun k => fieldOf x (4 * k) 4)) = .ok vs) :
    readCell s e m c = .ok (.tet vs ((List.range 4).map (fun k => fieldOf x (0x10 + 4 * k) 4))) := by
  have hany : ((List.range 4).map (fun k => fieldOf x (4 * k) 4)).any (fun v => v ≥ m.vcount) = false := by simpa using hv
  simp only [readCell, hp, hr, hany, hvs, Bool.false_eq_true, if_false]

theorem readCell_of_fcount (hp : m.poly = true) (hr : meshRead s e (m.cells + 256 * c) 256 polyUsed = .ok x)
    (hn : fieldOf x 0 4 < 4 ∨ 8 < fieldOf x 0 4) : readCell s e m c = .error (.bad 2 none) := by
  have hcount : (fieldOf x 0 4 < 4 || fieldOf x 0 4 > 8) = true := by simpa using hn
  simp only [readCell, hp, hr, hcount, if_true]

end Reads

/-! ### A step from a cell -/

/-- R206: the ray reads its cell, as neither the ray itself nor its cell's number ends it, its tmax is above 0 and it has steps left. -/
structure Ray.Reads (m : March) (r : Ray) : Prop where
  origin : r.o.bad = false
  direction : r.d.bad = false
  tmax : (fp r.tmax).bad = false
  nonzero : r.d.isZero = false
  cell : r.cell < m.ccount
  positive : Val.le (fp r.tmax) (.zero false) = false
  steps : r.steps ≠ m.limit

section Step
variable {s : State} {e : Entry} {m : March} {r : Ray}

theorem rayStep_of_readCell_ok (h : r.Reads m) {c : Cell} (hc : readCell s e m r.cell = .ok c) :
    rayStep s e m r = .ray (r.cross m c) none true := by
  simp [rayStep, h.origin, h.direction, h.tmax, h.nonzero, Nat.not_le.2 h.cell, h.positive, h.steps, hc]

theorem rayStep_of_readCell_bad (h : r.Reads m) {detail : Nat} {p : Option Nat}
    (hc : readCell s e m r.cell = .error (.bad detail p)) :
    rayStep s e m r = .ray (r.stop m.mode 3 detail) p true := by
  simp [rayStep, h.origin, h.direction, h.tmax, h.nonzero, Nat.not_le.2 h.cell, h.positive, h.steps, hc]

end Step

/-! ### The faces of a polyhedron -/

/-- A list on one of whose elements `f` has no value has no list of values. -/
theorem mapM_eq_none_of_mem {α β : Type} {f : α → Option β} {l : List α} {a : α} (ha : a ∈ l) (hf : f a = none) :
    l.mapM f = none := by
  induction l with
  | nil => cases ha
  | cons b l ih =>
    rw [List.mapM_cons]
    rcases List.mem_cons.1 ha with rfl | ha
    · rw [hf]; rfl
    · cases f b with
      | none => rfl
      | some y => simp [ih ha]

theorem polyFace_of_degenerate (o d : V3) {p : V3 × Val} (h : p.1.bad = true ∨ p.2.bad = true ∨ p.1.isZero = true) :
    polyFace o d p = none := by
  have hcheck : (p.1.bad || p.2.bad || p.1.isZero) = true := by simpa [or_assoc] using h
  simp only [polyFace, hcheck, if_true]

theorem polyFace_of_regular (o d : V3) {n : V3} {w : Val} (hn : n.bad = false) (hw : w.bad = false) (hz : n.isZero = false) :
    polyFace o d (n, w) = some (rndV (w.sub (n.dot o)), rndV (n.dot d)) := by
  simp [polyFace, hn, hw, hz]

/-- A cell without faces has no exit, so a ray in it ends DEGENERATE, detail 2 (R294). -/
theorem Ray.cross_of_faces_eq_none {r : Ray} {c : Cell} (h : c.faces r.o r.d = none) (m : March) :
    r.cross m c = r.stop m.mode 4 2 := by
  simp [Ray.cross, Cell.exit, h]

end Sys2Proof.Machine

open Sys2Proof Sys2Proof.Machine

/-- Settles O29: a step by what the read of its cell gives, a polyhedron's end by the face that a plane does not have. -/
theorem cellChecks : Obligations.CellChecks := by
  refine ⟨fun s e m r ho hd ht hz hc hp hs => ?_, fun r m v0 c g ps nb hps => ?_, fun o d n w hn hw hz =>
    polyFace_of_regular o d hn hw hz⟩
  · have hreads : r.Reads m := ⟨ho, hd, ht, hz, hc, hp, hs⟩
    refine ⟨fun x htet hx => ⟨fun hv => ?_, fun hv vs hvs => ?_⟩, fun x hpoly hx hn => ?_⟩
    · exact rayStep_of_readCell_bad hreads (readCell_of_vertex_ge htet hx hv)
    · exact rayStep_of_readCell_ok hreads (readCell_of_vertices_lt htet hx hv hvs)
    · exact rayStep_of_readCell_bad hreads (readCell_of_fcount hpoly hx hn)
  · obtain ⟨p, hmem, hp⟩ := hps
    have hfaces : (Cell.poly v0 c g ps nb).faces r.o r.d = none :=
      mapM_eq_none_of_mem hmem (polyFace_of_degenerate r.o r.d hp)
    exact Ray.cross_of_faces_eq_none hfaces m
end

section
/-! Coverage (R316, R317): what each edge of a primitive says of a point, and what the same edge says when it is traversed the
other way: E_ji = -E_ij, and of the two directions of an edge exactly one owns the points on it. -/
namespace Sys2Proof.Machine

/-- Whether an edge of direction (dx, dy) owns the points that lie on it (R317). -/
def OwnsEdge (dx dy : Int) : Prop := dy < 0 ∨ (dy = 0 ∧ 0 < dx)

theorem ownsEdge_neg {dx dy : Int} (h : dx ≠ 0 ∨ dy ≠ 0) : OwnsEdge (-dx) (-dy) ↔ ¬ OwnsEdge dx dy := by
  unfold OwnsEdge
  omega

theorem ownsEdge_reverse {a b : Int × Int} (h : a ≠ b) :
    OwnsEdge (a.1 - b.1) (a.2 - b.2) ↔ ¬ OwnsEdge (b.1 - a.1) (b.2 - a.2) := by
  have hd : b.1 - a.1 ≠ 0 ∨ b.2 - a.2 ≠ 0 := by
    contrapose! h
    exact Prod.ext (by omega) (by omega)
  simpa only [neg_sub] using ownsEdge_neg hd

theorem edge_reverse (a b q : Int × Int) : edge b a q = -edge a b q := by
  simp only [edge]
  ring

namespace Prim

theorem inside_iff (p : Prim) (i j : Nat) (q : Int × Int) :
    p.inside i j q = true ↔ 0 < p.e i j q ∨
      (p.e i j q = 0 ∧ OwnsEdge ((p.vert j).1 - (p.vert i).1) ((p.vert j).2 - (p.vert i).2)) := by
  simp [inside, OwnsEdge]

theorem covers_iff (p : Prim) (q : Int × Int) :
    p.covers q = true ↔ ∀ e ∈ [(0, 1), (1, 2), (2, 0)], p.inside e.1 e.2 q = true := by
  simp [covers, and_assoc]

section Reversed
variable {p p' : Prim} {i j i' j' : Nat} (hi : p'.vert i' = p.vert j) (hj : p'.vert j' = p.vert i)
include hi hj

theorem e_reverse (q : Int × Int) : p'.e i' j' q = -p.e i j q := by
  rw [e, hi, hj, edge_reverse, e]

/-- A point off the edge has one sign on either side; a point on it belongs to the direction that owns the edge. -/
theorem inside_reverse (hne : p.vert i ≠ p.vert j) (q : Int × Int) : p'.inside i' j' q = !p.inside i j q := by
  rw [Bool.eq_not_iff, ne_eq, Bool.eq_iff_iff, inside_iff, inside_iff, e_reverse hi hj, hi, hj, ownsEdge_reverse hne]
  rcases lt_trichotomy (p.e i j q) 0 with hneg | hzero | hpos
  · simp [hneg, hneg.not_gt, hneg.ne]
  · simp [hzero]
  · simp [hpos, hpos.not_gt, hpos.ne']

end Reversed

end Prim

end Sys2Proof.Machine

open Sys2Proof Sys2Proof.Machine

/-- Settles O27: coverage edge by edge, and a shared edge by its reversal. -/
theorem sampleCoverage : Obligations.SampleCoverage := by
  refine ⟨⟨rfl, rfl, rfl, rfl⟩, fun x y sx sy => ?_, fun p q => ?_, fun p p' i j i' j' q hi hj hne =>
    Prim.inside_reverse hi hj hne q⟩
  · simp [samplePoint]
  · simp only [Prim.covers_iff, Prim.inside_iff]
    rfl
end
